-- ==== Sys2Proof/Word.lean ====
section
/-! DEFINITION. The word types of the TMS (R7): bytes, register words, granules of 128 B (R8). -/

namespace Sys2Proof

/-- One byte. -/
abbrev Byte := BitVec 8
/-- One register word (Register map: 32 bits). -/
abbrev Word := BitVec 32
/-- One 64-bit word of a control block, a descriptor or a record. -/
abbrev DWord := BitVec 64
/-- One granule, 128 B (R8), little-endian (R7). -/
abbrev Granule := BitVec 1024
/-- Byte enables of one granule. -/
abbrev Enables := BitVec 128

/-- A table of the hardware as sparse plain data: (index, entry) pairs, indices rising, no entry equal to the
default of its index. Machine/Tables.lean gives the operations. -/
abbrev Table (α : Type) := List (Nat × α)

end Sys2Proof
end

