-- ==== Sys2Proof/Config.lean ====
section
/-! DEFINITION. The free values: what the manual leaves open and the machine goes on with. Each is an opaque
constant without a body, so nothing can be proved of its value (assumption log 4). -/

namespace Sys2Proof.Config

/-- A byte of memory whose contents the manual calls undefined (R71, R167, R352, R411): `epoch` is the moment the
range became undefined, `addr` the byte. -/
opaque freeByte (epoch addr : Nat) : BitVec 8
/-- The SLC set of a line for `n` banks in service, modulo 1,024 n: R20 gives 1,024 n sets and no index function. -/
opaque slcSet (n line : Nat) : Nat
/-- The victim of a pseudo-LRU replacement among the candidates (R20, R78), by the free counter. -/
opaque victim (epoch candidates : Nat) : Nat
/-- The check byte a bank keeps with a 64-bit word of a row (R306 gives no code). -/
opaque checkByte (data : BitVec 64) (row : Nat) : BitVec 8
/-- What a raw check byte makes of a word: 0 clean, 1 corrected, otherwise uncorrectable (R306, R370). -/
opaque checkClass (data : BitVec 64) (row : Nat) (chk : BitVec 8) : Nat
/-- The corrected data of a word whose check byte shows one wrong bit (R306). -/
opaque checkFix (data : BitVec 64) (row : Nat) (chk : BitVec 8) : BitVec 64
/-- The hardware state of a context entry, bytes 0x20 to 0x3F: R64 names no contents. -/
opaque hwState (epoch ctx byte : Nat) : BitVec 8
/-- The status of a command whose program was rewritten while it ran (R157: any status). -/
opaque anyStatus (epoch : Nat) : Nat
/-- The read data of a host or far transfer that an error replaced, and other read data the manual leaves open. -/
opaque freeWord (epoch key : Nat) : BitVec 64

/-- The nanoseconds from issue to first data of a read that the model performs within one step (R120; log 75). -/
opaque latency (epoch : Nat) : Nat

/-- Whether channel offset `x` of a die channel lies in the failed DRAM row that was reported at `off` (R321): the
manual gives no row size. -/
opaque sameRow (g off x : Nat) : Bool

end Sys2Proof.Config
end

