-- ==== Sys2Proof/Syntax.lean ====
section
/-! DEFINITION. The commands of the block, one constructor per row of spec/opcode_table.json. The table gives no
operands: each constructor carries what its rule needs from outside, or the name of the unit that acts. -/

namespace Sys2Proof

/-- Table 6.4, the status codes. -/
inductive Status where
  | ok | okLate | faultXlate | faultProt | faultAlign | eccUncorr | frameWithdrawn | squashed | aborted
  | chainGap | barrierOverrun | chequeStale | quarantined | oversub
  deriving DecidableEq, Repr

/-- What a segment or an owner request does at its bank (R85, R61): a read, a write, or an alias write of one of
the six alias spaces of Table 3.3. -/
inductive AccessKind where
  | read | write | set | clr | addF32 | addBF16 | addI32 | addI64
  deriving DecidableEq, Repr

/-- An owner request that stands at a teller in one tc (R85, R90), with its context and the short stamp that its port
gave it; at a bank of the SLC, a request of the SLC's tag logic (R88). -/
structure OwnerReq where
  src : Nat
  ctx : Option Nat
  kind : AccessKind
  row : Nat
  data : Granule
  be : Enables
  dl : Nat
  arrival : Nat
  deriving DecidableEq, Repr

/-- A segment of a source (R96): up to 16 granules of one target, with its context, its class, its short deadline stamp,
the domain mark of sealed banks (R70) and, for a write, the data that its source has so far. A source of this die gets
the class and the mark from its context at the issue point (R70, R112); one of another die brings them. -/
structure Segment where
  id : Nat
  src : Nat
  ctx : Option Nat
  cls : Nat
  kind : AccessKind
  target : Nat
  count : Nat
  dl : Nat
  sealedMark : Bool
  data : List (Granule × Enables)
  deriving DecidableEq, Repr

/-- What a relay of another die brings to a link of this die (R205): the die of its source, the domain of its context
(none where it has no context), its class and short stamp, the granules of a full piece, the piece, the number of the link
and the chain (die, node, slot ring) from that link on; for granules, their byte offset in the piece and their bytes. -/
structure RelayHop where
  die : Nat
  dom : Option Nat
  lane : Nat
  dl : Nat
  size : Nat
  piece : Nat
  link : Nat
  chain : List (Nat × Nat × Nat)
  off : Nat
  data : List Byte
  deriving DecidableEq, Repr

/-- A request of an engine port (Table 16.2): `port` is the unit number node×4 + port of Table 1.3. -/
structure PortReq where
  port : Nat
  tag : Nat
  ctx : Nat
  addr : Nat
  cnt : Nat
  stride : Int
  dl : Nat
  scope : Nat
  vol : Bool
  aop : Nat
  val : Word
  deriving DecidableEq, Repr

/-- One byte of write data with its enable (x.w_data, x.w_be). -/
abbrev WByte := Byte × Bool

/-- A DATA flit (Table 16.12) with what it carries: a request with its segment; a response (`net`) with the segment it
answers by its id, its status and, for a read, the next granule; or granules of a relay, with the program context that runs
it on its die (R206). `io` says that the host or an I/O die made the request, which has no source number of its own (R18). -/
structure Flit where
  send : Nat
  net : Bool
  lane : Nat
  dest : Nat
  crcOk : Bool
  io : Bool
  st : Status
  seg : Segment
  relay : Option (Nat × RelayHop)
  deriving DecidableEq, Repr

/-- The commands. Operands named `r`, `c`, `m`, `p`, `n`, `b`, `g`, `st`, `d` are the numbers of a command ring,
completion ring or channel, mover, program context, node, bank, group, stack and domain; `v` is a written word and
`src` the source number of its writer (R18). -/
inductive Instr where
  | ptSyncMark (mark : Nat)
  | ptMarkMissing (bad : Bool)
  | ptSlewEnd
  | ptDieOffsetWrite (v : Word)
  | ptNowLoRead (off : Nat)
  | ptEpochOffsetHiWrite (v : Word)
  | ptProbeGo (v : Word)
  | ptProbeDone (t1 t2 t3 t4 : List Int)
  | evlEnable (v : Word)
  | evlDisable (v : Word)
  | evlRecordPlace (src : Nat)
  | protSealWrite (v : Word)
  | ctxBind (r : Nat)
  | ctxUnbind (r : Nat)
  | ctxUnbindFinish (ctx : Nat)
  | frameMap (r : Nat)
  | frameMapModeOnly (r : Nat)
  | frameMapDeferred (key : Nat)
  | groupModeSwitch (g : Nat)
  | frameUnmap (r : Nat)
  | shootdownAck (node key : Nat)
  | tallyWalkDone (node asid vpn : Nat)
  | tellerGrant (bank : Nat) (reqs : List OwnerReq)
  | tellerHeader (node place : Nat)
  | lookAhead (bank id : Nat)
  | callReceive (id : Nat)
  | segmentGranuleArrive (id : Nat)
  | refusalReceive (id : Nat)
  | backoffExpire (id : Nat)
  | meshRailGrant (row col out : Nat)
  | cutOff (id : Nat)
  | quarantineWindowEnd (unit : Nat)
  | quarantineRelease (n : Nat) (v : Word)
  | starvation (bank id : Nat)
  | readDataArrive (id : Nat)
  | writeAckArrive (id : Nat)
  | segmentIssue (seg : Segment)
  | windowBoundary
  | reguCntClrWrite (v : Word)
  | doorbell (r off width : Nat) (v : DWord)
  | batchFetch (r : Nat)
  | batchArrive (r : Nat) (pathStatus : Status)
  | notBeforeReached (r : Nat)
  | copy (r : Nat)
  | fill (r : Nat)
  | reduce (r : Nat)
  | convert (r : Nat)
  | relay (r : Nat)
  | stream (r : Nat)
  | signal (r : Nat)
  | wait (r : Nat)
  | fence (r : Nat)
  | barrier (r : Nat)
  | invalidate (r : Nat)
  | flush (r : Nat)
  | digestRead (r : Nat)
  | stamp (r : Nat)
  | commandComplete (r seq : Nat)
  | cringRecordPlace (c : Nat)
  | cringHeadWrite (evr : Bool) (c : Nat) (v : Word)
  | cmdrEnable (r : Nat) (v : Word)
  | cmdrDisable (r : Nat) (v : Word)
  | cmdrStop (r : Nat) (v : Word)
  | cmdrResume (r : Nat) (v : Word)
  | cringEnable (c : Nat) (v : Word)
  | evrEnable (e : Nat) (v : Word)
  | irqNsExpire (evr : Bool) (c : Nat)
  | pstoreHighWrite (n : Nat) (v : Word)
  | pstoreLowWrite (n : Nat) (v : Word)
  | halt (m p : Nat)
  | next (m p : Nat)
  | nextRetire (m p : Nat)
  | loop (m p : Nat)
  | endl (m p : Nat)
  | seta (m p : Nat)
  | adda (m p : Nat)
  | stride (m p : Nat)
  | rd (m p : Nat)
  | wr (m p : Nat)
  | streamCopy (m p : Nat)
  | red (m p : Nat)
  | gath (m p : Nat)
  | scat (m p : Nat)
  | pwalk (m p : Nat)
  | mint (m p : Nat)
  | slota (m p : Nat)
  | slotr (m p : Nat)
  | chqin (m p : Nat)
  | chqout (m p : Nat)
  | waitf (m p : Nat)
  | setf (m p : Nat)
  | clrf (m p : Nat)
  | streamFence (m p : Nat)
  | streamStamp (m p : Nat)
  | seam (m p : Nat)
  | digest (m p : Nat)
  | pendingFaultTake (m p : Nat)
  | slotRingEnable (ring : Nat) (v : DWord)
  | slotRingDisable (ring : Nat) (v : DWord)
  | slotAcquireRetry (ring side : Nat)
  | slotConsumerReleaseDone (ring slot : Nat)
  | chequePoolEnable (pool : Nat) (v : DWord)
  | recall (pool : Nat) (v : DWord)
  | chequeQueueEnable (q : Nat) (v : DWord)
  | chequeQueueDisable (q : Nat) (v : DWord)
  | put (q : Nat) (v : DWord) (src : Nat)
  | chequeWaitRetry (q : Nat) (isPut : Bool)
  | relayReservation (m p : Nat) (hop : Option RelayHop)
  | relayGrant (m p : Nat)
  | relayLinkRelease (m p link : Nat) (hop : Option RelayHop)
  | relayErrorReport (m p link : Nat) (st : Status)
  | releasePerform (key : Nat)
  | flagsWrite (off : Nat) (data : List Byte) (src : Nat)
  | flagOperationPerform (flag : Nat) (ops : List (Nat × Bool))
  | spinPoll (m p : Nat)
  | remoteFlagWrite (flag : Nat) (v : DWord) (src lane : Nat)
  | lendAssert (n : Nat)
  | nodeAllWait (n : Nat) (w : Bool)
  | barrierArrivalCount (c : Nat)
  | barrierReleaseSeen (c : Nat)
  | quietPhaseEnd (c : Nat)
  | barEnable (c : Nat) (v : Word)
  | barDisable (c : Nat) (v : Word)
  | barArrive (v : Word)
  | barForce (v : Word)
  | gatewayHeader (id : Nat)
  | stackEntryAccept (st c : Nat)
  | stackReadData (st c tag : Nat) (ue : BitVec 2)
  | stackLevel (st c level : Nat)
  | levelStale (st c : Nat)
  | retrainNotice (st c e b : Nat)
  | retrainGo (st c : Nat)
  | retrainDone (st c : Nat)
  | retrainTimeout (st c : Nat)
  | retrainFail (st c : Nat)
  | chLost (st c : Nat)
  | repairAdvised (st c : Nat)
  | rowRepaired (st c off : Nat)
  | spareRowFailed (st c off : Nat)
  | frameSetWithdrawn (f : Nat)
  | gwRepairGo (st : Nat) (v : Word) (src : Nat)
  | repairSwitch (st : Nat)
  | farReadData (id half : Nat) (ue : Bool)
  | farWriteAck (piece : Nat)
  | linkFlitReceive (port : Nat) (f : Flit)
  | linkControlFlit (port : Nat) (votes : Option (BitVec 37)) (credits : List (Nat × Bool × Nat))
  | wakePattern (die : Nat)
  | linkRetrain (port : Nat)
  | linkUp (port : Nat)
  | linkFailed (port : Nat)
  | scrubStep (bank : Nat) (usable : Bool)
  | scrubWriteBack (bank : Nat)
  | ceWindowEnd
  | bankMapWrite (b : Nat) (v : Word)
  | bankSpare (v : Word) (src : Nat)
  | bankWithdraw (v : Word) (src : Nat)
  | spareCopyEnd
  | frameRescue (v : Word) (src : Nat)
  | frameRescueNone (v : Word) (src : Nat)
  | rescueCopyEnd
  | frameSet (v : Word) (src : Nat)
  | gwBootSpare (st : Nat) (v : Word)
  | gwBootWd (st : Nat) (v : Word)
  | clerkAlert (v : Word) (src : Nat)
  | clerkWdKick (v : Word) (src : Nat)
  | clerkWatchdog
  | cmdWatchdog (m p : Nat)
  | lockup (site node out lane : Nat)
  | nodeVote (n : Nat) (mask : BitVec 37)
  | pwrVoteHostWrite (hi : Bool) (v : Word)
  | pwrVoteClerkWrite (hi : Bool) (v : Word) (src : Nat)
  | activityTimerExpire (d : Nat)
  | domainEntryStart (d : Nat)
  | domainEntryDone (d : Nat)
  | domainWake (d kind src : Nat)
  | domainWakeDone (d : Nat)
  | timedWake
  | pwrBankWrite (b : Nat) (v : Word)
  | bankRetentionExit (b : Nat)
  | powerEstimateUpdate (est : List Nat) (cap : Nat)
  | voltageAck
  | voltageTimeout
  | clampRelease (hi : Bool) (v : Word)
  | thermUpdate (temps : List (BitVec 12))
  | powerOn
  | brownOut (ao : Bool)
  | pin
  | software (v : Word)
  | debug
  | clockFail
  | resetRelease
  | clerkStart
  | clerkBootGo (v : Word)
  | lifeCycleChange (st : Nat)
  | tamper
  | wipeDone
  | stopArm (v : Word)
  | globalStop
  | stopAck (v : Word)
  | resume (v : Word)
  | debugAccess (off : Nat) (wr : Option Word)
  | tapInstrumentAccess (dbg : Bool) (off : Nat) (wr : Option Word)
  | auditTake (trigger src : Nat)
  | auditDone
  | auditRelease (v : Word)
  | cntClr (v : Word)
  | portRd (q : PortReq)
  | portWr (q : PortReq) (beats : List WByte)
  | portRdAcq (q : PortReq)
  | portWrRel (q : PortReq) (beats : List WByte)
  | portAtomic (q : PortReq) (beats : List WByte)
  | portFence (q : PortReq)
  | portWriteBeat (port : Nat) (beat : List WByte)
  | flagSet (q : PortReq)
  | flagClr (q : PortReq)
  | waitSet (q : PortReq)
  | waitClr (q : PortReq)
  | waitSetThenClr (q : PortReq)
  | slotAcq (q : PortReq)
  | slotRel (q : PortReq)
  | chqTake (q : PortReq)
  | chqPut (q : PortReq)
  | portBarrier (q : PortReq)
  | escrowBegin (v : Word)
  | escrowStageData (k : Nat) (v : Word)
  | escrowCommit (v : Word)
  | escrowAbort (v : Word)
  | escrowCommitTime (k : Nat)
  | escrowDrainDone (k : Nat)
  | registerWrite (off : Nat) (v : Word) (src : Nat)
  | slotChequeControlWrite (off : Nat) (v : DWord) (src : Nat)
  | linkDown (port : Nat)
  | tamperDeasserted
  | entryOverdue (id : Nat)
  | escrowValidationEnd (k : Nat)
  | vaultBackupLoss
  deriving DecidableEq, Repr

end Sys2Proof
end

