-- ==== Sys2Proof/Machine/State.lean ====
section
/-! DEFINITION. The state of one TMS as plain data, and the state after reset. Every register of Table 17.2 is a
word of `regs` at its offset, or is computed from the structure that holds what it shows (Machine/RegView.lean). -/

namespace Sys2Proof.Machine

/-- No command of this block stops the machine: every error is a status, an error bit or a record in State. -/
inductive Fault where
  deriving DecidableEq, Repr

/-- Reasons of a refusal. -/
inductive Refusal where
  /-- A command that has no meaning in the model; raised by exec's refused arms only. Safe. -/
  | notModelled (mnemonic : String)
  deriving DecidableEq, Repr

/-- The parameters of Table 0.1 with the straps, fuses and inputs the package fixes (log 2). -/
structure Build where
  dies : List Nat
  ioDies : Nat
  nStacks : Nat
  links : List Nat
  farKind : Nat
  dieId : Nat
  clkMode : Nat
  bootSrc : Nat
  fuseClamp : Table Nat
  deriving DecidableEq, Repr

/-- One memory: listed bytes, and ranges (low, past the end, epoch) whose unlisted bytes are undefined. -/
structure Memory where
  cells : List Host.Cell
  undef : List (Nat × Nat × Nat)
  deriving DecidableEq, Repr

/-- The check state of a 64-bit word whose check bits are not fresh (R306): one wrong bit or more. -/
inductive EccMark where
  | ce | ue
  deriving DecidableEq, Repr

/-- The local copy of PT (R27 to R31, R52, R53), in sixteenths of a nanosecond. -/
structure Pt where
  raw : Nat
  slew : Int
  off : Int
  phase : Nat
  missing : Nat
  probe : Option Nat
  deriving DecidableEq, Repr

/-- A DVFS step in progress (R349): its new point, and the time of its voltage request. -/
structure VStep where
  target : Nat
  up : Bool
  since : Nat
  deriving DecidableEq, Repr

/-- tclk: tc counted, the accumulator of log 5, the point, the governor's counts (R348 to R350). -/
structure Clk where
  tc : Nat
  acc : Nat
  point : Nat
  throttle : Nat
  under : Nat
  step : Option VStep
  deriving DecidableEq, Repr

/-- An event ledger record before it has a position (Table 2.1). -/
structure LedgerRec where
  stamp : Nat
  src : Nat
  seq : Nat
  type : Nat
  unlocked : Bool
  ctx : Option (Nat × Nat)
  arg0 : DWord
  arg1 : DWord
  deriving DecidableEq, Repr

/-- The event ledger's buffers, the sequences of the sources (R34, R35, R48). -/
structure Evl where
  seqs : Table Nat
  stampTc : Nat
  stamped : Table Nat
  waiting : List LedgerRec
  lost : Table Nat
  deriving DecidableEq, Repr

/-- A context entry (Table 3.4); `unbinding` is set from the start of an unbind (R66). -/
structure Ctx where
  bound : Bool
  domain : Nat
  cls : Nat
  spin : Bool
  asid : Nat
  flagBase : Nat
  flagCount : Nat
  homeNode : Nat
  kvList : Nat
  kvLen : Nat
  kvShift : Nat
  unbinding : Bool
  deriving DecidableEq, Repr

/-- Table 3.8. -/
inductive FrameState where
  | absent | free | mapped | unmapping | retiring | retired | withdrawn
  deriving DecidableEq, Repr

/-- A frame ledger entry (Table 3.7); its MODE is the group's, in FGRP_MODEn. `failing` holds the result of
Table 3.9 for a report that met an unmap. -/
structure Frame where
  asid : Nat
  vpn : Nat
  state : FrameState
  w : Bool
  a : Bool
  linked : Bool
  next : Option Nat
  failing : Bool
  deriving DecidableEq, Repr

/-- A tally cache entry (R78). -/
structure Tally where
  node : Nat
  asid : Nat
  vpn : Nat
  frame : Nat
  w : Bool
  a : Bool
  mode : Nat
  deriving DecidableEq, Repr

/-- A shootdown in flight (R81): one frame and its key, the nodes that have not acknowledged, what becomes of the
frame (`retire`: R325, with the rescue frame and whether it took the key), the unmap it belongs to, and the command
that waits, by its program context. -/
structure Shoot where
  key : Nat
  group : Nat
  frame : Nat
  asid : Nat
  vpn : Nat
  nodes : List Nat
  retire : Bool
  rescue : Option (Nat × Bool)
  owner : Option Nat
  deriving DecidableEq, Repr

/-- The operands of a FRAME_MAP or, with `unmap`, of a FRAME_UNMAP that waits behind one (Table 6.3, Table 3.9), and
the program context of its command. -/
structure MapOp where
  unmap : Bool
  modeOnly : Bool
  first : Nat
  count : Nat
  mode : Nat
  w : Bool
  a : Bool
  asid : Nat
  vpn : Nat
  owner : Nat
  deriving DecidableEq, Repr

/-- Translation state: the ledger, its buckets, the tally caches, what waits (R71, R74 to R82), and the walks that each
node started in the tc `walkTc` (R78). -/
structure Xlate where
  frames : Table Frame
  buckets : Table (Option Nat)
  tally : List Tally
  shoots : List Shoot
  waitMaps : Table MapOp
  modeSwitch : Table Nat
  nextKey : Nat
  walkTc : Nat
  walks : Table Nat
  deriving DecidableEq, Repr

/-- The side a teller's bank inputs are switched to (R86, R88): the owner, the SLC's tag logic, or one entry. -/
inductive Holder where
  | owner
  | tags
  | entry (id : Nat)
  deriving DecidableEq, Repr

/-- The states of a teller queue entry (R94). -/
inductive EntryState where
  | waiting | called | active | preempted
  deriving DecidableEq, Repr

/-- A teller queue entry (R95). -/
structure TEntry where
  id : Nat
  state : EntryState
  progress : Nat
  firstTry : Nat
  order : Nat
  overdue : Bool
  granted : Bool
  deriving DecidableEq, Repr

/-- The alias write half that follows its read half (R61, R89); `done` says that its bytes are stored already, because an
access of another command came between the halves (R61, R246). -/
structure AliasHalf where
  addr : Nat
  value : Granule
  ue : Bool
  done : Bool
  src : Nat
  ctx : Option Nat
  entry : Option Nat
  deriving DecidableEq, Repr

/-- A request that has stood at a teller and is not served: its source and arrival, its stamp after the pull-in of its
issue point (R122), its overdue bit (R40). -/
structure ReqNote where
  src : Nat
  arrival : Nat
  dl : Nat
  overdue : Bool
  deriving DecidableEq, Repr

/-- A look-ahead of the tc `tc` (R87): whose it is, and the holder and the last busy tc it met, which an access of that
tc takes up again. -/
structure Look where
  tc : Nat
  id : Nat
  holder : Holder
  busy : Option Nat
  deriving DecidableEq, Repr

/-- A teller (R86, R94). `busy` is the last tc with an access or a turn, `acted` the last tc it decided, `ownerTc` the last
tc the owner took the bank, `headTc` the tc of the last header it took; `freed` counts the entries freed in a tc, which no
header of that tc can take. -/
structure Teller where
  holder : Holder
  busy : Option Nat
  acted : Option Nat
  ownerTc : Option Nat
  look : Option Look
  headTc : Option Nat
  entries : List TEntry
  half : Option AliasHalf
  arrivals : Nat
  reqs : List ReqNote
  freed : Nat × Nat
  deriving DecidableEq, Repr

/-- Where a segment in flight stands. -/
inductive FlightState where
  | header | accepted | called | sending | refused | backoff | returning | acked
  deriving DecidableEq, Repr

/-- A segment in flight (R96, R97, R105, R108, R200): its header's state; the die channel it was issued to (R71); the
granules its supplier has offered (`sent`), those past each mesh link of its route (`pos`), those its sink took (`arrived`
of a write, `back` of a read) and the tc of the last; the rails it has taken, in the order of its route; when its head
came to the router where it waits, in order of arrival (`headAt`); its overdue bit (R40), what was taken for it, whether an
answer to it has reached its source (R98), and the errors its granules found (granule, failing words, corrections) that its
requester has not taken yet. -/
structure Flight where
  seg : Segment
  state : FlightState
  chan : Nat
  sent : Nat
  pos : List Nat
  arrived : Nat
  back : Nat
  sunk : Option Nat
  rails : List Nat
  headAt : Nat
  overdue : Bool
  holdStart : Option Nat
  firstTry : Nat
  issued : Nat
  tags : Nat
  path : Nat
  retryAt : Nat
  answered : Bool
  status : Status
  halves : Nat
  ans : List (Nat × Nat × Nat)
  deriving DecidableEq, Repr

/-- What a header on the header network is (R103); a look-ahead goes one tc before it. -/
inductive HdrKind where
  | request | call | refusal | ack
  deriving DecidableEq, Repr

/-- A header on the header network (R103, R107): its kind, its flight, the node it goes to; the router it stands at, by its
input 0 to 3 N, E, S, W or 4 LOCAL, or 5 while it waits in its unit for a place at LOCAL; the tc and the order of its arrival
there; its overdue bit (R40). -/
structure Hdr where
  kind : HdrKind
  id : Nat
  dest : Nat
  node : Nat
  inp : Nat
  since : Nat
  order : Nat
  overdue : Bool
  deriving DecidableEq, Repr

/-- The segment pipeline: tellers, segments in flight, back-off, headers, rails, quarantine windows (R94 to R110). `order`
counts the arrivals at routers. -/
structure Mesh where
  tellers : Table Teller
  flights : Table Flight
  backoff : Table Nat
  hdrs : List Hdr
  order : Nat
  rails : Table Nat
  quarCount : Table (Nat × Nat)
  deriving DecidableEq, Repr

/-- Who waits at an issue point (R116, R118, R200): a segment, a program context's reads or (`back`) its
back, a request of an engine port by its tag. -/
inductive Issuer where
  | seg (g : Segment)
  | pctx (key : Nat) (back : Bool)
  | port (port tag : Nat)
  deriving DecidableEq, Repr

/-- A segment that waits at its issue point: whose it is, its unit and class, and what has been counted for its wait: HELD,
CAPPED, FLOAT_WAITS. -/
structure IssueWait where
  who : Issuer
  unit : Nat
  cls : Nat
  held : Bool
  capped : Bool
  tagged : Bool
  deriving DecidableEq, Repr

/-- Regulation (R112 to R127). `short` holds SHORTFALL0 and SHORTFALL1 in full (R125). -/
structure Regu where
  balance : Table Nat
  odUsed : Table Nat
  allow : Table Nat
  odCap : Table Nat
  charging : Bool
  window : Nat
  holds : List Nat
  waiting : List IssueWait
  short : Nat × Nat
  sampleSum : Table Nat
  sampleCnt : Table Nat
  boost : Table Nat
  meter : Table Nat
  counters : Table Nat
  deriving DecidableEq, Repr

/-- A descriptor as fetched (Table 6.2), by its eight 64-bit words. -/
abbrev Desc := List DWord

/-- A fetched command that has not started: its sequence number, its descriptor, its WFLAG wait, the tc of the last poll. -/
structure Cmd where
  seq : Nat
  desc : Desc
  notBefore : Bool
  wflag : Option Bool
  polled : Nat
  deriving DecidableEq, Repr

/-- CMDR_STATUS.STATE. -/
inductive RingState where
  | disabled | running | stopped | error
  deriving DecidableEq, Repr

/-- The run state of a command ring (R131 to R145). A batch in flight is its first descriptor and their number; a doomed one
(R136) has 0. -/
structure Ring where
  state : RingState
  err : Nat
  fetched : List Cmd
  batches : List (Nat × Nat)
  deriving DecidableEq, Repr

/-- A loop level (Table 7.1): trips left, body start, ENDL position. -/
structure Level where
  trips : Nat
  body : Nat
  endl : Nat
  deriving DecidableEq, Repr

/-- A seam set (R177): open bit and up to 8 ranges (index, first granule byte, past the end). -/
structure SeamSet where
  isOpen : Bool
  ranges : Table (Nat × Nat)
  deriving DecidableEq, Repr

/-- A back item: an action of a decoded instruction that waits for the back (R173, R178), with its operands as
resolved by the front. `pc` and `prog` name the instruction for a fault. -/
inductive BackOp where
  | rd (addr len : Nat) (host : Bool)
  | wr (addr len : Nat) (host : Bool)
  | copy (src dst len : Nat) (hs hd : Bool)
  | red (src dst len op : Nat)
  | gath (ai ab ad n esz : Nat)
  | scat (asrc ai ab n esz : Nat)
  | pwalk (ao ad np nc g : Nat)
  | mint (src dst n fmt rnd : Nat) (seed : Option Nat) (host : Bool)
  | slotr (ring side scope : Nat)
  | chqout (queue cheque : Nat)
  | setf (flag : Nat) (set rel : Bool) (scope : Nat) (rmt : Option Nat)
  | waitf (flag mode : Nat) (acq : Bool) (scope : Nat)
  | fence (scope : Nat)
  | stamp (tag : Nat)
  | digest (d : Nat) (on clr : Bool) (fmt : Nat)
  | next (cond flag target notTaken : Nat) (predicted : Bool)
  | halt
  | fault (st : Status) (addr : DWord) (isCva isHost : Bool)
  deriving DecidableEq, Repr

/-- An error of a transfer: its status, its address, whether that is a CVA, whether it is a host address (R84). -/
structure XErr where
  st : Status
  addr : Nat
  cva : Bool
  host : Bool
  deriving DecidableEq, Repr

/-- What a read found at the check bits and its requester has yet to take (R308, R311): source, context and class, the
RAS_ERROR code of an uncorrectable read, its address, LOCKIND and LOC, the failing words, the corrected words. -/
structure Took where
  src : Nat
  ctx : Option (Nat × Nat)
  code : Nat
  addr : Nat
  kind : Nat
  loc : Nat
  words : Nat
  ce : Nat
  deriving DecidableEq, Repr

/-- What the front's reads of an item gave (R168, R173, R174): the index words of a GATH or SCAT, the bytes, the error that
ended them; what the back has yet to take of their check bits (R308, R311). -/
structure Fetched where
  idx : List Byte := []
  bytes : List Byte
  err : Option XErr
  took : List Took := []
  deriving DecidableEq, Repr

/-- A back item with the address of its instruction and the id of its program; what its reads gave, once they are made; the
segments of its reads and of its writes that have passed the issue point (R116). -/
structure BackItem where
  op : BackOp
  pc : Nat
  prog : Nat
  got : Option Fetched
  readSegs : Nat
  writeSegs : Nat
  deriving DecidableEq, Repr

/-- The front's registers of a program context (Table 7.1), which a checkpoint copies. -/
structure Front where
  pc : Nat
  prog : Nat
  a : Table Nat
  n : Table Nat
  strides : Table Int
  levels : List Level
  guardSet : SeamSet
  declareSet : SeamSet
  unclaimed : Nat
  deriving DecidableEq, Repr

/-- What a program context waits for (R188, R199, R261): a flag; in the front a slot of a side (1 consumer) for
register `ad`, or a cheque for registers `nd` and `ad`; in the back room in a queue, a barrier, a release, a segment that
waits at its issue point (R118). -/
inductive PWait where
  | flag (flag : Nat)
  | slot (ring side ad : Nat)
  | take (queue nd ad : Nat)
  | put (queue : Nat)
  | barrier (chan : Nat)
  | release (key : Nat)
  | issue
  deriving DecidableEq, Repr

/-- A stream program's state (Table 7.1): front, back, stage, generator, checkpoint, crossing state (R178, R179); the
instructions that were rewritten since its start, and whether it fetched one of them (R157). `kept` is the last page-list entry
read: its address and the entry (R170). `fwait` is what the front waits for since `fsince`: a slot, a cheque, or the flag of the
oldest WAITF that it recorded (R172, R178). -/
structure Stream where
  front : Front
  fwait : Option PWait
  fsince : Nat
  back : List BackItem
  stage : List Byte
  gen : Nat
  check : Option Front
  crossed : Bool
  halted : Bool
  changed : List Nat
  tainted : Bool
  kept : Option (Nat × Nat)
  folds : Table Nat
  deriving DecidableEq, Repr

/-- A relay in progress (R203 to R207): its links (die, node, ring), the granules of a piece, the pieces, LENGTH, the
source or its ring; the piece under reservation, the link its header has reached, whether its grant has returned, the slot of the
source ring that it took; the pieces whose transfer has started, the slots that links hold (piece, link, slot), whether an error
ended it. -/
structure Relay where
  links : List (Nat × Nat × Nat)
  piece : Nat
  pieces : Nat
  len : Nat
  src : Nat
  srcRing : Option Nat
  resv : Nat
  resvAt : Nat
  granted : Bool
  srcSlot : Option Nat
  sent : Nat
  slots : List (Nat × Nat × Nat)
  failed : Bool
  deriving DecidableEq, Repr

/-- A mover's program context (R131, R142 to R148). `status` is the first error detected (R144); `done` is set
when the command's own requests are done; `record` when its completion record waits for room; `wdFrom` is the watchdog
time of its start; `errTc` is the tc in which `status` was detected; `issued` counts the segments of the command's accesses
that have passed the issue point (R116); `polled` is the tc of its last spin poll (R264); `since` is when its wait began. -/
structure PCtx where
  ring : Nat
  seq : Nat
  desc : Desc
  start : Nat
  status : Option Status
  sflag : Option Nat
  done : Bool
  record : Bool
  wait : Option PWait
  spin : Bool
  stream : Option Stream
  relay : Option Relay
  wdStage : Nat
  wdFrom : Nat
  errTc : Nat
  issued : Nat
  polled : Nat
  since : Nat
  unbindOf : Option Nat
  deriving DecidableEq, Repr

/-- A completion record that waits for room in its ring (R148), with the program context that its command keeps. -/
structure CWait where
  ring : Nat
  stamp : Nat
  seq : Nat
  status : Status
  cmdr : Nat
  op : Nat
  irq : Bool
  owner : Option Nat
  deriving DecidableEq, Repr

/-- The interrupt condition of a completion or event ring (R154); `headOld` keeps the tc of the last write of HEAD and the
value HEAD had at the start of that tc (R148). -/
structure RingIrq where
  since : Nat
  fired : Bool
  marks : List Nat
  headOld : Option (Nat × Nat)
  deriving DecidableEq, Repr

/-- Command, completion and event rings, movers (Chapter 6, Chapter 7). -/
structure Work where
  rings : Table Ring
  pctxs : Table PCtx
  cwait : List CWait
  cirq : Table RingIrq
  eirq : Table RingIrq
  pstore : Table DWord
  pstoreLow : Table Word
  deriving DecidableEq, Repr

/-- Who waits at the flag store (R261, R262): a program context (mover×8 + p), a ring's head, an engine context by
its token with its port, context and HOME_NODE. -/
inductive Who where
  | pctx (key : Nat)
  | ring (r : Nat)
  | engine (token port ctx node : Nat)
  deriving DecidableEq, Repr

/-- A registered waiter (R258, R261): mode 0 WAIT-SET, 1 WAIT-CLR, 2 WAIT-SET-THEN-CLR; its overdue bit latches (R40). -/
structure Waiter where
  flag : Nat
  mode : Nat
  who : Who
  acq : Bool
  scope : Nat
  dl : Nat
  src : Nat
  ctx : Option (Nat × Nat)
  order : Nat
  overdue : Bool
  deriving DecidableEq, Repr

/-- A flag word (Table 11.1). -/
structure Flag where
  value : Bool
  last : Nat
  changes : Nat
  deriving DecidableEq, Repr

/-- What a release performs once its waits are done (R239): a flag of this die, a flag of another die on a lane, a
slot full, a cheque put for a domain with its deadline, a value written to a queue's PUT word, a port's store-release, or nothing more. -/
inductive Effect where
  | flag (flag : Nat) (set : Bool)
  | farFlag (die flag : Nat) (set : Bool) (lane : Nat)
  | slotFull (ring slot : Nat)
  | cheque (queue cheque dom : Nat) (due : Int)
  | put (queue v : Nat)
  | portWrite (q : PortReq) (order : Nat) (data : List WByte)
  | nothing
  deriving DecidableEq, Repr

/-- Who made a release: a program context, a request of an engine port with its context's HOME_NODE and its order number, or a
source of PPAs, which is told nothing. -/
inductive Owner where
  | pctx (key : Nat)
  | port (port tag node order : Nat)
  | source
  deriving DecidableEq, Repr

/-- A release that waits (R239): its observer's source and context, its scope, its effect, who made it. Scope 5 is lane
order: the release of R248, which waits only until the earlier writes toward its die are on their lane. -/
structure Release where
  src : Nat
  ctx : Option (Nat × Nat)
  scope : Nat
  effect : Effect
  owner : Owner
  deriving DecidableEq, Repr

/-- Who stands at a slot ring or a cheque queue and is not decided in its favour yet (R186, R188, R199): a relay of this die
at a link, or as consumer of its source ring (`link` 512, past every link), or of another at a link, an engine port's acquire of a side (1 consumer) or take, a put whose release waits are done. A
program context's wait is in its own state; `front` and `back` name it in the order of R91. -/
inductive Standing where
  | front (k ad : Nat)
  | relay (k link : Nat)
  | hop (key : Nat) (h : RelayHop)
  | acquire (q : PortReq) (side : Nat)
  | take (q : PortReq)
  | back (k cheque : Nat)
  | put (cheque : Nat) (dom : Option Nat) (ctx : Option (Nat × Nat)) (owner : Owner)
  deriving DecidableEq, Repr

/-- A request that stands at a slot ring or a cheque queue: who, its source, when it came, and when its deadline is (R39). -/
structure Stand where
  who : Standing
  src : Nat
  since : Nat
  due : Int
  deriving DecidableEq, Repr

/-- A barrier arrival (R270): its source, scope, context, and who is told. -/
structure Arrival where
  src : Nat
  scope : Nat
  ctx : Option (Nat × Nat)
  who : Option Who
  deriving DecidableEq, Repr

/-- The phase of a barrier's quiet time (R271). -/
inductive Quiet where
  | off
  | high (since : Nat)
  | low (since : Nat)
  deriving DecidableEq, Repr

/-- A barrier channel of this die (R269). -/
structure Bar where
  toggle : Bool
  expect : Bool
  arrived : Nat
  held : Nat
  round : Nat
  arrivals : List Arrival
  heldBy : List Arrival
  waiting : List Arrival
  quiet : Quiet
  wire : Bool
  deriving DecidableEq, Repr

/-- A wake that waits to be sent (R388): node, kind, id, status, and the port and scope of the acquire that is satisfied when it
reaches the node (R262). -/
structure NodeWake where
  node : Nat
  kind : Nat
  id : Nat
  status : Status
  acq : Option (Nat × Nat)
  deriving DecidableEq, Repr

/-- Flags, waits, releases, barriers, budget lending (Chapter 11), the wakes that wait to be sent, oldest first (R388). -/
structure Sync where
  flags : Table Flag
  waiters : List Waiter
  order : Nat
  releases : Table Release
  nextKey : Nat
  bars : Table Bar
  allWait : List Nat
  quietSince : Table Nat
  stopFlags : List Nat
  wakes : List NodeWake
  deriving DecidableEq, Repr

/-- A slot ring block (Table 8.1): word 0x00, ENG_P and ENG_C as lists of nodes, the slots a consumer released with the
segments of its holder's reads that are due, what stands at the ring, who holds slots (holder, side, slot), the source whose
release filled each slot; the tc of the last acquire of each side, and the slots freed in a tc (R186, R191). -/
structure Slots where
  cfg : DWord
  base : DWord
  cva : DWord
  pa : Nat
  pr : Nat
  ca : Nat
  cr : Nat
  heldP : Nat
  full : Nat
  heldC : Nat
  fills : Nat
  pdone : List Nat
  cdone : List Nat
  creads : List (Nat × List Nat)
  engP : List Nat
  engC : List Nat
  standing : List Stand
  holders : List (Nat × Nat × Nat)
  filler : Table Nat
  tookP : Option Nat
  tookC : Option Nat
  freed : Nat × Nat
  cfgErr : Bool
  opErr : Bool
  deriving DecidableEq, Repr

/-- A cheque queue block (Table 8.4); each cheque with the source that put it; what stands at the queue, the tc of its last
put and of its last take (R199). -/
structure Queue where
  cfg : DWord
  cheques : List (Nat × Nat)
  puts : Nat
  cfgErr : Bool
  putDrop : Bool
  putStale : Bool
  engT : List Nat
  engP : List Nat
  standing : List Stand
  putTc : Option Nat
  takeTc : Option Nat
  deriving DecidableEq, Repr

/-- A cheque pool block (Table 8.3). -/
structure Pool where
  cfg : DWord
  cva : DWord
  size : DWord
  gbase : Nat
  cfgErr : Bool
  stale : Nat
  deriving DecidableEq, Repr

/-- Slot rings, cheques, tags (Chapter 8). -/
structure Float where
  slots : Table Slots
  queues : Table Queue
  pools : Table Pool
  gens : Table Nat
  tags : Table Nat
  deriving DecidableEq, Repr

/-- A line of the SLC (R235, R236): data, dirty, fill stamp; `stale` says that a write passed it since its fill
(R238). -/
structure Line where
  data : Granule
  dirty : Bool
  fill : Nat
  stale : Bool
  deriving DecidableEq, Repr

/-- The shared line cache (R20, R234 to R237): lines by granule address, dirty records oldest first, acquire marks. -/
structure Slc where
  lines : Table Line
  dirty : Table (List Nat)
  marks : Table Nat
  draining : Bool
  deriving DecidableEq, Repr

/-- Table 12.2. -/
inductive ChanState where
  | active | noticed | retraining | mirror | withdrawn | spareIdle | spareMirror | spareFailed | replaced | absent
  deriving DecidableEq, Repr

/-- An entry of a channel queue (R278, R280); in a mirror window `taken` and `mirrored` say which of the channel and
the spare has accepted it (R290). -/
structure GEntry where
  id : Nat
  tag : Nat
  reserved : Bool
  order : Nat
  overdue : Bool
  taken : Bool
  mirrored : Bool
  deriving DecidableEq, Repr

/-- A physical channel of a stack (R278, R284 to R288). `die` is its die channel number, `headTc` the tc of the last header it
accepted (R279). -/
structure Chan where
  state : ChanState
  die : Option Nat
  entries : List GEntry
  reads : List GEntry
  order : Nat
  draining : Bool
  e : Nat
  b : Nat
  kept : Option (Nat × Nat × Nat)
  went : Nat
  level : Nat
  levelAt : Nat
  wasMirror : Bool
  headTc : Option Nat
  deriving DecidableEq, Repr

/-- A channel repair of a stack (R289 to R292): state code of GW_REPAIRs, local channel. -/
structure Repair where
  state : Nat
  chan : Nat
  deriving DecidableEq, Repr

/-- LINK_STATUSp.STATE. -/
inductive LinkState where
  | inactive | down | training | up | failed
  deriving DecidableEq, Repr

/-- A trace record (Table 15.5). -/
structure TraceRec where
  stamp : Nat
  src : Nat
  seq : Nat
  op : Nat
  other : Nat
  object : Nat
  deriving DecidableEq, Repr

/-- What a message of a relay between dies says (R205, R207): its header, granules; toward its source the grant of a piece,
a link's release of a piece, a link's error. -/
inductive RelayMsg where
  | header (h : RelayHop)
  | granules (h : RelayHop)
  | grant (piece : Nat)
  | released (link piece : Nat)
  | failed (link : Nat) (st : Status)
  deriving DecidableEq, Repr

/-- What the TMS sends at its boundary (Chapter 16), appended as it happens. -/
inductive Out where
  /-- x.rsp_*: port, tag, kind (0 DATA, 1 DONE, 2 WAITING, 3 NOT_AVAIL), status, granule valid bits, last, data. -/
  | beat (port tag kind : Nat) (st : Status) (gv : Nat) (last : Bool) (data : List Byte)
  /-- What a segment brings its source: its last granule or not, the status, read data. -/
  | segment (id : Nat) (last : Bool) (st : Status) (data : Granule)
  /-- The answer of a bank to an owner request: bank, source, status, read data. -/
  | owner (bank src : Nat) (st : Status) (data : Granule)
  /-- n.wake_*: node, kind, id, status (Table 16.9). -/
  | wake (node kind id : Nat) (st : Status)
  /-- sgs.cmd_*: stack, code, local channel (R390). -/
  | stackCmd (s code ch : Nat)
  /-- The answer to an access of a PPA source: its status and its data. -/
  | reply (st : Status) (data : DWord)
  /-- A granule of a request that leaves by a die-link port: port, destination die, lane, source, whether it writes, short
  stamp of the deadline (R37), address, data, enables. -/
  | link (port die lane src : Nat) (wr : Bool) (dl addr : Nat) (data : Granule) (be : Enables)
  /-- A response to another die's request: port, die, lane, the source it answers, the segment, its status, read data. -/
  | answer (port die lane src id : Nat) (st : Status) (data : Granule)
  /-- A request of 4 B or 8 B to a control space of another die: port, die, lane, source, whether it writes, the id that its
  acknowledgement names, short stamp, address, data. -/
  | control (port die lane src : Nat) (wr : Bool) (id dl addr : Nat) (data : DWord)
  /-- A message of a relay toward another die (R205, R206): port, die, lane, the program context (mover × 8 + p) that runs
  the relay on its die, the message. -/
  | relay (port die lane key : Nat) (msg : RelayMsg)
  /-- A wake pattern sent (R304). -/
  | pattern (port die : Nat)
  /-- A trace record sent (R373). -/
  | trace (t : TraceRec)
  /-- pm_vreq (R393). -/
  | vreq (point : Nat)
  /-- A CONTROL flit's vote mask: port, the votes sent to the neighbour (R336, R391). -/
  | votes (port : Nat) (mask : BitVec 37)
  deriving DecidableEq, Repr

/-- A die-link port (R300, R303, R305): credits by lane×2 + network, votes of the peer (R336), what waits in its lanes. -/
structure Link where
  state : LinkState
  since : Nat
  credits : Table Nat
  replays : Nat
  replayFrom : Nat
  votes : BitVec 37
  waiting : List Out
  deriving DecidableEq, Repr

/-- Gateways, far agent, die links (Chapter 12). -/
structure Edge where
  chans : Table Chan
  repairs : Table Repair
  farTable : List (Nat × Nat × Bool)
  links : Table Link
  badRows : List (Nat × Nat)
  deriving DecidableEq, Repr

/-- A spare copy in its mirror window (R316): logical bank, spare. -/
structure SpareCopy where
  bank : Nat
  spare : Nat
  deriving DecidableEq, Repr

/-- A frame rescue (R322 to R325): retiring frame, rescue frame. -/
structure Rescue where
  frame : Nat
  rescue : Nat
  deriving DecidableEq, Repr

/-- A 32 B event record in the clerk's work queue (R328). -/
structure EventRec where
  stamp : Nat
  src : Nat
  seq : Nat
  type : Nat
  line : Nat
  unlocked : Bool
  ctx : Option (Nat × Nat)
  arg0 : DWord
  arg1 : DWord
  deriving DecidableEq, Repr

/-- Errors, spares and the clerk (Chapter 13); `scrubBack` holds, by physical bank, the row + 1 of a write-back;
`watch` and `clerkWatch` count the ns of PT in which the watchdogs and the clerk's own run (R366, Table 14.9);
`progress` holds, by site, the time a site last moved, `lockups` the sites that fired since (R332). -/
structure Ras where
  scrubRow : Table Nat
  scrubAt : Table Nat
  scrubBack : Table Nat
  ceWin : Table Nat
  ceStart : Nat
  ceLogged : List Nat
  copy : Option SpareCopy
  spareState : Nat
  spareArg : Nat
  rescue : Option Rescue
  rescueState : Nat
  rescueFrame : Nat
  clerkQ : List EventRec
  watch : Nat
  clerkWatch : Nat
  wdStart : Nat
  wdStage : Nat
  boot : Nat
  lockups : List Nat
  progress : Table Nat
  deriving DecidableEq, Repr

/-- The state of a power domain (R333): 0 DOWN, 1 ENTERING, 2 WAKING, 3 UP as PWR_STATEw codes it. -/
inductive DomState where
  | down | entering | waking | up
  deriving DecidableEq, Repr

/-- A power domain: state, end of its delay, end of its activity timer, a wake that came during entry. -/
structure Dom where
  state : DomState
  due : Nat
  timer : Nat
  expired : Bool
  wake : Option (Nat × Nat)
  deriving DecidableEq, Repr

/-- Power, reset, life cycle (Chapter 14, R359). -/
structure Pwr where
  doms : Table Dom
  nodeVotes : Table (BitVec 37)
  asserted : Bool
  releasedAt : Nat
  fresh : Bool
  last : Nat
  dieId : Nat
  clkMode : Nat
  bootSrc : Nat
  strapErr : Bool
  lcState : Nat
  tamper : Bool
  wiping : Bool
  wipeAt : Nat
  wipeBanks : List Nat
  wipes : Nat
  cap : Nat
  backupLost : Bool
  deriving DecidableEq, Repr

/-- A write held in the debug unit during a stop (R369). -/
abbrev Held := Nat × Word

/-- An in-transit entry of the cut (Table 15.1). -/
structure Transit where
  sent : Nat
  supplier : Nat
  index : Nat
  count : Nat
  kind : Nat
  link : Bool
  node : Nat
  path : Nat
  lane : Nat
  target : Nat
  data : Granule
  deriving DecidableEq, Repr

/-- A digest (R376): SUM, MIN and MAX as binary64 bits. -/
structure Digest where
  count : Nat
  sum : DWord
  min : DWord
  max : DWord
  nan : Nat
  inf : Nat
  hash : DWord
  fmt : Nat
  folders : List Nat
  deriving DecidableEq, Repr

/-- Stop, audit, trace, counters (Chapter 15). -/
structure Obs where
  tick : Option Nat
  holds : Bool
  line6 : Bool
  transit : List Transit
  held : List Held
  audit : Table DWord
  auditBusy : Bool
  auditEnd : Nat
  cut : Table DWord
  traceBuf : List TraceRec
  traceLost : Nat
  counters : Table Nat
  digests : Table Digest
  deriving DecidableEq, Repr

/-- ESCROW_STATUSk.STATE. -/
inductive SessState where
  | idle | opened | checking | pending | draining | done | refused
  deriving DecidableEq, Repr

/-- An escrow session (R401 to R409). -/
structure Session where
  state : SessState
  cause : Nat
  result : Nat
  badIndex : Nat
  writes : List (Nat × Word)
  owner : Nat
  timed : Bool
  time : Nat
  overflow : Bool
  abort : Bool
  deriving DecidableEq, Repr

/-- A write of an engine port whose data beats are due (R383); one that was answered with an error (`refused`) still
takes its beats, which go nowhere. -/
structure PWrite where
  q : PortReq
  order : Nat
  release : Bool
  atomic : Bool
  refused : Bool
  bytes : List WByte
  deriving DecidableEq, Repr

/-- A request in the issue queue of its engine port (R386): its operation (Table 16.3), its place in the order in which its
node's ports accepted requests (R232), the data of a write, the segments that have passed the issue point (R116). -/
structure PIssue where
  q : PortReq
  op : Nat
  order : Nat
  data : List WByte
  issued : Nat
  deriving DecidableEq, Repr

/-- An engine port (R383 to R386): tags not yet answered with their contexts, accepted writes that wait for beats, the
requests that wait in its issue queue, the order number of the last it accepted; the tag of the request that stands at its
handshake; the tc in which it last accepted one (R383); whether its queue was full at the start of the tc (R386); the waits
whose acquire its wake has yet to satisfy, with token, context and order number (R240, R262). -/
structure Port where
  tags : List (Nat × Nat)
  writes : List PWrite
  queue : List PIssue
  count : Nat
  stands : Option Nat
  took : Option Nat
  full : Bool
  acquires : List (Nat × Nat × Nat)
  deriving DecidableEq, Repr

/-- The arrays of the table store and the program store (Table 13.1), in the order in which the model numbers them as LOC of a
TABLE_UE record (DESIGN CHOICE, log 64). -/
inductive Tab where
  | context | domain | frame | bucket | flag | generation | slot | cheque | program
  deriving DecidableEq, Repr

/-- One access of the data of a request (R96): whether it goes to a host address, whether it writes, its address, its bytes. -/
structure Acc1 where
  host : Bool
  wr : Bool
  addr : Nat
  n : Nat
  deriving DecidableEq, Repr

/-- What the hardware did to registers and counters in the tc `tc` (R12): the bits it drove, by register offset, and the
events it counted, by register offset or counter key. A software write of that tc is applied below them. -/
structure Hw where
  tc : Nat
  driven : Table Nat
  counted : Table Nat
  deriving DecidableEq, Repr

/-- One TMS and the queue of the commands that wait. `waits` holds the requests that stand at the edge of a domain that
is not up, or behind the latched clamp group of their port, oldest first (R340, R369). `accesses` is the model's own: while the
segments of a request are found, it lists the accesses that the request makes; `taking` as well: while the front of a program
reads, it lists what the back will take. Both are none in every state between steps. `tableMark` holds the words of the table
store and the program store whose check bits show an error (R309), by Tab.key. -/
structure State where
  pending : List Instr
  waits : List (Nat × Option Nat × Instr)
  build : Build
  regs : Table Word
  hiLatch : Table Word
  hw : Hw
  accesses : Option (List Acc1)
  taking : Option (List Took)
  freeCtr : Nat
  pt : Pt
  clk : Clk
  evl : Evl
  ctxs : Table Ctx
  xl : Xlate
  bankMem : Memory
  bankMark : Table EccMark
  tableMark : Table EccMark
  stackMem : Memory
  extMem : Memory
  clerkMem : Memory
  mesh : Mesh
  regu : Regu
  work : Work
  sync : Sync
  float : Float
  slc : Slc
  edge : Edge
  ras : Ras
  pwr : Pwr
  obs : Obs
  sessions : Table Session
  ports : Table Port
  out : List Out
  deriving DecidableEq, Repr

/-- The build of State.reset (log 2): the full package of 16 compute dies and 6 I/O dies, two stacks, no far tier,
every strap low, die 0, whose E and S ports face present dies, every fuse 0 (R382). -/
def Build.reset : Build :=
  { dies := List.range 16, ioDies := 6, nStacks := 2, links := [1, 2], farKind := 0, dieId := 0, clkMode := 0,
    bootSrc := 0, fuseClamp := [] }

/-- A memory in which nothing is listed. -/
def Memory.empty : Memory := { cells := [], undef := [] }

/-- The time at which the release sequence of Table 14.8 ends, in nanoseconds after reset release. -/
def resetNow : Nat := 30000

/-- The machine at the end of the release sequence of R355 after a POWER_ON reset (log 1): every present domain up,
every table cleared, every register at its reset value, VAULT_CNT0 counting the reset (R358), no command waiting. -/
def State.reset : State :=
  { pending := [], waits := [], build := Build.reset, regs := [(0x9080, 1#32)], hiLatch := [],
    hw := { tc := 0, driven := [], counted := [] }, accesses := none, taking := none, freeCtr := 0,
    pt := { raw := 16 * resetNow, slew := 0, off := 0, phase := 0, missing := 0, probe := none },
    clk := { tc := 0, acc := 0, point := 0, throttle := 0, under := 0, step := none },
    evl := { seqs := [], stampTc := 0, stamped := [], waiting := [], lost := [] },
    ctxs := [],
    xl := { frames := [], buckets := [], tally := [], shoots := [], waitMaps := [], modeSwitch := [], nextKey := 0,
            walkTc := 0, walks := [] },
    bankMem := Memory.empty, bankMark := [], tableMark := [], stackMem := Memory.empty, extMem := Memory.empty,
    clerkMem := Memory.empty,
    mesh := { tellers := [], flights := [], backoff := [], hdrs := [], order := 0, rails := [], quarCount := [] },
    regu := { balance := [], odUsed := [], allow := [], odCap := [], charging := false, window := 0, holds := [],
              waiting := [], short := (0, 0), sampleSum := [], sampleCnt := [], boost := [],
              meter := [], counters := [] },
    work := { rings := [], pctxs := [], cwait := [], cirq := [], eirq := [], pstore := [], pstoreLow := [] },
    sync := { flags := [], waiters := [], order := 0, releases := [], nextKey := 0, bars := [], allWait := [],
              quietSince := [], stopFlags := [], wakes := [] },
    float := { slots := [], queues := [], pools := [], gens := [], tags := [] },
    slc := { lines := [], dirty := [], marks := [], draining := false },
    edge := { chans := [], repairs := [], farTable := [], links := [], badRows := [] },
    ras := { scrubRow := [], scrubAt := [], scrubBack := [], ceWin := [], ceStart := 0, ceLogged := [],
             copy := none, spareState := 0, spareArg := 0, rescue := none, rescueState := 0, rescueFrame := 0,
             clerkQ := [], watch := 0, clerkWatch := 0, wdStart := 0, wdStage := 0, boot := 0, lockups := [], progress := [] },
    pwr := { doms := [], nodeVotes := [], asserted := false, releasedAt := 0, fresh := true, last := 0, dieId := 0,
             clkMode := 0, bootSrc := 0, strapErr := false, lcState := 2, tamper := false, wiping := false,
             wipeAt := 0, wipeBanks := [], wipes := 0, cap := 0, backupLost := false },
    obs := { tick := none, holds := false, line6 := false, transit := [], held := [], audit := [],
             auditBusy := false, auditEnd := 0, cut := [], traceBuf := [], traceLost := 0, counters := [],
             digests := [] },
    sessions := [], ports := [], out := [] }

end Sys2Proof.Machine
end

