-- ==== Sys2Proof/Machine/Tables.lean ====
section
/-! DEFINITION. Tables and memories: the operations on sparse plain data that every later file uses. -/

namespace Sys2Proof.Machine

/-- The entry of a table at a key, `d` where none is listed. -/
def tget {α : Type} (d : α) : Table α → Nat → α
  | [], _ => d
  | (k', v) :: r, k => if k' = k then v else tget d r k

/-- The listed entry of a table at a key. -/
def tfind {α : Type} : Table α → Nat → Option α
  | [], _ => none
  | (k', v) :: r, k => if k' = k then some v else tfind r k

/-- A table without the entry of a key. -/
def terase {α : Type} : Table α → Nat → Table α
  | [], _ => []
  | (k', v) :: r, k => if k' = k then terase r k else (k', v) :: terase r k

/-- A table with an entry put at its place. -/
def tput {α : Type} : Table α → Nat → α → Table α
  | [], k, v => [(k, v)]
  | (k', v') :: r, k, v =>
    if k < k' then (k, v) :: (k', v') :: r
    else if k = k' then (k, v) :: r
    else (k', v') :: tput r k v

/-- A table with an entry set: an entry equal to the default of its key is not listed. -/
def tset {α : Type} [DecidableEq α] (d : α) (t : Table α) (k : Nat) (v : α) : Table α :=
  if v = d then terase t k else tput t k v

/-- The keys of a table are strictly rising. -/
def tsorted {α : Type} : Table α → Bool
  | [] => true
  | [_] => true
  | (k, _) :: (k', v') :: r => decide (k < k') && tsorted ((k', v') :: r)

/-- Element i of a list, or the default. -/
def nth {α : Type} (d : α) : List α → Nat → α
  | [], _ => d
  | x :: _, 0 => x
  | _ :: r, n + 1 => nth d r n

/-- A list with element i replaced. -/
def setNth {α : Type} : List α → Nat → α → List α
  | [], _, _ => []
  | _ :: r, 0, y => y :: r
  | x :: r, n + 1, y => x :: setNth r n y

/-- Adds a number to a list that has no repeats. -/
def addMem (n : Nat) (l : List Nat) : List Nat := if n ∈ l then l else l ++ [n]

/-- Removes a number from a list. -/
def delMem (n : Nat) (l : List Nat) : List Nat := l.filter (· != n)

/-- Applies `f` for i = 0 to n − 1 in order. -/
def upTo {σ : Type} (n : Nat) (f : Nat → σ → σ) (s : σ) : σ :=
  (List.range n).foldl (fun t i => f i t) s

/-! ## Words -/

/-- Bits lo + w − 1 to lo of a number. -/
def bits (x lo w : Nat) : Nat := x / 2 ^ lo % 2 ^ w

/-- Bit i of a number. -/
def bit (x i : Nat) : Bool := bits x i 1 == 1

/-- A number with bits lo + w − 1 to lo replaced. -/
def putBits (x lo w v : Nat) : Nat := x - bits x lo w * 2 ^ lo + (v % 2 ^ w) * 2 ^ lo

/-- 1 or 0. -/
def b2n (b : Bool) : Nat := if b then 1 else 0

/-- The signed value of the w low bits of a number. -/
def signed (x w : Nat) : Int := if bit x (w - 1) then (x % 2 ^ w : Nat) - (2 ^ w : Nat) else (x % 2 ^ w : Nat)

/-- The w-bit two's complement code of an integer. -/
def toCode (i : Int) (w : Nat) : Nat := (i % ((2 ^ w : Nat) : Int)).toNat

/-- The bytes of a number, least significant first (R7). -/
def toBytes (n x : Nat) : List Byte := (List.range n).map (fun i => BitVec.ofNat 8 (x / 2 ^ (8 * i)))

/-- The number that bytes give, least significant first (R7). -/
def ofBytes : List Byte → Nat
  | [] => 0
  | b :: r => b.toNat + 256 * ofBytes r

/-! ## Memory -/

/-- Ranges of undefined contents without the bytes lo to hi − 1. -/
def cutRange (l : List (Nat × Nat × Nat)) (lo hi : Nat) : List (Nat × Nat × Nat) :=
  l.flatMap (fun (a, b, e) =>
    (if a < min b lo then [(a, min b lo, e)] else []) ++ (if max a hi < b then [(max a hi, b, e)] else []))

/-- Puts a range at its place by its low bound. -/
def putRange : List (Nat × Nat × Nat) → Nat → Nat → Nat → List (Nat × Nat × Nat)
  | [], lo, hi, e => [(lo, hi, e)]
  | (a, b, f) :: r, lo, hi, e =>
    if lo < a then (lo, hi, e) :: (a, b, f) :: r else (a, b, f) :: putRange r lo hi e

/-- The epoch of the undefined range that holds an address. -/
def undefAt : List (Nat × Nat × Nat) → Nat → Option Nat
  | [], _ => none
  | (lo, hi, e) :: r, a => if lo ≤ a ∧ a < hi then some e else undefAt r a

/-- What an unlisted byte reads as: a free value where the manual calls the contents undefined, else 0 (log 3). -/
def unlisted (m : Memory) (a : Nat) : Byte :=
  match undefAt m.undef a with
  | some e => Config.freeByte e a
  | none => 0#8

/-- One byte of a memory. -/
def Memory.read (m : Memory) (a : Nat) : Byte := tget (unlisted m a) m.cells a

/-- A memory with one byte written. -/
def Memory.write (m : Memory) (a : Nat) (b : Byte) : Memory :=
  { cells := tset 0#8 m.cells a b, undef := cutRange m.undef a (a + 1) }

/-- A memory whose bytes lo to hi − 1 became undefined. -/
def Memory.markUndef (m : Memory) (lo hi e : Nat) : Memory :=
  if lo < hi then
    { cells := m.cells.filter (fun c => c.1 < lo || hi ≤ c.1), undef := putRange (cutRange m.undef lo hi) lo hi e }
  else m

/-- A memory whose bytes lo to hi − 1 are zero. -/
def Memory.clear (m : Memory) (lo hi : Nat) : Memory :=
  { cells := m.cells.filter (fun c => c.1 < lo || hi ≤ c.1), undef := cutRange m.undef lo hi }

/-- The canonical form of a memory: addresses rising, no listed byte is zero or lies in an undefined range. -/
def Memory.wf (m : Memory) : Bool :=
  tsorted m.cells && m.cells.all (fun c => c.2 != 0#8 && (undefAt m.undef c.1).isNone)

/-- n bytes of a memory. -/
def Memory.readN (m : Memory) (a : Nat) : Nat → List Byte
  | 0 => []
  | n + 1 => m.read a :: m.readN (a + 1) n

/-- A memory with bytes written one after another. -/
def Memory.writeN (m : Memory) (a : Nat) : List Byte → Memory
  | [] => m
  | b :: r => (m.write a b).writeN (a + 1) r

/-- A memory with the enabled bytes written. -/
def Memory.writeE (m : Memory) (a : Nat) : List WByte → Memory
  | [] => m
  | (b, e) :: r => (if e then m.write a b else m).writeE (a + 1) r

/-- A memory whose n bytes at `dst` are copied from n bytes at `lo` of a memory; undefined bytes stay undefined. -/
def Memory.copyFrom (m src : Memory) (lo n dst : Nat) : Memory :=
  let cells := src.cells.filter (fun c => decide (lo ≤ c.1) && decide (c.1 < lo + n))
  let ranges := src.undef.filterMap (fun r =>
    let a := max r.1 lo
    let b := min r.2.1 (lo + n)
    if a < b then some (a - lo + dst, b - lo + dst, r.2.2) else none)
  let t := ranges.foldl (fun t r => t.markUndef r.1 r.2.1 r.2.2) (m.clear dst (dst + n))
  cells.foldl (fun t c => t.write (c.1 - lo + dst) c.2) t

end Sys2Proof.Machine
end

