-- ==== Sys2Proof/Machine/Fields.lean ====
section
/-! DEFINITION. The fields of a descriptor (Tables 6.2 and 6.3). -/

namespace Sys2Proof.Machine

/-- 64-bit word i of a descriptor. -/
def dWord (d : Desc) (i : Nat) : Nat := (nth 0#64 d i).toNat
/-- OPCODE. -/
def dOp (d : Desc) : Nat := bits (dWord d 0) 0 8
/-- SCOPE. -/
def dScope (d : Desc) : Nat := bits (dWord d 0) 8 3
/-- CLASS. -/
def dClass (d : Desc) : Nat := bits (dWord d 0) 11 4
/-- CTX_V. -/
def dCtxV (d : Desc) : Bool := bit (dWord d 0) 15
/-- CTX. -/
def dCtx (d : Desc) : Nat := bits (dWord d 0) 16 16
/-- CRING. -/
def dCring (d : Desc) : Nat := bits (dWord d 0) 32 10
/-- QUIET. -/
def dQuiet (d : Desc) : Bool := bit (dWord d 0) 42
/-- IRQ. -/
def dIrq (d : Desc) : Bool := bit (dWord d 0) 43
/-- NOT_BEFORE. -/
def dNotBefore (d : Desc) : Nat := dWord d 1
/-- DEADLINE. -/
def dDeadline (d : Desc) : Nat := dWord d 2
/-- SRC. -/
def dSrc (d : Desc) : Nat := dWord d 3
/-- DST. -/
def dDst (d : Desc) : Nat := dWord d 4
/-- LENGTH. -/
def dLen (d : Desc) : Nat := bits (dWord d 5) 0 32
/-- AUX0. -/
def dAux0 (d : Desc) : Nat := bits (dWord d 5) 32 32
/-- WFLAG. -/
def dWflag (d : Desc) : Nat := bits (dWord d 6) 0 14
/-- WFLAG_CLR. -/
def dWclr (d : Desc) : Bool := bit (dWord d 6) 14
/-- WFLAG_V. -/
def dWv (d : Desc) : Bool := bit (dWord d 6) 15
/-- SFLAG. -/
def dSflag (d : Desc) : Nat := bits (dWord d 6) 16 14
/-- SFLAG_V. -/
def dSv (d : Desc) : Bool := bit (dWord d 6) 31
/-- AUX1. -/
def dAux1 (d : Desc) : Nat := bits (dWord d 6) 32 32
/-- AUX2. -/
def dAux2 (d : Desc) : Nat := dWord d 7

/-- The context and class of a command's records. -/
def dTag (d : Desc) : Option (Nat × Nat) := if dCtxV d then some (dCtx d, dClass d) else none

end Sys2Proof.Machine
end

