-- ==== Sys2Proof/Machine/Arith.lean ====
section
/-! DEFINITION. Number formats with exact arithmetic: the alias adds of R62 and the elements of Table 9.2. -/

namespace Sys2Proof.Machine

/-- What the top codes of a format mean: infinity and NaN as in IEEE 754, one NaN code (E4M3), or finite values. -/
inductive Top where
  | ieee | oneNan | finite
  deriving DecidableEq, Repr

/-- A binary format: exponent and mantissa bits, bias, top codes. -/
structure FFmt where
  e : Nat
  m : Nat
  bias : Nat
  top : Top
  deriving DecidableEq, Repr

/-- binary64 (R376). -/
def f64 : FFmt := ⟨11, 52, 1023, .ieee⟩
/-- binary32. -/
def f32 : FFmt := ⟨8, 23, 127, .ieee⟩
/-- binary16. -/
def f16 : FFmt := ⟨5, 10, 15, .ieee⟩
/-- bfloat16. -/
def bf16 : FFmt := ⟨8, 7, 127, .ieee⟩
/-- OCP FP8 E4M3. -/
def e4m3 : FFmt := ⟨4, 3, 7, .oneNan⟩
/-- OCP FP8 E5M2. -/
def e5m2 : FFmt := ⟨5, 2, 15, .ieee⟩
/-- FP6 E2M3. -/
def e2m3 : FFmt := ⟨2, 3, 1, .finite⟩
/-- FP6 E3M2. -/
def e3m2 : FFmt := ⟨3, 2, 3, .finite⟩
/-- FP4 E2M1. -/
def e2m1 : FFmt := ⟨2, 1, 1, .finite⟩

/-- An exact value: ± m × 2^e, an infinity or a NaN (R211). -/
inductive FV where
  | nan
  | inf (neg : Bool)
  | fin (neg : Bool) (m : Nat) (e : Int)
  deriving DecidableEq, Repr

/-- The width of a format. -/
def FFmt.width (f : FFmt) : Nat := 1 + f.e + f.m

/-- The exponent of the least bit of a subnormal. -/
def FFmt.qmin (f : FFmt) : Int := 1 - (f.bias : Int) - (f.m : Int)

/-- The code, without sign, of the largest finite value. -/
def FFmt.maxCode (f : FFmt) : Nat :=
  match f.top with
  | .ieee => (2 ^ f.e - 1) * 2 ^ f.m - 1
  | .oneNan => 2 ^ (f.e + f.m) - 2
  | .finite => 2 ^ (f.e + f.m) - 1

/-- The code of infinity, without sign, in a format that has one. -/
def FFmt.infCode (f : FFmt) : Nat := (2 ^ f.e - 1) * 2 ^ f.m

/-- The canonical quiet NaN (R62, R211). -/
def FFmt.nanCode (f : FFmt) : Nat :=
  match f.top with
  | .ieee => f.infCode + 2 ^ (f.m - 1)
  | .oneNan => 2 ^ (f.e + f.m) - 1
  | .finite => 0

/-- The exact value of a code. -/
def decodeF (f : FFmt) (c : Nat) : FV :=
  let neg := bit c (f.e + f.m)
  let x := bits c f.m f.e
  let k := bits c 0 f.m
  if f.top = .ieee ∧ x = 2 ^ f.e - 1 then (if k = 0 then .inf neg else .nan)
  else if f.top = .oneNan ∧ x = 2 ^ f.e - 1 ∧ k = 2 ^ f.m - 1 then .nan
  else if x = 0 then .fin neg k f.qmin
  else .fin neg (k + 2 ^ f.m) (f.qmin + ((x : Int) - 1))

/-- How a value between two codes is rounded (Table 9.4); the stochastic draw is given. -/
inductive Rnd where
  | nearest
  | zero
  | stoch (u : Nat)
  deriving DecidableEq, Repr

/-- m × 2^−r as an integer, rounded. -/
def roundShift (mode : Rnd) (m r : Nat) : Nat :=
  let k := m / 2 ^ r
  let rem := m % 2 ^ r
  match mode with
  | .zero => k
  | .nearest =>
    if 2 ^ r < 2 * rem ∨ (2 * rem = 2 ^ r ∧ k % 2 = 1 ∧ rem ≠ 0) then k + 1 else k
  | .stoch u => if u < rem * 65536 / 2 ^ r then k + 1 else k

/-- The code of ± m × 2^e in a format, without its overflow rule, and whether the value was exact. The code of a
value too large is above maxCode. -/
def roundCode (f : FFmt) (mode : Rnd) (m : Nat) (e : Int) : Nat × Bool :=
  if m = 0 then (0, true)
  else
    let q : Int := max (e + (Nat.log2 m : Int) - (f.m : Int)) f.qmin
    if q ≤ e then ((q - f.qmin).toNat * 2 ^ f.m + m * 2 ^ (e - q).toNat, true)
    else
      let r := (q - e).toNat
      ((q - f.qmin).toNat * 2 ^ f.m + roundShift mode m r, m % 2 ^ r == 0)

/-- The sign bit of a format. -/
def signCode (f : FFmt) (neg : Bool) : Nat := b2n neg * 2 ^ (f.e + f.m)

/-- The code of a value in a format whose overflow gives infinity, rounded to nearest even (R62). -/
def encodeIeee (f : FFmt) (v : FV) : Nat :=
  match v with
  | .nan => f.nanCode
  | .inf neg => signCode f neg + f.infCode
  | .fin neg m e =>
    let c := (roundCode f .nearest m e).1
    signCode f neg + (if f.maxCode < c then f.infCode else c)

/-- A signed mantissa as a value; a zero takes the given sign. -/
def ofInt (z : Bool) (i : Int) (e : Int) : FV := if i = 0 then .fin z 0 e else .fin (i < 0) i.natAbs e

/-- The exact sum (R62): an exact zero is +0 unless both operands are −0. -/
def addFV : FV → FV → FV
  | .nan, _ => .nan
  | _, .nan => .nan
  | .inf a, .inf b => if a = b then .inf a else .nan
  | .inf a, _ => .inf a
  | _, .inf b => .inf b
  | .fin na ma ea, .fin nb mb eb =>
    let e := min ea eb
    let ia : Int := (ma * 2 ^ (ea - e).toNat : Nat)
    let ib : Int := (mb * 2 ^ (eb - e).toNat : Nat)
    ofInt (na && nb) ((if na then -ia else ia) + (if nb then -ib else ib)) e

/-- The sum of two codes of an IEEE format (R62). -/
def addCode (f : FFmt) (a b : Nat) : Nat := encodeIeee f (addFV (decodeF f a) (decodeF f b))

/-- Whether a < b for finite values. -/
def ltFV : FV → FV → Bool
  | .fin na ma ea, .fin nb mb eb =>
    let e := min ea eb
    let ia : Int := (ma * 2 ^ (ea - e).toNat : Nat)
    let ib : Int := (mb * 2 ^ (eb - e).toNat : Nat)
    (if na then -ia else ia) < (if nb then -ib else ib)
  | _, _ => false

/-! ## Alias operations (Table 3.3) -/

/-- The lane width in bytes of an alias space code. -/
def laneBytes (space : Nat) : Nat := nth 1 [1, 1, 1, 4, 2, 4, 8] space

/-- The new value of an enabled lane: old and data as numbers of the lane's width (Table 3.3). -/
def laneOp (space old data : Nat) : Nat :=
  if space = 1 then old ||| data
  else if space = 2 then old &&& (255 - data % 256)
  else if space = 3 then addCode f32 old data
  else if space = 4 then addCode bf16 old data
  else if space = 5 then (old + data) % 2 ^ 32
  else if space = 6 then (old + data) % 2 ^ 64
  else data

/-- The number that w bytes of a list give from position i. -/
def laneAt (l : List Byte) (i w : Nat) : Nat := ofBytes ((l.drop i).take w)

/-- How many bytes of a lane are enabled. -/
def laneEn (l : List WByte) (i w : Nat) : Nat := (((l.drop i).take w).filter (·.2)).length

/-- Whether a write's lanes are each wholly enabled or wholly not (R61). -/
def lanesWhole (space : Nat) (l : List WByte) : Bool :=
  let w := laneBytes space
  (List.range ((l.length + w - 1) / w)).all (fun i => laneEn l (i * w) w == 0 || laneEn l (i * w) w == w)

/-- The bytes an alias write stores: each enabled lane combined with what the memory holds (R61). -/
def aliasBytes (space : Nat) (old : List Byte) (l : List WByte) : List WByte :=
  let w := laneBytes space
  (List.range (l.length / w)).flatMap (fun i =>
    let en := laneEn l (i * w) w == w
    (toBytes w (laneOp space (laneAt old (i * w) w) (laneAt (l.map (·.1)) (i * w) w))).map (fun b => (b, en)))

end Sys2Proof.Machine
end

