-- ==== Sys2Proof/Machine/RegMap.lean ====
section
/-! DEFINITION. The register map: the offset of every register of Table 17.2, the access codes of its fields
(Table 0.3) and its reset value, as the tables that define the registers give them. A register whose value the
machine computes (Machine/RegView.lean) has reset 0 here. -/

namespace Sys2Proof.Machine

/-- A register or an array of registers: offsets base + i × stride for i < count, the field masks by access code
(Table 0.3; every other defined bit is RO or reserved). -/
structure RegRow where
  base : Nat
  stride : Nat
  count : Nat
  rw : Nat
  w1c : Nat
  w1s : Nat
  wo : Nat
  bt : Nat
  es : Nat
  deriving DecidableEq, Repr

namespace Reg

/-- TMS_IDCODE (R397). -/
abbrev tmsIdcode : Nat := 0x0
/-- TMS_REV (R397). -/
abbrev tmsRev : Nat := 0x4
/-- CAP_BUILD (R399). -/
abbrev capBuild : Nat := 0x10
/-- CAP_DIEMASK (R399). -/
abbrev capDiemask : Nat := 0x14
/-- CAP_FRAMES (R399). -/
abbrev capFrames : Nat := 0x18
/-- CAP_FAR_GIB (R399). -/
abbrev capFarGib : Nat := 0x1c
/-- IRQ_RAW (R400). -/
abbrev irqRaw : Nat := 0x40
/-- IRQ_EN (R400). -/
abbrev irqEn : Nat := 0x44
/-- IRQ_TEST (R400). -/
abbrev irqTest : Nat := 0x48
/-- IRQ_STATUS (R400). -/
abbrev irqStatus : Nat := 0x4c
/-- IRQ_CRING_PEND (R400). -/
abbrev irqCringPend (i : Nat) : Nat := 0x80 + 4 * i
/-- IRQ_CMDR_ERR (R400). -/
abbrev irqCmdrErr (i : Nat) : Nat := 0x100 + 4 * i
/-- IRQ_CRING_ERR (R400). -/
abbrev irqCringErr (i : Nat) : Nat := 0x180 + 4 * i
/-- IRQ_EVR (R400). -/
abbrev irqEvr : Nat := 0x200
/-- PT_STATUS (R28). -/
abbrev ptStatus : Nat := 0x1000
/-- PT_NOW_LO (R56). -/
abbrev ptNowLo : Nat := 0x1004
/-- PT_NOW_HI (R56). -/
abbrev ptNowHi : Nat := 0x1008
/-- PT_DIE_OFFSET (R52). -/
abbrev ptDieOffset : Nat := 0x100c
/-- PT_EPOCH_OFFSET_LO (R55). -/
abbrev ptEpochOffsetLo : Nat := 0x1010
/-- PT_EPOCH_OFFSET_HI (R55). -/
abbrev ptEpochOffsetHi : Nat := 0x1014
/-- PT_PROBE_THETA (R53). -/
abbrev ptProbeTheta : Nat := 0x1018
/-- PT_PROBE_DELAY (R53). -/
abbrev ptProbeDelay : Nat := 0x101c
/-- PT_PROBE_CTL (R398). -/
abbrev ptProbeCtl : Nat := 0x1020
/-- EVL_CTL (R45). -/
abbrev evlCtl : Nat := 0x1040
/-- EVL_STATUS (R45). -/
abbrev evlStatus : Nat := 0x1044
/-- EVL_BASE_LO (R45). -/
abbrev evlBaseLo : Nat := 0x1048
/-- EVL_BASE_HI (R45). -/
abbrev evlBaseHi : Nat := 0x104c
/-- EVL_SIZE (R45). -/
abbrev evlSize : Nat := 0x1050
/-- EVL_HEAD (R47). -/
abbrev evlHead : Nat := 0x1054
/-- EVL_TAIL (R46). -/
abbrev evlTail : Nat := 0x1058
/-- EVL_LOST (R48). -/
abbrev evlLost : Nat := 0x105c
/-- EVL_RANGE (R51). -/
abbrev evlRange (i : Nat) : Nat := 0x1080 + 4 * i
/-- PROT_SEAL (R68). -/
abbrev protSeal : Nat := 0x2000
/-- PROT_STATUS (R68). -/
abbrev protStatus : Nat := 0x2004
/-- DOM_CTL (R67). -/
abbrev domCtl (i : Nat) : Nat := 0x2100 + 4 * i
/-- SEALED_BANK (R70). -/
abbrev sealedBank (i : Nat) : Nat := 0x2200 + 4 * i
/-- LEDGER_STATUS (R81). -/
abbrev ledgerStatus : Nat := 0x2240
/-- LEDGER_FREE (R75). -/
abbrev ledgerFree : Nat := 0x2244
/-- LEDGER_MAXCHAIN (R77). -/
abbrev ledgerMaxchain : Nat := 0x2248
/-- FGRP_MODE (R71). -/
abbrev fgrpMode (i : Nat) : Nat := 0x2300 + 4 * i
/-- TELLER_CFG (R99). -/
abbrev tellerCfg : Nat := 0x3000
/-- TELLER_STARVE_NS (R101). -/
abbrev tellerStarveNs : Nat := 0x3004
/-- TELLER_STARVE_LAST (R101). -/
abbrev tellerStarveLast : Nat := 0x3008
/-- TELLER_STARVE_FLAG (R101). -/
abbrev tellerStarveFlag (i : Nat) : Nat := 0x3020 + 4 * i
/-- MESH_CFG (R108). -/
abbrev meshCfg : Nat := 0x3040
/-- MESH_CUTOFF_LAST (R109). -/
abbrev meshCutoffLast : Nat := 0x3044
/-- MESH_QUAR (R110). -/
abbrev meshQuar (i : Nat) : Nat := 0x3060 + 4 * i
/-- MESH_PARK (R106). -/
abbrev meshPark (i : Nat) : Nat := 0x3080 + 4 * i
/-- REGU_CTL (R115). -/
abbrev reguCtl : Nat := 0x4000
/-- REGU_HOLD (R117). -/
abbrev reguHold : Nat := 0x4004
/-- REGU_SYSCLASS (R112). -/
abbrev reguSysclass : Nat := 0x4008
/-- REGU_STATUS (R126). -/
abbrev reguStatus : Nat := 0x400c
/-- REGU_INT_EN (R126). -/
abbrev reguIntEn : Nat := 0x4010
/-- REGU_BOOST (R121). -/
abbrev reguBoost : Nat := 0x4014
/-- REGU_SHORTFALL (R125). -/
abbrev reguShortfall : Nat := 0x4018
/-- REGU_SCALE_COUNT (R125). -/
abbrev reguScaleCount : Nat := 0x401c
/-- REGU_CNT_CLR (R127). -/
abbrev reguCntClr : Nat := 0x4020
/-- CLASS_CFG (R120). -/
abbrev classCfg (i : Nat) : Nat := 0x4040 + 4 * i
/-- CLASS_RSV (R123). -/
abbrev classRsv (i : Nat) : Nat := 0x4080 + 4 * i
/-- CLASS_RSV_EFF (R125). -/
abbrev classRsvEff (i : Nat) : Nat := 0x40c0 + 4 * i
/-- CLASS_CNT (R127). -/
abbrev classCnt (i : Nat) : Nat := 0x4400 + 4 * i
/-- STRM_CFG (R174). -/
abbrev strmCfg : Nat := 0x5000
/-- STRM_FAULT (R181). -/
abbrev strmFault (i : Nat) : Nat := 0x5100 + 4 * i
/-- STRM_FAULTP (R181). -/
abbrev strmFaultp (i : Nat) : Nat := 0x5180 + 4 * i
/-- MINT_ERR (R227). -/
abbrev mintErr (i : Nat) : Nat := 0x5200 + 4 * i
/-- MINT_SAT (R212). -/
abbrev mintSat (i : Nat) : Nat := 0x5280 + 4 * i
/-- MINT_NAN (R211). -/
abbrev mintNan (i : Nat) : Nat := 0x5300 + 4 * i
/-- FLOAT_CAP (R202). -/
abbrev floatCap : Nat := 0x6000
/-- FLOAT_INUSE_STACK (R200). -/
abbrev floatInuseStack : Nat := 0x6004
/-- FLOAT_INUSE_FAR (R200). -/
abbrev floatInuseFar : Nat := 0x6008
/-- FLOAT_INUSE_LINK (R200). -/
abbrev floatInuseLink (i : Nat) : Nat := 0x6010 + 4 * i
/-- FLOAT_PEAK_STACK (R200). -/
abbrev floatPeakStack : Nat := 0x6020
/-- FLOAT_PEAK_FAR (R200). -/
abbrev floatPeakFar : Nat := 0x6024
/-- FLOAT_PEAK_LINK (R200). -/
abbrev floatPeakLink (i : Nat) : Nat := 0x6030 + 4 * i
/-- FLOAT_WAITS (R200). -/
abbrev floatWaits : Nat := 0x6040
/-- SYNC_LEND_CFG (R265). -/
abbrev syncLendCfg : Nat := 0x6100
/-- SYNC_LEND_STATUS (R265). -/
abbrev syncLendStatus : Nat := 0x6104
/-- FLAG_POOL_WAIT (R262). -/
abbrev flagPoolWait : Nat := 0x6108
/-- FLAG_POOL_INUSE (R262). -/
abbrev flagPoolInuse : Nat := 0x610c
/-- FLAG_POOL_PEAK (R262). -/
abbrev flagPoolPeak : Nat := 0x6110
/-- BAR_CTL (R277). -/
abbrev barCtl : Nat := 0x6114
/-- SYNC_ERR_STATUS (R273). -/
abbrev syncErrStatus : Nat := 0x6118
/-- SYNC_ERR_LAST (R273). -/
abbrev syncErrLast : Nat := 0x611c
/-- BAR_CFG (R269). -/
abbrev barCfg (i : Nat) : Nat := 0x6200 + 4 * i
/-- BAR_STATUS (R272). -/
abbrev barStatus (i : Nat) : Nat := 0x6280 + 4 * i
/-- BAR_ROUND (R272). -/
abbrev barRound (i : Nat) : Nat := 0x6300 + 4 * i
/-- BAR_RELEASE (R272). -/
abbrev barRelease (i : Nat) : Nat := 0x6400 + 4 * i
/-- GW_CFG (R280). -/
abbrev gwCfg (i : Nat) : Nat := 0x7000 + 64 * i
/-- GW_REPAIR (R289). -/
abbrev gwRepair (i : Nat) : Nat := 0x7018 + 64 * i
/-- GW_SPARE (R291). -/
abbrev gwSpare (i : Nat) : Nat := 0x701c + 64 * i
/-- GW_LATE (R288). -/
abbrev gwLate (i : Nat) : Nat := 0x7020 + 64 * i
/-- GW_RETRAINS (R287). -/
abbrev gwRetrains (i : Nat) : Nat := 0x7024 + 64 * i
/-- GW_ROWREP (R282). -/
abbrev gwRowrep (i : Nat) : Nat := 0x7028 + 64 * i
/-- GW_BOOT (R326). -/
abbrev gwBoot (i : Nat) : Nat := 0x702c + 64 * i
/-- GW_BOOT_WD (R326). -/
abbrev gwBootWd (i : Nat) : Nat := 0x7030 + 64 * i
/-- GW_WITHDRAWN_LO (R294). -/
abbrev gwWithdrawnLo : Nat := 0x7080
/-- GW_WITHDRAWN_HI (R294). -/
abbrev gwWithdrawnHi : Nat := 0x7084
/-- GW_NOTICE_SEL (R285). -/
abbrev gwNoticeSel : Nat := 0x7088
/-- GW_NOTICE_E_LO (R285). -/
abbrev gwNoticeELo : Nat := 0x708c
/-- GW_NOTICE_E_HI (R285). -/
abbrev gwNoticeEHi : Nat := 0x7090
/-- GW_NOTICE_B_LO (R285). -/
abbrev gwNoticeBLo : Nat := 0x7094
/-- GW_NOTICE_B_HI (R285). -/
abbrev gwNoticeBHi : Nat := 0x7098
/-- GW_RETRAIN_TO (R288). -/
abbrev gwRetrainTo : Nat := 0x709c
/-- GW_RETRAIN_AT (R286). -/
abbrev gwRetrainAt (i : Nat) : Nat := 0x7100 + 4 * i
/-- FAR_MAP_BASE (R295). -/
abbrev farMapBase (i : Nat) : Nat := 0x7300 + 8 * i
/-- FAR_MAP_LIMIT (R295). -/
abbrev farMapLimit (i : Nat) : Nat := 0x7304 + 8 * i
/-- IO_ATTACH (R300). -/
abbrev ioAttach (i : Nat) : Nat := 0x7340 + 4 * i
/-- HOST_ROUTE (R299). -/
abbrev hostRoute : Nat := 0x7358
/-- LINK_CFG (R305). -/
abbrev linkCfg : Nat := 0x7360
/-- LINK_STATUS (R300). -/
abbrev linkStatus (i : Nat) : Nat := 0x7370 + 4 * i
/-- LINK_REPLAY (R305). -/
abbrev linkReplay (i : Nat) : Nat := 0x7380 + 4 * i
/-- RAS_CFG (R313). -/
abbrev rasCfg : Nat := 0x8000
/-- BANK_STATUS (R314). -/
abbrev bankStatus : Nat := 0x8004
/-- BANK_SPARE (R315). -/
abbrev bankSpare : Nat := 0x8008
/-- BANK_SPARE_STATUS (R315). -/
abbrev bankSpareStatus : Nat := 0x800c
/-- BANK_SPARE_OK (R314). -/
abbrev bankSpareOk : Nat := 0x8010
/-- TABLE_ERRCNT (R309). -/
abbrev tableErrcnt : Nat := 0x8014
/-- SCRUB_SKIP (R313). -/
abbrev scrubSkip : Nat := 0x8018
/-- RAS_CAUSE (R312). -/
abbrev rasCause : Nat := 0x801c
/-- BANK_WITHDRAWN (R318). -/
abbrev bankWithdrawn (i : Nat) : Nat := 0x8020 + 4 * i
/-- RAS_RESCUE (R322). -/
abbrev rasRescue (i : Nat) : Nat := 0x8040 + 4 * i
/-- FRAME_RESCUE (R322). -/
abbrev frameRescue : Nat := 0x8060
/-- FRAME_RESCUE_STATUS (R322). -/
abbrev frameRescueStatus : Nat := 0x8064
/-- FRAME_SET (R326). -/
abbrev frameSet : Nat := 0x8068
/-- CLERK_CTL (R329). -/
abbrev clerkCtl : Nat := 0x8080
/-- CLERK_STATUS (R328). -/
abbrev clerkStatus : Nat := 0x8084
/-- CLERK_QLEVEL (R328). -/
abbrev clerkQlevel : Nat := 0x8088
/-- CLERK_MISSED (R328). -/
abbrev clerkMissed (i : Nat) : Nat := 0x8090 + 4 * i
/-- CLERK_ALERT_CODE (R328). -/
abbrev clerkAlertCode : Nat := 0x80a0
/-- CLERK_ALERT_DATA (R328). -/
abbrev clerkAlertData : Nat := 0x80a4
/-- CLERK_WD_NS (R330). -/
abbrev clerkWdNs : Nat := 0x80a8
/-- CLERK_WD_KICK (R330). -/
abbrev clerkWdKick : Nat := 0x80ac
/-- CMD_WD_NS (R331). -/
abbrev cmdWdNs : Nat := 0x80b0
/-- CMD_WD_CTL (R331). -/
abbrev cmdWdCtl : Nat := 0x80b4
/-- LOCKUP_CFG (R332). -/
abbrev lockupCfg : Nat := 0x80b8
/-- CLERK_BOOT (R412). -/
abbrev clerkBoot : Nat := 0x80bc
/-- BANK_MAP (R314). -/
abbrev bankMap (i : Nat) : Nat := 0x8400 + 4 * i
/-- BANK_ERRCNT (R313). -/
abbrev bankErrcnt (i : Nat) : Nat := 0x8800 + 4 * i
/-- PWR_VOTE_HOST_LO (R336). -/
abbrev pwrVoteHostLo : Nat := 0x9000
/-- PWR_VOTE_HOST_HI (R336). -/
abbrev pwrVoteHostHi : Nat := 0x9004
/-- PWR_VOTE_CLERK_LO (R337). -/
abbrev pwrVoteClerkLo : Nat := 0x9008
/-- PWR_VOTE_CLERK_HI (R337). -/
abbrev pwrVoteClerkHi : Nat := 0x900c
/-- PWR_LINKVOTE_LO (R336). -/
abbrev pwrLinkvoteLo (i : Nat) : Nat := 0x9010 + 8 * i
/-- PWR_LINKVOTE_HI (R336). -/
abbrev pwrLinkvoteHi (i : Nat) : Nat := 0x9014 + 8 * i
/-- PWR_HELD_LO (R336). -/
abbrev pwrHeldLo : Nat := 0x9030
/-- PWR_HELD_HI (R336). -/
abbrev pwrHeldHi : Nat := 0x9034
/-- PWR_STATE (R333). -/
abbrev pwrState (i : Nat) : Nat := 0x9038 + 4 * i
/-- PWR_CFG (R338). -/
abbrev pwrCfg : Nat := 0x9044
/-- PWR_DVFS (R348). -/
abbrev pwrDvfs : Nat := 0x9048
/-- PWR_GOV (R350). -/
abbrev pwrGov : Nat := 0x904c
/-- PWR_STATUS (R342). -/
abbrev pwrStatus : Nat := 0x9050
/-- PWR_CAUSE (R345). -/
abbrev pwrCause : Nat := 0x9054
/-- PWR_INT_EN (R345). -/
abbrev pwrIntEn : Nat := 0x9058
/-- PWR_CLAMP_LO (R347). -/
abbrev pwrClampLo : Nat := 0x9060
/-- PWR_CLAMP_HI (R347). -/
abbrev pwrClampHi : Nat := 0x9064
/-- PWR_CLAMP_AUTO_LO (R347). -/
abbrev pwrClampAutoLo : Nat := 0x9068
/-- PWR_CLAMP_AUTO_HI (R347). -/
abbrev pwrClampAutoHi : Nat := 0x906c
/-- RST_CTL (R351). -/
abbrev rstCtl : Nat := 0x9070
/-- RST_STATUS (R354). -/
abbrev rstStatus : Nat := 0x9074
/-- VAULT_LAST (R358). -/
abbrev vaultLast : Nat := 0x9078
/-- VAULT_STATUS (R358). -/
abbrev vaultStatus : Nat := 0x907c
/-- VAULT_CNT (R358). -/
abbrev vaultCnt (i : Nat) : Nat := 0x9080 + 4 * i
/-- PWR_WAKESRC (R345). -/
abbrev pwrWakesrc (i : Nat) : Nat := 0x9100 + 4 * i
/-- FUSE_CLAMP (R357). -/
abbrev fuseClamp (i : Nat) : Nat := 0x9200 + 4 * i
/-- PWR_BANK (R342). -/
abbrev pwrBank (i : Nat) : Nat := 0x9400 + 4 * i
/-- STOP_CTL (R361). -/
abbrev stopCtl : Nat := 0xa000
/-- STOP_STATUS (R361). -/
abbrev stopStatus : Nat := 0xa004
/-- STOP_AT_LO (R361). -/
abbrev stopAtLo : Nat := 0xa008
/-- STOP_AT_HI (R361). -/
abbrev stopAtHi : Nat := 0xa00c
/-- STOP_TICK_LO (R361). -/
abbrev stopTickLo : Nat := 0xa010
/-- STOP_TICK_HI (R361). -/
abbrev stopTickHi : Nat := 0xa014
/-- STOP_TRANSIT_COUNT (R364). -/
abbrev stopTransitCount : Nat := 0xa018
/-- STOP_PENDING (R365). -/
abbrev stopPending (i : Nat) : Nat := 0xa020 + 4 * i
/-- AUDIT_CTL (R372). -/
abbrev auditCtl : Nat := 0xa040
/-- AUDIT_STATUS (R372). -/
abbrev auditStatus : Nat := 0xa044
/-- AUDIT_MISSED (R372). -/
abbrev auditMissed : Nat := 0xa048
/-- TRACE_CTL (R373). -/
abbrev traceCtl : Nat := 0xa050
/-- TRACE_DROPS (R374). -/
abbrev traceDrops : Nat := 0xa054
/-- CNT_CTL (R379). -/
abbrev cntCtl : Nat := 0xa058
/-- LC_STATUS (R359). -/
abbrev lcStatus : Nat := 0xa060
/-- LC_WIPE_LO (R359). -/
abbrev lcWipeLo : Nat := 0xa064
/-- LC_WIPE_HI (R359). -/
abbrev lcWipeHi : Nat := 0xa068
/-- THERM_T (R380). -/
abbrev thermT (i : Nat) : Nat := 0xa080 + 4 * i
/-- PWR_EST_DIE (R381). -/
abbrev pwrEstDie : Nat := 0xa0c0
/-- PWR_EST_STAMP_LO (R381). -/
abbrev pwrEstStampLo : Nat := 0xa0c4
/-- PWR_EST_STAMP_HI (R381). -/
abbrev pwrEstStampHi : Nat := 0xa0c8
/-- PWR_EST (R381). -/
abbrev pwrEst (i : Nat) : Nat := 0xa100 + 4 * i
/-- SLC_SEL (R411). -/
abbrev slcSel (i : Nat) : Nat := 0xc000 + 4 * i
/-- SLC_STATUS (R411). -/
abbrev slcStatus : Nat := 0xc020
/-- ESCROW_BEGIN (R401). -/
abbrev escrowBegin : Nat := 0xd000
/-- ESCROW_COMMIT (R404). -/
abbrev escrowCommit : Nat := 0xd004
/-- ESCROW_ABORT (R407). -/
abbrev escrowAbort : Nat := 0xd008
/-- ESCROW_ERR (R401). -/
abbrev escrowErr : Nat := 0xd00c
/-- ESCROW_STATUS (R404). -/
abbrev escrowStatus (i : Nat) : Nat := 0xd040 + 32 * i
/-- ESCROW_INFO (R401). -/
abbrev escrowInfo (i : Nat) : Nat := 0xd044 + 32 * i
/-- ESCROW_STAGE_ADDR (R402). -/
abbrev escrowStageAddr (i : Nat) : Nat := 0xd048 + 32 * i
/-- ESCROW_STAGE_DATA (R402). -/
abbrev escrowStageData (i : Nat) : Nat := 0xd04c + 32 * i
/-- ESCROW_AT_LO (R404). -/
abbrev escrowAtLo (i : Nat) : Nat := 0xd050 + 32 * i
/-- ESCROW_AT_HI (R404). -/
abbrev escrowAtHi (i : Nat) : Nat := 0xd054 + 32 * i
/-- ESCROW_DONE_LO (R404). -/
abbrev escrowDoneLo (i : Nat) : Nat := 0xd058 + 32 * i
/-- ESCROW_DONE_HI (R404). -/
abbrev escrowDoneHi (i : Nat) : Nat := 0xd05c + 32 * i
/-- CNT_SEL (R379). -/
abbrev cntSel (i : Nat) : Nat := 0x10000 + 4 * i
/-- CNT_VAL (R379). -/
abbrev cntVal (i : Nat) : Nat := 0x11000 + 4 * i
/-- CMDR_BASE_LO (R128). -/
abbrev cmdrBaseLo (i : Nat) : Nat := 0x20000 + 32 * i
/-- CMDR_BASE_HI (R128). -/
abbrev cmdrBaseHi (i : Nat) : Nat := 0x20004 + 32 * i
/-- CMDR_CFG (R131). -/
abbrev cmdrCfg (i : Nat) : Nat := 0x20008 + 32 * i
/-- CMDR_CTL (R145). -/
abbrev cmdrCtl (i : Nat) : Nat := 0x2000c + 32 * i
/-- CMDR_STATUS (R133). -/
abbrev cmdrStatus (i : Nat) : Nat := 0x20010 + 32 * i
/-- CMDR_HEAD (R135). -/
abbrev cmdrHead (i : Nat) : Nat := 0x20014 + 32 * i
/-- CMDR_TAIL (R133). -/
abbrev cmdrTail (i : Nat) : Nat := 0x20018 + 32 * i
/-- CMDR_DONE (R145). -/
abbrev cmdrDone (i : Nat) : Nat := 0x2001c + 32 * i
/-- CRING_BASE_LO (R128). -/
abbrev cringBaseLo (i : Nat) : Nat := 0x28000 + 32 * i
/-- CRING_BASE_HI (R128). -/
abbrev cringBaseHi (i : Nat) : Nat := 0x28004 + 32 * i
/-- CRING_CFG (R128). -/
abbrev cringCfg (i : Nat) : Nat := 0x28008 + 32 * i
/-- CRING_IRQ_NS (R154). -/
abbrev cringIrqNs (i : Nat) : Nat := 0x2800c + 32 * i
/-- CRING_HEAD (R148). -/
abbrev cringHead (i : Nat) : Nat := 0x28010 + 32 * i
/-- CRING_TAIL (R148). -/
abbrev cringTail (i : Nat) : Nat := 0x28014 + 32 * i
/-- CRING_STATUS (R148). -/
abbrev cringStatus (i : Nat) : Nat := 0x28018 + 32 * i
/-- CRING_LOST (R149). -/
abbrev cringLost (i : Nat) : Nat := 0x2801c + 32 * i
/-- CMDR_AUTH (R130). -/
abbrev cmdrAuth (i : Nat) : Nat := 0x30000 + 4 * i
/-- EVR_BASE_LO (R128). -/
abbrev evrBaseLo (i : Nat) : Nat := 0x31000 + 32 * i
/-- EVR_BASE_HI (R128). -/
abbrev evrBaseHi (i : Nat) : Nat := 0x31004 + 32 * i
/-- EVR_CFG (R128). -/
abbrev evrCfg (i : Nat) : Nat := 0x31008 + 32 * i
/-- EVR_IRQ_NS (R154). -/
abbrev evrIrqNs (i : Nat) : Nat := 0x3100c + 32 * i
/-- EVR_HEAD (R152). -/
abbrev evrHead (i : Nat) : Nat := 0x31010 + 32 * i
/-- EVR_TAIL (R152). -/
abbrev evrTail (i : Nat) : Nat := 0x31014 + 32 * i
/-- EVR_STATUS (R152). -/
abbrev evrStatus (i : Nat) : Nat := 0x31018 + 32 * i
/-- EVR_LOST (R152). -/
abbrev evrLost (i : Nat) : Nat := 0x3101c + 32 * i
/-- EVT_ROUTE0 (R151). -/
abbrev evtRoute0 : Nat := 0x31200
/-- EVT_ROUTE1 (R151). -/
abbrev evtRoute1 : Nat := 0x31204
/-- EVT_UNROUTED (R151). -/
abbrev evtUnrouted : Nat := 0x31208
/-- PURSE_ALLOW (R119). -/
abbrev purseAllow (i : Nat) : Nat := 0x40000 + 8 * i
/-- PURSE_ODCAP (R119). -/
abbrev purseOdcap (i : Nat) : Nat := 0x40004 + 8 * i
/-- GW_CHSTATEs_w (R284). -/
abbrev gwChstate (s w : Nat) : Nat := 0x7004 + 64 * s + 4 * w

end Reg

/-- Table 17.2, part 1. -/
def regRows1 : List RegRow :=
  [⟨0x0, 4, 1, 0, 0, 0, 0, 0, 0⟩,
   ⟨0x4, 4, 1, 0, 0, 0, 0, 0, 0⟩,
   ⟨0x10, 4, 1, 0, 0, 0, 0, 0, 0⟩,
   ⟨0x14, 4, 1, 0, 0, 0, 0, 0, 0⟩,
   ⟨0x18, 4, 1, 0, 0, 0, 0, 0, 0⟩,
   ⟨0x1c, 4, 1, 0, 0, 0, 0, 0, 0⟩,
   ⟨0x40, 4, 1, 0, 0, 0, 0, 0, 0⟩,
   ⟨0x44, 4, 1, 0xff, 0, 0, 0, 0, 0⟩,
   ⟨0x48, 4, 1, 0xff, 0, 0, 0, 0, 0⟩,
   ⟨0x4c, 4, 1, 0, 0, 0, 0, 0, 0⟩,
   ⟨0x80, 4, 32, 0, 0, 0, 0, 0, 0⟩,
   ⟨0x100, 4, 32, 0, 0, 0, 0, 0, 0⟩,
   ⟨0x180, 4, 32, 0, 0, 0, 0, 0, 0⟩,
   ⟨0x200, 4, 1, 0, 0, 0, 0, 0, 0⟩,
   ⟨0x1000, 4, 1, 0, 0xa, 0, 0, 0, 0⟩,
   ⟨0x1004, 4, 1, 0, 0, 0, 0, 0, 0⟩,
   ⟨0x1008, 4, 1, 0, 0, 0, 0, 0, 0⟩,
   ⟨0x100c, 4, 1, 0xffffff, 0, 0, 0, 0, 0⟩,
   ⟨0x1010, 4, 1, 0xffffffff, 0, 0, 0, 0, 0⟩,
   ⟨0x1014, 4, 1, 0xffffffff, 0, 0, 0, 0, 0⟩,
   ⟨0x1018, 4, 1, 0, 0, 0, 0, 0, 0⟩,
   ⟨0x101c, 4, 1, 0, 0, 0, 0, 0, 0⟩,
   ⟨0x1020, 4, 1, 0x3, 0, 0, 0x80000000, 0, 0⟩,
   ⟨0x1040, 4, 1, 0xff07, 0, 0, 0, 0, 0⟩,
   ⟨0x1044, 4, 1, 0, 0x1, 0, 0, 0, 0⟩,
   ⟨0x1048, 4, 1, 0xffffffff, 0, 0, 0, 0, 0⟩,
   ⟨0x104c, 4, 1, 0xffffffff, 0, 0, 0, 0, 0⟩,
   ⟨0x1050, 4, 1, 0x1f, 0, 0, 0, 0, 0⟩,
   ⟨0x1054, 4, 1, 0xffffffff, 0, 0, 0, 0, 0⟩,
   ⟨0x1058, 4, 1, 0, 0, 0, 0, 0, 0⟩,
   ⟨0x105c, 4, 1, 0, 0xffffffff, 0, 0, 0, 0⟩,
   ⟨0x1080, 4, 32, 0xffffffff, 0, 0, 0, 0, 0⟩,
   ⟨0x2000, 4, 1, 0, 0, 0x1, 0, 0, 0⟩,
   ⟨0x2004, 4, 1, 0, 0x2, 0, 0, 0, 0⟩,
   ⟨0x2100, 4, 64, 0, 0, 0, 0, 0x3, 0⟩,
   ⟨0x2200, 4, 16, 0, 0, 0, 0, 0x800000ff, 0⟩,
   ⟨0x2240, 4, 1, 0, 0, 0, 0, 0, 0⟩,
   ⟨0x2244, 4, 1, 0, 0, 0, 0, 0, 0⟩,
   ⟨0x2248, 4, 1, 0xffff, 0, 0, 0, 0, 0⟩,
   ⟨0x2300, 4, 80, 0, 0, 0, 0, 0, 0⟩]

/-- Table 17.2, part 2. -/
def regRows2 : List RegRow :=
  [⟨0x3000, 4, 1, 0xffff, 0, 0, 0, 0, 0⟩,
   ⟨0x3004, 4, 1, 0xfffff, 0, 0, 0, 0, 0⟩,
   ⟨0x3008, 4, 1, 0, 0x80000000, 0, 0, 0, 0⟩,
   ⟨0x3020, 4, 8, 0, 0xffffffff, 0, 0, 0, 0⟩,
   ⟨0x3040, 4, 1, 0x3ff, 0, 0, 0, 0, 0⟩,
   ⟨0x3044, 4, 1, 0, 0x80000000, 0, 0, 0, 0⟩,
   ⟨0x3060, 4, 6, 0, 0xffffffff, 0, 0, 0, 0⟩,
   ⟨0x3080, 4, 32, 0x7fff, 0, 0, 0, 0, 0⟩,
   ⟨0x4000, 4, 1, 0x1f01, 0, 0, 0, 0, 0⟩,
   ⟨0x4004, 4, 1, 0xffffffff, 0, 0, 0, 0, 0⟩,
   ⟨0x4008, 4, 1, 0xfff, 0, 0, 0, 0, 0⟩,
   ⟨0x400c, 4, 1, 0, 0xf, 0, 0, 0, 0⟩,
   ⟨0x4010, 4, 1, 0xf, 0, 0, 0, 0, 0⟩,
   ⟨0x4014, 4, 1, 0, 0, 0, 0, 0, 0⟩,
   ⟨0x4018, 4, 1, 0, 0, 0, 0, 0, 0⟩,
   ⟨0x401c, 4, 1, 0, 0, 0, 0, 0, 0⟩,
   ⟨0x4020, 4, 1, 0, 0, 0, 0xffff, 0, 0⟩,
   ⟨0x4040, 4, 16, 0x1fffff, 0, 0, 0, 0, 0⟩,
   ⟨0x4080, 4, 16, 0, 0, 0, 0, 0, 0xfff0fff⟩,
   ⟨0x40c0, 4, 16, 0, 0, 0, 0, 0, 0⟩,
   ⟨0x4400, 4, 256, 0, 0, 0, 0, 0, 0⟩,
   ⟨0x5000, 4, 1, 0x11fff, 0, 0, 0, 0, 0⟩,
   ⟨0x5100, 4, 32, 0, 0x80000000, 0, 0, 0, 0⟩,
   ⟨0x5180, 4, 32, 0, 0, 0, 0, 0, 0⟩,
   ⟨0x5200, 4, 32, 0, 0x80000000, 0, 0, 0, 0⟩,
   ⟨0x5280, 4, 32, 0, 0xffffffff, 0, 0, 0, 0⟩,
   ⟨0x5300, 4, 32, 0, 0xffffffff, 0, 0, 0, 0⟩,
   ⟨0x6000, 4, 1, 0x3fffffff, 0, 0, 0, 0, 0⟩,
   ⟨0x6004, 4, 1, 0, 0, 0, 0, 0, 0⟩,
   ⟨0x6008, 4, 1, 0, 0, 0, 0, 0, 0⟩,
   ⟨0x6010, 4, 4, 0, 0, 0, 0, 0, 0⟩,
   ⟨0x6020, 4, 1, 0x7fff, 0, 0, 0, 0, 0⟩,
   ⟨0x6024, 4, 1, 0x7fff, 0, 0, 0, 0, 0⟩,
   ⟨0x6030, 4, 4, 0x7fff, 0, 0, 0, 0, 0⟩,
   ⟨0x6040, 4, 1, 0, 0xffffffff, 0, 0, 0, 0⟩,
   ⟨0x6100, 4, 1, 0x8000ffff, 0, 0, 0, 0, 0⟩,
   ⟨0x6104, 4, 1, 0, 0, 0, 0, 0, 0⟩,
   ⟨0x6108, 4, 1, 0, 0, 0, 0, 0, 0⟩,
   ⟨0x610c, 4, 1, 0, 0, 0, 0, 0, 0⟩,
   ⟨0x6110, 4, 1, 0x1fff, 0, 0, 0, 0, 0⟩]

/-- Table 17.2, part 3. -/
def regRows3 : List RegRow :=
  [⟨0x6114, 4, 1, 0x21f, 0, 0, 0x100, 0, 0⟩,
   ⟨0x6118, 4, 1, 0, 0x7, 0, 0, 0, 0⟩,
   ⟨0x611c, 4, 1, 0, 0x80000000, 0, 0, 0, 0⟩,
   ⟨0x6200, 4, 32, 0x1ff, 0, 0, 0, 0, 0⟩,
   ⟨0x6280, 4, 32, 0, 0, 0, 0, 0, 0⟩,
   ⟨0x6300, 4, 32, 0, 0, 0, 0, 0, 0⟩,
   ⟨0x6400, 4, 64, 0, 0, 0, 0, 0, 0⟩,
   ⟨0x7000, 64, 2, 0xff3fff, 0, 0, 0, 0, 0⟩,
   ⟨0x7004, 64, 2, 0, 0, 0, 0, 0, 0⟩,
   ⟨0x7008, 64, 2, 0, 0, 0, 0, 0, 0⟩,
   ⟨0x700c, 64, 2, 0, 0, 0, 0, 0, 0⟩,
   ⟨0x7010, 64, 2, 0, 0, 0, 0, 0, 0⟩,
   ⟨0x7014, 64, 2, 0, 0, 0, 0, 0, 0⟩,
   ⟨0x7018, 64, 2, 0x1f, 0, 0, 0x80000000, 0, 0⟩,
   ⟨0x701c, 64, 2, 0, 0, 0, 0, 0, 0⟩,
   ⟨0x7020, 64, 2, 0, 0xffffffff, 0, 0, 0, 0⟩,
   ⟨0x7024, 64, 2, 0, 0, 0, 0, 0, 0⟩,
   ⟨0x7028, 64, 2, 0, 0, 0, 0, 0, 0⟩,
   ⟨0x702c, 64, 2, 0, 0, 0, 0, 0x8000001f, 0⟩,
   ⟨0x7030, 64, 2, 0, 0, 0, 0, 0xffffffff, 0⟩,
   ⟨0x7080, 4, 1, 0, 0, 0, 0, 0, 0⟩,
   ⟨0x7084, 4, 1, 0, 0, 0, 0, 0, 0⟩,
   ⟨0x7088, 4, 1, 0x3f, 0, 0, 0, 0, 0⟩,
   ⟨0x708c, 4, 1, 0, 0, 0, 0, 0, 0⟩,
   ⟨0x7090, 4, 1, 0, 0, 0, 0, 0, 0⟩,
   ⟨0x7094, 4, 1, 0, 0, 0, 0, 0, 0⟩,
   ⟨0x7098, 4, 1, 0, 0, 0, 0, 0, 0⟩,
   ⟨0x709c, 4, 1, 0xffff, 0, 0, 0, 0, 0⟩,
   ⟨0x7100, 4, 128, 0, 0, 0, 0, 0, 0xffffffff⟩,
   ⟨0x7300, 8, 6, 0, 0, 0, 0, 0xf1ffffff, 0⟩,
   ⟨0x7304, 8, 6, 0, 0, 0, 0, 0x1ffffff, 0⟩,
   ⟨0x7340, 4, 6, 0, 0, 0, 0, 0x8000006f, 0⟩,
   ⟨0x7358, 4, 1, 0, 0, 0, 0, 0x7, 0⟩,
   ⟨0x7360, 4, 1, 0xffffff, 0, 0, 0, 0, 0⟩,
   ⟨0x7370, 4, 4, 0, 0, 0, 0, 0, 0⟩,
   ⟨0x7380, 4, 4, 0, 0xffffffff, 0, 0, 0, 0⟩,
   ⟨0x8000, 4, 1, 0xff0fffff, 0, 0, 0, 0, 0⟩,
   ⟨0x8004, 4, 1, 0, 0x3, 0, 0, 0, 0⟩,
   ⟨0x8008, 4, 1, 0, 0, 0, 0xc00007ff, 0, 0⟩,
   ⟨0x800c, 4, 1, 0, 0, 0, 0, 0, 0⟩]

/-- Table 17.2, part 4. -/
def regRows4 : List RegRow :=
  [⟨0x8010, 4, 1, 0, 0, 0, 0, 0xff, 0⟩,
   ⟨0x8014, 4, 1, 0xffffffff, 0, 0, 0, 0, 0⟩,
   ⟨0x8018, 4, 1, 0, 0xffffffff, 0, 0, 0, 0⟩,
   ⟨0x801c, 4, 1, 0, 0xf, 0, 0, 0, 0⟩,
   ⟨0x8020, 4, 8, 0, 0, 0, 0, 0, 0⟩,
   ⟨0x8040, 4, 8, 0x8001ffff, 0, 0, 0, 0, 0⟩,
   ⟨0x8060, 4, 1, 0, 0, 0, 0xc001ffff, 0, 0⟩,
   ⟨0x8064, 4, 1, 0, 0, 0, 0, 0, 0⟩,
   ⟨0x8068, 4, 1, 0, 0, 0, 0xc001ffff, 0, 0⟩,
   ⟨0x8080, 4, 1, 0x8000000f, 0, 0, 0, 0, 0⟩,
   ⟨0x8084, 4, 1, 0, 0x7, 0, 0, 0, 0⟩,
   ⟨0x8088, 4, 1, 0, 0, 0, 0, 0, 0⟩,
   ⟨0x8090, 4, 4, 0, 0xffffffff, 0, 0, 0, 0⟩,
   ⟨0x80a0, 4, 1, 0xffffffff, 0, 0, 0, 0, 0⟩,
   ⟨0x80a4, 4, 1, 0xffffffff, 0, 0, 0, 0, 0⟩,
   ⟨0x80a8, 4, 1, 0xffffffff, 0, 0, 0, 0, 0⟩,
   ⟨0x80ac, 4, 1, 0, 0, 0, 0xffffffff, 0, 0⟩,
   ⟨0x80b0, 4, 1, 0xffffffff, 0, 0, 0, 0, 0⟩,
   ⟨0x80b4, 4, 1, 0x1, 0, 0, 0, 0, 0⟩,
   ⟨0x80b8, 4, 1, 0x80ffffff, 0, 0, 0, 0, 0⟩,
   ⟨0x80bc, 4, 1, 0, 0, 0, 0x80000000, 0, 0⟩,
   ⟨0x8400, 4, 256, 0, 0, 0, 0, 0x3ff, 0⟩,
   ⟨0x8800, 4, 264, 0xffffffff, 0, 0, 0, 0, 0⟩,
   ⟨0x9000, 4, 1, 0xffffffff, 0, 0, 0, 0, 0⟩,
   ⟨0x9004, 4, 1, 0x1f, 0, 0, 0, 0, 0⟩,
   ⟨0x9008, 4, 1, 0xffffffff, 0, 0, 0, 0, 0⟩,
   ⟨0x900c, 4, 1, 0x1f, 0, 0, 0, 0, 0⟩,
   ⟨0x9010, 8, 4, 0xffffffff, 0, 0, 0, 0, 0⟩,
   ⟨0x9014, 8, 4, 0x1f, 0, 0, 0, 0, 0⟩,
   ⟨0x9030, 4, 1, 0, 0, 0, 0, 0, 0⟩,
   ⟨0x9034, 4, 1, 0, 0, 0, 0, 0, 0⟩,
   ⟨0x9038, 4, 3, 0, 0, 0, 0, 0, 0⟩,
   ⟨0x9044, 4, 1, 0x1c0fffff, 0, 0, 0, 0, 0⟩,
   ⟨0x9048, 4, 1, 0x3, 0, 0, 0, 0, 0⟩,
   ⟨0x904c, 4, 1, 0x8000ffff, 0, 0, 0, 0, 0⟩,
   ⟨0x9050, 4, 1, 0, 0x3, 0, 0, 0, 0⟩,
   ⟨0x9054, 4, 1, 0, 0xf, 0, 0, 0, 0⟩,
   ⟨0x9058, 4, 1, 0xf, 0, 0, 0, 0, 0⟩,
   ⟨0x9060, 4, 1, 0, 0xffffffff, 0, 0, 0, 0⟩,
   ⟨0x9064, 4, 1, 0, 0x3f, 0, 0, 0, 0⟩]

/-- Table 17.2, part 5. -/
def regRows5 : List RegRow :=
  [⟨0x9068, 4, 1, 0xffffffff, 0, 0, 0, 0, 0⟩,
   ⟨0x906c, 4, 1, 0x3f, 0, 0, 0, 0, 0⟩,
   ⟨0x9070, 4, 1, 0, 0, 0, 0x800000ff, 0, 0⟩,
   ⟨0x9074, 4, 1, 0, 0, 0, 0, 0, 0⟩,
   ⟨0x9078, 4, 1, 0, 0, 0, 0, 0, 0⟩,
   ⟨0x907c, 4, 1, 0, 0x1, 0, 0, 0, 0⟩,
   ⟨0x9080, 4, 9, 0xffff, 0, 0, 0, 0, 0⟩,
   ⟨0x9100, 4, 37, 0, 0, 0, 0, 0, 0⟩,
   ⟨0x9200, 4, 38, 0, 0, 0, 0, 0, 0⟩,
   ⟨0x9400, 4, 256, 0x7, 0, 0, 0, 0, 0⟩,
   ⟨0xa000, 4, 1, 0x1, 0, 0, 0x6, 0, 0⟩,
   ⟨0xa004, 4, 1, 0, 0xc, 0, 0, 0, 0⟩,
   ⟨0xa008, 4, 1, 0xffffffff, 0, 0, 0, 0, 0⟩,
   ⟨0xa00c, 4, 1, 0xffffffff, 0, 0, 0, 0, 0⟩,
   ⟨0xa010, 4, 1, 0, 0, 0, 0, 0, 0⟩,
   ⟨0xa014, 4, 1, 0, 0, 0, 0, 0, 0⟩,
   ⟨0xa018, 4, 1, 0, 0, 0, 0, 0, 0⟩,
   ⟨0xa020, 4, 6, 0, 0, 0, 0, 0, 0⟩,
   ⟨0xa040, 4, 1, 0x6, 0, 0, 0x9, 0, 0⟩,
   ⟨0xa044, 4, 1, 0, 0, 0, 0, 0, 0⟩,
   ⟨0xa048, 4, 1, 0, 0xffffffff, 0, 0, 0, 0⟩,
   ⟨0xa050, 4, 1, 0x9f01ff01, 0, 0, 0, 0, 0⟩,
   ⟨0xa054, 4, 1, 0, 0xffffffff, 0, 0, 0, 0⟩,
   ⟨0xa058, 4, 1, 0x1, 0, 0, 0x2, 0, 0⟩,
   ⟨0xa060, 4, 1, 0, 0, 0, 0, 0, 0⟩,
   ⟨0xa064, 4, 1, 0, 0, 0, 0, 0, 0⟩,
   ⟨0xa068, 4, 1, 0, 0, 0, 0, 0, 0⟩,
   ⟨0xa080, 4, 16, 0, 0, 0, 0, 0, 0⟩,
   ⟨0xa0c0, 4, 1, 0, 0, 0, 0, 0, 0⟩,
   ⟨0xa0c4, 4, 1, 0, 0, 0, 0, 0, 0⟩,
   ⟨0xa0c8, 4, 1, 0, 0, 0, 0, 0, 0⟩,
   ⟨0xa100, 4, 37, 0, 0, 0, 0, 0, 0⟩,
   ⟨0xc000, 4, 8, 0, 0, 0, 0, 0, 0xffffffff⟩,
   ⟨0xc020, 4, 1, 0, 0, 0, 0, 0, 0⟩,
   ⟨0xd000, 4, 1, 0, 0, 0, 0xff000003, 0, 0⟩,
   ⟨0xd004, 4, 1, 0, 0, 0, 0xff010003, 0, 0⟩,
   ⟨0xd008, 4, 1, 0, 0, 0, 0xff000003, 0, 0⟩,
   ⟨0xd00c, 4, 1, 0, 0x1f, 0, 0, 0, 0⟩,
   ⟨0xd040, 32, 4, 0, 0, 0, 0, 0, 0⟩,
   ⟨0xd044, 32, 4, 0, 0, 0, 0, 0, 0⟩]

/-- Table 17.2, part 6. -/
def regRows6 : List RegRow :=
  [⟨0xd048, 32, 4, 0xffffffff, 0, 0, 0, 0, 0⟩,
   ⟨0xd04c, 32, 4, 0, 0, 0, 0xffffffff, 0, 0⟩,
   ⟨0xd050, 32, 4, 0xffffffff, 0, 0, 0, 0, 0⟩,
   ⟨0xd054, 32, 4, 0xffffffff, 0, 0, 0, 0, 0⟩,
   ⟨0xd058, 32, 4, 0, 0, 0, 0, 0, 0⟩,
   ⟨0xd05c, 32, 4, 0, 0, 0, 0, 0, 0⟩,
   ⟨0x10000, 4, 1024, 0xfff00ff, 0, 0, 0, 0, 0⟩,
   ⟨0x11000, 4, 2048, 0, 0, 0, 0, 0, 0⟩,
   ⟨0x20000, 32, 1024, 0xffffffff, 0, 0, 0, 0, 0⟩,
   ⟨0x20004, 32, 1024, 0xffffffff, 0, 0, 0, 0, 0⟩,
   ⟨0x20008, 32, 1024, 0x80071f1f, 0, 0, 0, 0, 0⟩,
   ⟨0x2000c, 32, 1024, 0x3, 0, 0, 0, 0, 0⟩,
   ⟨0x20010, 32, 1024, 0, 0x300, 0, 0, 0, 0⟩,
   ⟨0x20014, 32, 1024, 0, 0, 0, 0, 0, 0⟩,
   ⟨0x20018, 32, 1024, 0, 0, 0, 0, 0, 0⟩,
   ⟨0x2001c, 32, 1024, 0, 0, 0, 0, 0, 0⟩,
   ⟨0x28000, 32, 1024, 0xffffffff, 0, 0, 0, 0, 0⟩,
   ⟨0x28004, 32, 1024, 0xffffffff, 0, 0, 0, 0, 0⟩,
   ⟨0x28008, 32, 1024, 0xff00ffff, 0, 0, 0, 0, 0⟩,
   ⟨0x2800c, 32, 1024, 0xfffff, 0, 0, 0, 0, 0⟩,
   ⟨0x28010, 32, 1024, 0xffffffff, 0, 0, 0, 0, 0⟩,
   ⟨0x28014, 32, 1024, 0, 0, 0, 0, 0, 0⟩,
   ⟨0x28018, 32, 1024, 0, 0xc, 0, 0, 0, 0⟩,
   ⟨0x2801c, 32, 1024, 0, 0xffffffff, 0, 0, 0, 0⟩,
   ⟨0x30000, 4, 1024, 0, 0, 0, 0, 0x8000007f, 0⟩,
   ⟨0x31000, 32, 16, 0xffffffff, 0, 0, 0, 0, 0⟩,
   ⟨0x31004, 32, 16, 0xffffffff, 0, 0, 0, 0, 0⟩,
   ⟨0x31008, 32, 16, 0xff00ffff, 0, 0, 0, 0, 0⟩,
   ⟨0x3100c, 32, 16, 0xfffff, 0, 0, 0, 0, 0⟩,
   ⟨0x31010, 32, 16, 0xffffffff, 0, 0, 0, 0, 0⟩,
   ⟨0x31014, 32, 16, 0, 0, 0, 0, 0, 0⟩,
   ⟨0x31018, 32, 16, 0, 0xc, 0, 0, 0, 0⟩,
   ⟨0x3101c, 32, 16, 0, 0xffffffff, 0, 0, 0, 0⟩,
   ⟨0x31200, 4, 1, 0xcfcfcfcf, 0, 0, 0, 0, 0⟩,
   ⟨0x31204, 4, 1, 0xcfcfcf, 0, 0, 0, 0, 0⟩,
   ⟨0x31208, 4, 1, 0, 0xffffffff, 0, 0, 0, 0⟩,
   ⟨0x40000, 8, 2560, 0xfffff, 0, 0, 0, 0, 0⟩,
   ⟨0x40004, 8, 2560, 0xfffff, 0, 0, 0, 0, 0⟩]

/-- Table 17.2. -/
def regRows : List RegRow := regRows1 ++ regRows2 ++ regRows3 ++ regRows4 ++ regRows5 ++ regRows6

/-- The row of a list that holds an offset. -/
def findRow (o : Nat) : List RegRow → Option RegRow
  | [] => none
  | r :: t =>
    if r.base ≤ o ∧ (o - r.base) % r.stride = 0 ∧ (o - r.base) / r.stride < r.count then some r else findRow o t

/-- The row of Table 17.2 that holds an offset: none where Table 17.2 assigns no register. -/
def regRow (o : Nat) : Option RegRow := findRow o regRows

/-- A reset value among rows (base, stride, count, value). -/
def findReset (o : Nat) : List (Nat × Nat × Nat × Nat) → Nat
  | [] => 0
  | (b, st, c, v) :: t => if b ≤ o ∧ (o - b) % st = 0 ∧ (o - b) / st < c then v else findReset o t

/-- The registers whose reset value is not 0. -/
def resetRows : List (Nat × Nat × Nat × Nat) :=
  [(0x0, 4, 1, 0x14a745cf),
   (0x4, 4, 1, 0x14200),
   (0x1050, 4, 1, 0xa),
   (0x2300, 4, 80, 0xaaaaaaaa),
   (0x3000, 4, 1, 0x200),
   (0x3004, 4, 1, 0x7d0),
   (0x3040, 4, 1, 0x40),
   (0x4000, 4, 1, 0xa00),
   (0x4004, 4, 1, 0x600c006a),
   (0x4010, 4, 1, 0x2),
   (0x5000, 4, 1, 0x11000),
   (0x6000, 4, 1, 0x200ff3ff),
   (0x6100, 4, 1, 0x800000c8),
   (0x7000, 64, 2, 0x400830),
   (0x709c, 4, 1, 0x1f40),
   (0x7360, 4, 1, 0x140040),
   (0x8000, 4, 1, 0x10010000),
   (0x80a8, 4, 1, 0x5f5e100),
   (0x80b8, 4, 1, 0x3e8),
   (0x9008, 4, 1, 0xfffffffe),
   (0x900c, 4, 1, 0x1f),
   (0x9044, 4, 1, 0x2710),
   (0x904c, 4, 1, 0x80000aaa),
   (0x9058, 4, 1, 0xc),
   (0x9060, 4, 1, 0xffffffff),
   (0x9064, 4, 1, 0x3f),
   (0x20008, 32, 1024, 0x5),
   (0x28008, 32, 1024, 0x6000001),
   (0x31008, 32, 16, 0x6000001),
   (0x31200, 4, 1, 0x4000),
   (0x40004, 8, 2560, 0xfffff)]

/-- The reset value of a register (log 9): BANK_MAP is the identity (R15), words no row names are 0. -/
def regReset (o : Nat) : Word :=
  if 0x50000 ≤ o then 0#32
  else if 0x8400 ≤ o ∧ o < 0x8800 then BitVec.ofNat 32 ((o - 0x8400) / 4)
  else BitVec.ofNat 32 (findReset o resetRows)

/-- The stored word of a register. -/
def State.rg (s : State) (o : Nat) : Nat := (tget (regReset o) s.regs o).toNat

/-- The state with the stored word of a register set. -/
def State.setRg (s : State) (o v : Nat) : State :=
  { s with regs := tset (regReset o) s.regs o (BitVec.ofNat 32 v) }

/-- Bit i of a register. -/
def State.rgBit (s : State) (o i : Nat) : Bool := bit (s.rg o) i

/-- A field of a register. -/
def State.rgField (s : State) (o lo w : Nat) : Nat := bits (s.rg o) lo w

/-- What the hardware did in the current tc. -/
def State.hwNow (s : State) : Hw :=
  if s.hw.tc = s.clk.tc then s.hw else { tc := s.clk.tc, driven := [], counted := [] }

/-- The record that the hardware drove the bits `m` of a register in this tc (R12). -/
def State.hwDrive (s : State) (o m : Nat) : Hw :=
  { s.hwNow with driven := tset 0 s.hwNow.driven o (tget 0 s.hwNow.driven o ||| m) }

/-- The record that the hardware counted n events in this tc in the register or counter of a key (R12). -/
def State.hwCount (s : State) (k n : Nat) : Hw :=
  { s.hwNow with counted := tset 0 s.hwNow.counted k (tget 0 s.hwNow.counted k + n) }

/-- The bits of a register that the hardware drove in this tc. -/
def State.driven (s : State) (o : Nat) : Nat := tget 0 s.hwNow.driven o

/-- The events of this tc that the hardware counted under a key. -/
def State.counted (s : State) (k : Nat) : Nat := tget 0 s.hwNow.counted k

/-- The state with one bit of a register set or cleared; a bit set is one that the hardware drove in this tc (R12). -/
def State.setRgBit (s : State) (o i : Nat) (b : Bool) : State :=
  { s.setRg o (putBits (s.rg o) i 1 (b2n b)) with hw := if b then s.hwDrive o (2 ^ i) else s.hw }

/-- The state with a field of a register driven by the hardware (R12). -/
def State.driveField (s : State) (o lo w v : Nat) : State :=
  { s.setRg o (putBits (s.rg o) lo w v) with hw := s.hwDrive o ((2 ^ w - 1) * 2 ^ lo) }

/-- The state with a field of a register set. -/
def State.setRgField (s : State) (o lo w v : Nat) : State := s.setRg o (putBits (s.rg o) lo w v)

/-- The state with a count of a register raised by n, saturating at 2^32 − 1. -/
def State.countRg (s : State) (o n : Nat) : State :=
  { s.setRg o (min (s.rg o + n) 0xFFFFFFFF) with hw := s.hwCount o n }

/-- A LO and HI pair of registers as one number. -/
def State.rg64 (s : State) (lo hi : Nat) : Nat := s.rg lo + 2 ^ 32 * s.rg hi

/-- The state with a LO and HI pair of registers set. -/
def State.setRg64 (s : State) (lo hi v : Nat) : State := (s.setRg lo (v % 2 ^ 32)).setRg hi (v / 2 ^ 32 % 2 ^ 32)

end Sys2Proof.Machine
end

