-- ==== Sys2Proof/Machine/Ops.lean ====
section
/-! DEFINITION. The operations that every family shares: time, sources, power domains, the gate before a meaning,
the stored words of banks and stacks, statuses, and the records and events of Chapters 2 and 6. -/

namespace Sys2Proof.Machine

/-- The answer of a meaning. -/
abbrev Res := Host.Outcome State Fault Refusal

/-! ## Time and places -/

/-- Now (R31): the local copy after the die offset, in whole nanoseconds of PT (R33). -/
def State.now (s : State) : Nat := ((s.pt.raw : Int) - s.pt.off).toNat / 16 % 2 ^ 64

/-- A source number of this die (R18). -/
def State.src (s : State) (u : Nat) : Nat := s.pwr.dieId * 256 + u

/-- Source 167, the clerk and every unit without a number (R415). -/
def State.srcClerk (s : State) : Nat := s.src 167

/-- The hop count between two nodes (R14). -/
def hops (a b : Nat) : Nat :=
  (max (a / 8) (b / 8) - min (a / 8) (b / 8)) + (max (a % 8) (b % 8) - min (a % 8) (b % 8))

/-- The node of a unit of Table 1.3 as Table 1.1 places it: engine ports and movers at their node, the die-link ports N,
E, S, W at 3, 15, 28, 16, the far agent at 11, the clerk at 12; the gateways, which lie above every node of their columns,
are placed by their channel (chanNode), and debug and escrow stand at the command unit's node 20. -/
def unitNode (u : Nat) : Nat :=
  if u < 128 then u / 4 else if u < 160 then u - 128 else nth 20 [20, 20, 3, 15, 28, 16, 11, 12] (u - 160)

/-- The short stamp of a deadline at issue (R38); 0 is no deadline. -/
def shortStamp (now D : Nat) : Nat :=
  if D = 0 ∨ now + 8388607 < D then (now + 8388607) % 2 ^ 24 else D % 2 ^ 24

/-- The remaining time of a short stamp (R39). -/
def remaining (now short : Nat) : Int :=
  let d : Nat := (short + 2 ^ 24 - now % 2 ^ 24) % 2 ^ 24
  if d < 2 ^ 23 then (d : Int) else (d : Int) - 16777216

/-! ## Statuses (Table 6.4) -/

/-- The code of a status. -/
def stCode : Status → Nat
  | .ok => 0x00 | .okLate => 0x01 | .faultXlate => 0x10 | .faultProt => 0x11 | .faultAlign => 0x12
  | .eccUncorr => 0x20 | .frameWithdrawn => 0x21 | .squashed => 0x30 | .aborted => 0x31 | .chainGap => 0x32
  | .barrierOverrun => 0x33 | .chequeStale => 0x34 | .quarantined => 0x40 | .oversub => 0x41

/-- Whether a status is no error. -/
def stOk (st : Status) : Bool := st == .ok || st == .okLate

/-- A program context detects an error: the first stays, and of the errors of one tc the lowest code (R144). -/
def PCtx.err (x : PCtx) (tc : Nat) (st : Status) : PCtx :=
  if stOk st then x
  else match x.status with
    | none => { x with status := some st, errTc := tc }
    | some e => if x.errTc = tc ∧ stCode st < stCode e then { x with status := some st } else x

/-! ## Power domains (Table 14.1) -/

/-- Index of FAB. -/
def dFAB : Nat := 1
/-- Index of HOMEn. -/
def dHome (n : Nat) : Nat := 2 + n
/-- Index of SGs. -/
def dSG (i : Nat) : Nat := 34 + i
/-- Index of EDGE. -/
def dEDGE : Nat := 36

/-- A domain that is up, with no activity yet (R338). -/
def domUp : Dom := { state := .up, due := 0, timer := 0, expired := false, wake := none }

/-- Whether the build holds a domain: SG1 stays off in a one-stack build (R3). -/
def domPresent (s : State) (d : Nat) : Bool := d < 37 && (d != 35 || s.build.nStacks == 2)

/-- A power domain. -/
def State.dom (s : State) (d : Nat) : Dom := tget domUp s.pwr.doms d

/-- The state with a domain replaced. -/
def State.setDom (s : State) (d : Nat) (x : Dom) : State :=
  { s with pwr := { s.pwr with doms := tset domUp s.pwr.doms d x } }

/-- Whether a domain is up: AO always, an absent one never. -/
def isUp (s : State) (d : Nat) : Bool := d == 0 || (domPresent s d && (s.dom d).state == .up)

/-- Activity at a domain restarts its timer (R338). -/
def touch (s : State) (d : Nat) : State :=
  if d = 0 then s
  else s.setDom d { s.dom d with timer := s.now + s.rgField Reg.pwrCfg 0 20, expired := false }

/-! ## Sequences and records (R33 to R35, R46 to R48) -/

/-- The next sequence of a source, whether the record is within the 32 of this tc (R35), and the state after. -/
def takeSeq (s : State) (src : Nat) : Nat × Bool × State :=
  let q := tget 0 s.evl.seqs src
  let n := if s.evl.stampTc = s.clk.tc then tget 0 s.evl.stamped src else 0
  let marks := if s.evl.stampTc = s.clk.tc then s.evl.stamped else []
  (q, n < 32,
   { s with evl := { s.evl with seqs := tset 0 s.evl.seqs src ((q + 1) % 256), stampTc := s.clk.tc,
                                stamped := tset 0 marks src (n + 1) } })

/-- A dropped ledger record of a source (R48). -/
def evlDrop (s : State) (src : Nat) : State :=
  let t := s.countRg Reg.evlLost 1
  { t with evl := { t.evl with lost := tset 0 t.evl.lost src (tget 0 t.evl.lost src + 1) } }

/-- How many records of a source wait for a ledger position. -/
def evlWaiting (s : State) (src : Nat) : Nat := (s.evl.waiting.filter (fun r => r.src == src)).length

/-- A record of a source for the event ledger (Table 2.2), while EVL_CTL.EN is set: it takes the source's sequence and
waits for a position (R48). -/
def ledgerSrc (s : State) (src type : Nat) (ctx : Option (Nat × Nat)) (a0 a1 : Nat) : State :=
  if s.rgBit Reg.evlCtl 0 then
    match takeSeq s src with
    | (q, fits, t) =>
      if fits && evlWaiting t src < 8 then
        { t with evl := { t.evl with waiting := t.evl.waiting ++
          [{ stamp := t.now, src := src, seq := q, type := type, unlocked := !t.rgBit Reg.ptStatus 0,
             ctx := ctx, arg0 := BitVec.ofNat 64 a0, arg1 := BitVec.ofNat 64 a1 }] } }
      else evlDrop t src
  else s

/-- A record of a unit of this die. -/
def ledgerRec (s : State) (u type : Nat) (ctx : Option (Nat × Nat)) (a0 a1 : Nat) : State :=
  ledgerSrc s (s.src u) type ctx a0 a1

/-! ## Event counters -/

/-- Counts an event of Table 15.7 in every counter that selects it (R379). -/
def countEvent (s : State) (ev qual n : Nat) : State :=
  if s.rgBit Reg.cntCtl 0 then
    let ks := (s.regs.filter (fun c => 0x10000 ≤ c.1 && c.1 < 0x11000 && bits c.2.toNat 0 8 == ev &&
      (bits c.2.toNat 16 12 == 0xFFF || bits c.2.toNat 16 12 == qual))).map (fun c => (c.1 - 0x10000) / 4)
    let c := ks.foldl (fun t k => tset 0 t k ((tget 0 t k + n) % 2 ^ 48)) s.obs.counters
    { s with obs := { s.obs with counters := c },
             hw := ks.foldl (fun h k => ({ s with hw := h }).hwCount (2 ^ 21 + k) n) s.hw }
  else s

/-! ## Sites of the lock-up detector (R332) -/

/-- The key of a site: 0 a bank's teller, 1 a router output (node × 8 + output), 2 a die channel, 3 a die-link lane
(port × 16 + lane). -/
def siteKey (site i : Nat) : Nat := site * 65536 + i

/-- A site moves a granule or grants an entry, and may fire again. -/
def moved (s : State) (k : Nat) : State :=
  { s with ras := { s.ras with progress := tput s.ras.progress k s.ras.watch, lockups := delMem k s.ras.lockups } }

/-- Whether a clamp group is latched (R347). -/
def clampOn (s : State) (g : Nat) : Bool := if g < 32 then s.rgBit Reg.pwrClampLo g else s.rgBit Reg.pwrClampHi (g - 32)

/-! ## Die-link ports (R300 to R304) -/

/-- Appends to what the TMS sends. -/
def State.emit (s : State) (o : Out) : State := { s with out := s.out ++ [o] }

/-- The die-link port at reset: the ports of Build.links are active and trained (R300, R399; log 1). -/
def linkReset (s : State) (p : Nat) : Link :=
  { state := if p ∈ s.build.links then .up else .inactive, since := 0, credits := [], replays := 0, replayFrom := 0,
    votes := 0#37, waiting := [] }

/-- A die-link port. -/
def State.link (s : State) (p : Nat) : Link := tget (linkReset s p) s.edge.links p

/-- The state with a die-link port replaced. -/
def State.setLink (s : State) (p : Nat) (x : Link) : State :=
  { s with edge := { s.edge with links := tset (linkReset s p) s.edge.links p x } }

/-- Whether a die-link port is UP. -/
def linkUp (s : State) (p : Nat) : Bool := (s.link p).state == .up

/-- The die-link port on the route to a die (R301): 0 N, 1 E, 2 S, 3 W. -/
def routePort (s : State) (die : Nat) : Nat :=
  let r := s.pwr.dieId / 4
  let c := s.pwr.dieId % 4
  if c < die % 4 then 1 else if die % 4 < c then 3 else if r < die / 4 then 2 else 0

/-- The key of a lane's credit on a network (R303). -/
def creditKey (lane : Nat) (resp : Bool) : Nat := 2 * lane + b2n resp

/-- Granules a lane has sent without their credit back (R303). -/
def creditsUsed (s : State) (p lane : Nat) (resp : Bool) : Nat := tget 0 (s.link p).credits (creditKey lane resp)

/-- What leaves by a die-link port: its die, its lane, its network, the granules it carries (Table 15.7). -/
def outWay : Out → Nat × Nat × Bool × Nat
  | .link _ die lane _ wr _ _ _ _ => (die, lane, false, b2n wr)
  | .answer _ die lane _ _ _ _ => (die, lane, true, 1)
  | .control _ die lane _ _ _ _ _ _ => (die, lane, false, 0)
  | .relay _ die lane _ m => (match m with
    | .header _ => (die, lane, false, 0)
    | .granules _ => (die, lane, false, 1)
    | _ => (die, lane, true, 0))
  | _ => (0, 0, false, 0)

/-- The source number that what leaves by a die-link port carries (R18): a relay's is its mover's. -/
def outSrc (s : State) : Out → Nat
  | .link _ _ _ src _ _ _ _ _ => src
  | .answer _ _ _ src _ _ _ => src
  | .control _ _ _ src _ _ _ _ _ => src
  | .relay _ _ _ key _ => s.src (128 + key / 8)
  | _ => 0

/-- Sends on a lane of an UP port that has credit: none when it waits (R303) or the port is latched (R347). -/
def linkSend (s : State) (p : Nat) (o : Out) : Option State :=
  match outWay o with
  | (_, lane, resp, n) =>
    let used := creditsUsed s p lane resp
    let l := s.link p
    if l.state = .up ∧ used < 32 ∧ !clampOn s 34 then
      let t := s.setLink p { l with credits := tset 0 l.credits (creditKey lane resp) (used + 1) }
      some ((moved (countEvent t 0x09 (p * 16 + lane) n) (siteKey 3 (p * 16 + lane))).emit o)
    else none

/-- Whether anything waits at a port in the lane of what is to leave. -/
def laneWaits (s : State) (p : Nat) (o : Out) : Bool :=
  (s.link p).waiting.any (fun w => (outWay w).2.1 == (outWay o).2.1 && (outWay w).2.2.1 == (outWay o).2.2.1)

/-- What leaves by a die-link port is sent, or waits in its lane behind what waits there (R302, R303). What waits for a die
behind a port that is DOWN sends the wake pattern with the die's id (R304). -/
def linkOut (s : State) (p : Nat) (o : Out) : State :=
  let wait : State :=
    let t := s.setLink p { s.link p with waiting := (s.link p).waiting ++ [o] }
    if (s.link p).state = .down then t.emit (.pattern p (outWay o).1) else t
  if laneWaits s p o then wait
  else match linkSend s p o with
    | some t => t
    | none => wait

/-- The votes for the neighbour beyond a port leave in a CONTROL flit (R336, R391); in which cycle is timing. -/
def votesOut (s : State) (p : Nat) : State :=
  if (s.link p).state = .up ∧ !clampOn s 34 then
    s.emit (.votes p (BitVec.ofNat 37 (s.rg64 (Reg.pwrLinkvoteLo p) (Reg.pwrLinkvoteHi p))))
  else s

/-- What waits at a port goes, responses before requests, each lane in order and none blocking another (R303). -/
def drainWaiting (s : State) (p : Nat) : State :=
  let w := (s.link p).waiting
  let resp (o : Out) : Bool := (outWay o).2.2.1
  if w.isEmpty then s
  else (w.filter resp ++ w.filter (fun o => !resp o)).foldl (fun t o => linkOut t p o)
    (s.setLink p { s.link p with waiting := [] })

/-! ## Stored data -/

/-- The physical bank of a logical bank (R15). -/
def bankPhys (s : State) (b : Nat) : Nat := s.rgField (Reg.bankMap b) 0 9

/-- Whether a logical bank is withdrawn (R318). -/
def bankWd (s : State) (b : Nat) : Bool := s.rgBit (Reg.bankMap b) 9

/-- Whether a logical bank serves the SLC (R411). -/
def bankSlc (s : State) (b : Nat) : Bool := s.rgBit (Reg.slcSel (b / 32)) (b % 32)

/-- The run state of a bank: 0 ON, 1 RETENTION, 2 OFF (R342). -/
def bankRun (s : State) (b : Nat) : Nat := if bankWd s b then 2 else s.rgField (Reg.pwrBank b) 0 2

/-- The contents of a physical bank are lost (R342). -/
def loseBank (s : State) (p : Nat) : State :=
  { s with bankMem := s.bankMem.markUndef (p * 2 ^ 21) ((p + 1) * 2 ^ 21) s.freeCtr, freeCtr := s.freeCtr + 1 }

/-- Whether the governor withholds the current tc from what it throttles: the first k of every 8 tc (R350, log 81). -/
def withheldNow (s : State) : Bool := decide (s.clk.tc % 8 < s.clk.throttle)

/-- Whether a logical bank is named in SEALED_BANK0 to 15 (R70). -/
def bankSealed (s : State) (b : Nat) : Bool :=
  (List.range 16).any (fun n => s.rgBit (Reg.sealedBank n) 31 && s.rgField (Reg.sealedBank n) 0 8 == b)

/-- The number of banks the SLC has in service (R20). -/
def slcBanks (s : State) : Nat := ((List.range 256).filter (fun b => bankSlc s b)).length

/-- The address of a byte of a physical bank in bankMem. -/
def bankAddr (p off : Nat) : Nat := p * 2 ^ 21 + off

/-- The words of n bytes at an address whose check bits show the given mark, as a list of 64-bit word addresses. -/
def markedWords (s : State) (k : EccMark) (a n : Nat) : List Nat :=
  (s.bankMark.filter (fun c => a / 8 ≤ c.1 && c.1 < (a + n + 7) / 8 && c.2 == k)).map (·.1)

/-- Counts corrections and uncorrectable reads in an error counter (Table 13.9). -/
def countErrs (s : State) (o ce ue : Nat) : State :=
  let w := s.rg o
  { s.setRg o (min (bits w 0 16 + ce) 0xFFFF + 65536 * min (bits w 16 16 + ue) 0xFFFF) with
    hw := s.hwCount o (ce + 65536 * ue) }

/-- Counts taken corrections and uncorrectable reads of a physical bank (R308, Table 13.9). -/
def countBankErr (s : State) (p ce ue : Nat) : State := countErrs s (Reg.bankErrcnt p) ce ue

/-- The bit mask of the failing 64-bit words of a granule (Table 13.2). -/
def wordMask (ws : List Nat) : Nat := ws.foldl (fun m w => m ||| 2 ^ (w % 16)) 0

/-- A write of enabled bytes into a physical bank at an address of one granule (R307): each 64-bit word with an
enabled byte is written with fresh check bits; a word covered in part whose stored check shows an uncorrectable
error stays as it was. The list names the words left. A scrub write-back due to the granule is dropped (R313). -/
def bankPut (s : State) (a : Nat) (data : List WByte) : State × List Nat :=
  let words := (List.range ((a % 8 + data.length + 7) / 8)).map (fun i => a / 8 + i)
  let en (x : Nat) : Bool := (nth (0#8, false) data (x - a)).2 && decide (a ≤ x)
  let cnt (w : Nat) : Nat := ((List.range 8).filter (fun i => en (8 * w + i))).length
  let left := words.filter (fun w => tfind s.bankMark w == some .ue && 0 < cnt w && cnt w < 8)
  let fresh := words.filter (fun w => 0 < cnt w && !(w ∈ left))
  let kept := (List.range data.length).map (fun i =>
    let d := nth (0#8, false) data i
    (d.1, d.2 && !((a + i) / 8 ∈ left)))
  let row := tget 0 s.ras.scrubBack (a / 2 ^ 21)
  let ras := if row = a % 2 ^ 21 / 128 + 1 then { s.ras with scrubBack := terase s.ras.scrubBack (a / 2 ^ 21) }
             else s.ras
  ({ s with bankMem := s.bankMem.writeE a kept, ras := ras,
            bankMark := s.bankMark.filter (fun c => !(c.1 ∈ fresh)) }, left)

/-- The bank's stored bytes written at logical bank b, and at the spare while a copy of b runs (R316). -/
def bankStore (s : State) (b off : Nat) (data : List WByte) : State × List Nat :=
  match bankPut s (bankAddr (bankPhys s b) off) data with
  | (t, left) =>
    match s.ras.copy with
    | some c => (if c.bank = b then (bankPut t (bankAddr (256 + c.spare) off) data).1 else t, left)
    | none => (t, left)

/-- The bytes and enables of a write granule. -/
def granuleWBytes (g : Granule) (be : Enables) : List WByte :=
  (List.range 128).map (fun i => (BitVec.ofNat 8 (g.toNat / 2 ^ (8 * i)), bit be.toNat i))

/-- An idle teller, parked (R86). -/
def tellerIdle : Teller :=
  { holder := .owner, busy := none, acted := none, ownerTc := none, look := none, headTc := none, entries := [],
    half := none, arrivals := 0, reqs := [], freed := (0, 0) }

/-- The teller of a logical bank. -/
def State.teller (s : State) (b : Nat) : Teller := tget tellerIdle s.mesh.tellers b

/-- The state with a teller replaced. -/
def State.setTeller (s : State) (b : Nat) (x : Teller) : State :=
  { s with mesh := { s.mesh with tellers := tset tellerIdle s.mesh.tellers b x } }

/-- An access of another command to bank b comes after the read half of an alias: the half's bytes are stored first, so
that nothing comes between the two halves (R61, R89, R246). -/
def finishHalf (s : State) (b : Nat) : State :=
  match (s.teller b).half with
  | none => s
  | some h =>
    if h.done then s
    else
      let t := if h.ue then s else (bankStore s b h.addr (granuleWBytes h.value (BitVec.allOnes 128))).1
      t.setTeller b { t.teller b with half := some { h with done := true } }

/-- Whether a stack frame is present (R3). -/
def framePresent (s : State) (f : Nat) : Bool := f < 40960 * s.build.nStacks

/-- A frame ledger entry at reset: FREE for a present frame (R75). -/
def frameReset (s : State) (f : Nat) : Frame :=
  { asid := 0, vpn := 0, state := if framePresent s f then .free else .absent, w := false, a := false,
    linked := false, next := none, failing := false }

/-- A frame ledger entry. -/
def State.frame (s : State) (f : Nat) : Frame := tget (frameReset s f) s.xl.frames f

/-- The state with a frame ledger entry replaced. -/
def State.setFrame (s : State) (f : Nat) (x : Frame) : State :=
  { s with xl := { s.xl with frames := tset (frameReset s f) s.xl.frames f x } }

/-- The group mode that an access accepted now uses: 0 LOCAL, 1 HALF, 2 SPREAD; where a change waits for the group's
earlier accesses, the new mode (R71). Accesses accepted before keep the channel they were issued to (Flight.chan). -/
def frameMode (s : State) (f : Nat) : Nat :=
  let g := f / 64
  match tfind s.xl.modeSwitch g with
  | some m => m
  | none => s.rgField (Reg.fgrpMode (g / 16)) (2 * (g % 16)) 2

/-- The bit of a PPA that marks far space (Table 3.1). -/
def farBit : Nat := 2 ^ 55

/-- A die-space PPA (Table 3.1). -/
def diePPA (die space off : Nat) : Nat := die * 2 ^ 51 + space * 2 ^ 47 + off % 2 ^ 47

/-- The die of a die-space PPA. -/
def ppaDie (a : Nat) : Nat := bits a 51 4
/-- The space code of a die-space PPA. -/
def ppaSpace (a : Nat) : Nat := bits a 47 4
/-- The offset of a die-space PPA. -/
def ppaOff (a : Nat) : Nat := bits a 0 47
/-- Whether a PPA names far space. -/
def ppaFar (a : Nat) : Bool := bit a 55

/-- The key of a host address in extMem. -/
def hostKey (a : Nat) : Nat := 2 ^ 56 + a

/-- Whether an address lies in BANK or STACK space of this die. -/
def ownBankOrStack (s : State) (a : Nat) : Bool :=
  a < 2 ^ 55 && ppaDie a == s.pwr.dieId &&
  ((ppaSpace a == 0 && ppaOff a < 2 ^ 29) || (ppaSpace a == 8 && framePresent s (ppaOff a / 2 ^ 21)))

/-- Whether the traffic of the TMS's own units, which carries no sealed mark (R70), reaches a logical bank (R21, R342). -/
def ownUnitBank (s : State) (b : Nat) : Bool :=
  !(bankWd s b || bankSlc s b || bankRun s b == 2 || bankSealed s b)

/-- A free granule: what R238 leaves open. -/
def freeGranule (ctr : Nat) : Granule :=
  BitVec.ofNat 1024 (ofBytes ((List.range 16).flatMap (fun i => toBytes 8 (Config.freeWord ctr i).toNat)))

/-- The granule that a write names, by its PPA div 128; an alias write to another die changes the bank behind it (R238). -/
def passKey (a : Nat) : Nat :=
  if !ppaFar a && ppaSpace a ≤ 6 then diePPA (ppaDie a) 0 (ppaOff a) / 128 else a / 128

/-- A write that passes the SLC meets a line of the granule (R238): a clean line is stale from then on; a dirty line
and the granule behind it become any bit pattern. -/
def slcPassing (s : State) (a : Nat) : State :=
  let k := passKey a
  match tfind s.slc.lines k with
  | none => s
  | some l =>
    let put (t : State) (l : Line) : State := { t with slc := { t.slc with lines := tput t.slc.lines k l } }
    if l.dirty then
      let t := put s { l with data := freeGranule s.freeCtr, stale := true }
      let own := !ppaFar a && ppaDie a == s.pwr.dieId
      let g := if own then ppaOff a / 128 * 128 else 128 * k
      let t := if own then { t with stackMem := t.stackMem.markUndef g (g + 128) s.freeCtr }
               else { t with extMem := t.extMem.markUndef g (g + 128) s.freeCtr }
      { t with freeCtr := s.freeCtr + 1 }
    else put s { l with stale := true }

/-- The granules of a record of n bytes, with its bytes in each. -/
def recGranule (a : Nat) (data : List Byte) : Granule × Enables :=
  (BitVec.ofNat 1024 (ofBytes data * 2 ^ (8 * (a % 128))), BitVec.ofNat 128 ((2 ^ data.length - 1) * 2 ^ (a % 128)))

/-- A write by the TMS's own units past the SLC (R49, R129, R238): records into BANK or STACK space or, with `host`, into
host memory; one for another die leaves on the lane of the class of the command unit's traffic (R112, R302), with no
deadline. Bytes that reach no place a write may go are dropped, a sealed bank among them (R70). -/
def recWrite (s : State) (host : Bool) (a : Nat) (data : List Byte) : State :=
  if host then { s with extMem := s.extMem.writeN (hostKey a) data }
  else if ownBankOrStack s a then
    if ppaSpace a = 0 then
      let b := ppaOff a / 2 ^ 21
      if !ownUnitBank s b then s
      else (bankStore (finishHalf s b) b (ppaOff a % 2 ^ 21) (data.map (fun x => (x, true)))).1
    else
      match (s.frame (ppaOff a / 2 ^ 21)).state with
      | .retired | .withdrawn | .absent => s
      | _ => slcPassing { s with stackMem := s.stackMem.writeN (ppaOff a) data } a
  else if a < 2 ^ 55 && ppaDie a != s.pwr.dieId then
    let p := routePort s (ppaDie a)
    let t := slcPassing { s with extMem := s.extMem.writeN a data } a
    linkOut t p (.link p (ppaDie a) (s.rgField Reg.reguSysclass 0 4) s.srcClerk true (shortStamp s.now 0) a
      (recGranule a data).1 (recGranule a data).2)
  else s

/-- The bytes of 64-bit words. -/
def dwBytes (ws : List Nat) : List Byte := ws.flatMap (fun w => toBytes 8 w)

/-- The 32 B of an event ledger or event ring record (Table 2.1); `mid` is bits 30:28 of the word at 0x08. -/
def recBytes (stamp src seq type mid gen : Nat) (ctx : Option (Nat × Nat)) (a0 a1 : DWord) : List Byte :=
  let c := match ctx with
    | some (n, cls) => n + cls * 2 ^ 16 + 2 ^ 31
    | none => 0
  dwBytes [stamp, src + seq * 2 ^ 12 + type * 2 ^ 20 + mid * 2 ^ 28 + gen * 2 ^ 31 + c * 2 ^ 32,
           a0.toNat, a1.toNat]

/-! ## Completion and event rings (R147 to R154) -/

/-- No interrupt condition. -/
def noIrq : RingIrq := { since := 0, fired := false, marks := [], headOld := none }

/-- The offset of a word of a completion (evr = false) or event ring. -/
def ringReg (evr : Bool) (c w : Nat) : Nat := if evr then 0x31000 + 32 * c + w else 0x28000 + 32 * c + w

/-- The interrupt bookkeeping of a ring. -/
def State.irq (s : State) (evr : Bool) (c : Nat) : RingIrq :=
  tget noIrq (if evr then s.work.eirq else s.work.cirq) c

/-- The state with the interrupt bookkeeping of a ring replaced. -/
def State.setIrq (s : State) (evr : Bool) (c : Nat) (x : RingIrq) : State :=
  if evr then { s with work := { s.work with eirq := tset noIrq s.work.eirq c x } }
  else { s with work := { s.work with cirq := tset noIrq s.work.cirq c x } }

/-- HEAD as fullness and the interrupt condition see it: the value at the start of the tc (R148). -/
def ringHead (s : State) (evr : Bool) (c : Nat) : Nat :=
  match (s.irq evr c).headOld with
  | some (tc, h) => if tc = s.clk.tc then h else s.rg (ringReg evr c 0x10)
  | none => s.rg (ringReg evr c 0x10)

/-- TAIL − HEAD of a completion or event ring (R148). -/
def ringLevel (s : State) (evr : Bool) (c : Nat) : Nat :=
  (s.rg (ringReg evr c 0x14) + 2 ^ 32 - ringHead s evr c) % 2 ^ 32

/-- The size of a completion or event ring, 2^n records. -/
def ringSize (s : State) (evr : Bool) (c : Nat) : Nat := 2 ^ s.rgField (ringReg evr c 8) 24 5

/-- Whether a completion or event ring is enabled. -/
def ringEn (s : State) (evr : Bool) (c : Nat) : Bool := s.rgBit (ringReg evr c 8) 29

/-- Whether a completion or event ring is full (R148). -/
def ringFull (s : State) (evr : Bool) (c : Nat) : Bool := ringLevel s evr c == ringSize s evr c

/-- The time test of R154: IRQ_NS as it stands has passed, and IRQ_NS_EXPIRE has come; IRQ_NS = 0 turns it off. -/
def ringTimed (s : State) (evr : Bool) (c : Nat) : Bool :=
  let ns := s.rg (ringReg evr c 0xC)
  (s.irq evr c).fired && ns != 0 && decide ((s.irq evr c).since + ns ≤ s.now)

/-- Whether an enabled ring meets its condition (R154). -/
def ringCond (s : State) (evr : Bool) (c : Nat) : Bool :=
  let lvl := ringLevel s evr c
  let cnt := max 1 (s.rgField (ringReg evr c 8) 0 16)
  let head := ringHead s evr c
  ringEn s evr c && (decide (cnt ≤ lvl) || (lvl != 0 && ringTimed s evr c) ||
    (s.irq evr c).marks.any (fun m => (m + 2 ^ 32 - head) % 2 ^ 32 < lvl))

/-- Places a record at TAIL of an enabled ring that has room (R147). `body` gives the bytes for a GEN bit, `mark`
says that the descriptor has IRQ set. -/
def ringPlace (s : State) (evr : Bool) (c w : Nat) (mark : Bool) (body : Nat → List Byte) : State :=
  let tail := s.rg (ringReg evr c 0x14)
  let size := ringSize s evr c
  let base := s.rg64 (ringReg evr c 0) (ringReg evr c 4)
  let wasEmpty := ringLevel s evr c == 0
  let t := recWrite s (s.rgBit (ringReg evr c 8) 31) (base + tail % size * w) (body (1 - tail / size % 2))
  let t := t.setRg (ringReg evr c 0x14) ((tail + 1) % 2 ^ 32)
  let q := t.irq evr c
  t.setIrq evr c { q with since := if wasEmpty then t.now else q.since, fired := if wasEmpty then false else q.fired,
                          marks := if mark then q.marks ++ [tail] else q.marks }

/-- An event record into an event ring: dropped and counted when the ring is full or disabled (R152). -/
def evrPlace (s : State) (e : Nat) (r : EventRec) : State :=
  if ringEn s true e && !ringFull s true e then
    ringPlace s true e 32 false (fun gen => recBytes r.stamp r.src r.seq r.type r.line gen r.ctx r.arg0 r.arg1)
  else s.countRg (Reg.evrLost e) 1

/-- The byte of EVT_ROUTE for a line 1 to 7 (Table 6.14). -/
def lineRoute (s : State) (line : Nat) : Nat :=
  if line ≤ 4 then s.rgField Reg.evtRoute0 (8 * (line - 1)) 8 else s.rgField Reg.evtRoute1 (8 * (line - 5)) 8

/-- Whether relief mode holds (R329). -/
def relief (s : State) : Bool := s.rgBit Reg.clerkCtl 31

/-- The category of CLERK_MISSEDk of an event type. -/
def missedCat (type : Nat) : Nat := if type = 0x10 then 0 else if type = 0x11 then 1 else if type = 0x12 then 2 else 3

/-- The total of CLERK_MISSED. -/
def missedTotal (s : State) : Nat := ((List.range 4).map (fun k => s.rg (Reg.clerkMissed k))).foldl (· + ·) 0

/-- Sends an event record by the ring half of its line's route (R151), and to RELIEF_RING in relief mode (R329). -/
def routeRing (s : State) (r : EventRec) : State :=
  let ro := lineRoute s r.line
  let t := if bit ro 7 then evrPlace s (bits ro 0 4) r else s
  if r.line = 2 ∧ relief s then evrPlace t (s.rgField Reg.clerkCtl 0 4) r else t

/-- The event record of a unit, as stamped (R152, R415): none when it is the unit's 33rd of this tc. -/
def stampEvent (s : State) (src : Nat) (ctx : Option (Nat × Nat)) (type line a0 a1 : Nat) :
    Option EventRec × State :=
  match takeSeq s src with
  | (q, fits, t) =>
    let r : EventRec :=
      { stamp := t.now, src := src, seq := q, type := type, line := line, unlocked := !t.rgBit Reg.ptStatus 0,
        ctx := ctx, arg0 := BitVec.ofNat 64 a0, arg1 := BitVec.ofNat 64 a1 }
    (if fits then some r else none, t)

/-- An event record is delivered as its line is routed (R151): to the ring half, and to RELIEF_RING in relief mode; to
the clerk's queue where `clerk` allows it, which a full queue counts in CLERK_MISSEDk. One that nothing delivers is
counted in EVT_UNROUTED: a CLERK half delivers nothing in relief mode (R329). `put` is the way into the clerk's queue. -/
def deliver (s : State) (r : EventRec) (put : State → EventRec → State) : State :=
  let ro := lineRoute s r.line
  if !bit ro 7 && !(bit ro 6 && !relief s) && !(r.line == 2 && relief s) then s.countRg Reg.evtUnrouted 1
  else
    let t := routeRing s r
    if bit ro 6 && !relief s then put t r else t

/-- The 33rd event record of a source in a tc: dropped, and counted in EVR_LOST (R35, R152) of the ring that its line's
RING field names, also where RING_EN is clear or the relief ring would take it (DESIGN CHOICE, log 66). -/
def dropEvent (s : State) (line : Nat) : State := s.countRg (Reg.evrLost (bits (lineRoute s line) 0 4)) 1

/-- The CLERK_BEHIND event (R328): the queue that it reports is full, so a copy for the clerk is counted as missed. -/
def eventBehind (s : State) (src type line a0 a1 : Nat) : State :=
  match stampEvent s src none type line a0 a1 with
  | (some r, t) => deliver t r (fun u r => u.countRg (Reg.clerkMissed (missedCat r.type)) 1)
  | (none, t) => dropEvent t line

/-- Puts an item into the clerk's work queue (R328): a full queue counts it in CLERK_MISSEDk, and a rise of BEHIND
writes a CLERK_BEHIND event; relief mode takes no item (R329). -/
def clerkPut (s : State) (r : EventRec) : State :=
  if relief s then s
  else if s.ras.clerkQ.length < 1024 then { s with ras := { s.ras with clerkQ := s.ras.clerkQ ++ [r] } }
  else
    let t := s.countRg (Reg.clerkMissed (missedCat r.type)) 1
    if t.rgBit Reg.clerkStatus 0 then t
    else eventBehind (t.setRgBit Reg.clerkStatus 0 true) t.srcClerk 0x31 4 (missedTotal t) 0

/-- An event (R151, R415): stamped by its source and delivered as its line is routed. -/
def event (s : State) (src : Nat) (ctx : Option (Nat × Nat)) (type line a0 a1 : Nat) : State :=
  match stampEvent s src ctx type line a0 a1 with
  | (none, t) => dropEvent t line
  | (some r, t) => deliver t r clerkPut

/-- A RAS_ERROR record (R312, Table 13.2): line 2, RAS_CAUSE bit 0. -/
def rasError (s : State) (src : Nat) (ctx : Option (Nat × Nat)) (code addr kind loc words detail : Nat) : State :=
  event (s.setRgBit Reg.rasCause 0 true) src ctx 0x10 2 (addr % 2 ^ 56 + code * 2 ^ 56)
    (loc + kind * 2 ^ 9 + words * 2 ^ 16 + detail * 2 ^ 32)

/-! ## Words of the table store (R309) -/

/-- The number of an array in LOC of a TABLE_UE record. -/
def Tab.code : Tab → Nat
  | .context => 0
  | .domain => 1
  | .frame => 2
  | .bucket => 3
  | .flag => 4
  | .generation => 5
  | .slot => 6
  | .cheque => 7
  | .program => 8

/-- The key of an entry in State.tableMark. -/
def Tab.key (k : Tab) (e : Nat) : Nat := k.code * 2 ^ 24 + e

/-- Whether an entry of a table is uncorrectable. -/
def tableBad (s : State) (k : Tab) (e : Nat) : Bool := tfind s.tableMark (k.key e) == some .ue

/-- Entries of tables are read for an operation of a source (R309): corrections are counted; the first uncorrectable entry
fails the operation (false), is counted, and gives its TABLE_UE record. -/
def tableReads (s : State) (src : Nat) (ctx : Option (Nat × Nat)) : List (Tab × Nat) → Bool × State
  | [] => (true, s)
  | e :: l => match tfind s.tableMark (e.1.key e.2) with
    | none => tableReads s src ctx l
    | some .ce => tableReads (countErrs s Reg.tableErrcnt 1 0) src ctx l
    | some .ue => (false, rasError (countErrs s Reg.tableErrcnt 0 1) src ctx 0x06 0 3 e.1.code 0 e.2)

/-- An entry of a table is written whole, with fresh check bits (R309). -/
def tableWrite (s : State) (k : Tab) (e : Nat) : State := { s with tableMark := terase s.tableMark (k.key e) }

/-! ## The gate before a meaning -/

/-- A frozen die starts nothing: a reset is asserted (R353) or a global stop holds (R362). -/
def frozen (s : State) : Bool := s.pwr.asserted || s.obs.holds

/-- The delay of a domain's wake in ns (Table 14.3). -/
def wakeDelay (s : State) (d : Nat) : Nat :=
  if d = 1 then 3000
  else if d < 34 then
    (if (List.range 8).any (fun k => s.rgBit (Reg.pwrBank (8 * (d - 2) + k)) 2) then 10000 else 400)
  else if d < 36 then 5000 else 16000

/-- The record of a wake (R345): PWR_WAKESRCd, PWR_CAUSE.WAKE and a WAKE event on line 7. -/
def wakeRec (s : State) (d kind src : Nat) : State :=
  let t := (s.setRg (Reg.pwrWakesrc d) (kind + src * 2 ^ 16)).setRgBit Reg.pwrCause 0 true
  event t t.srcClerk none 0x60 7 d (kind + src * 2 ^ 16)

/-- Starts one domain's wake, due after at least `least` ns: a down domain wakes now, an entering one wakes once its
entry is done (R340). -/
def wakeOne (s : State) (d kind src least : Nat) : State :=
  let x := s.dom d
  match x.state with
  | .down =>
    wakeRec (s.setDom d { state := .waking, due := s.now + max least (wakeDelay s d),
                          timer := s.now + s.rgField Reg.pwrCfg 0 20, expired := false, wake := none }) d kind src
  | .entering => s.setDom d { x with wake := some (kind, src) }
  | _ => s

/-- Wakes a domain, and FAB with it when FAB is down (R333, R340): a domain woken together with FAB is up when the
longer delay has passed (R343). -/
def wakeDom (s : State) (d kind src : Nat) : State :=
  if !domPresent s d || isUp s d then s
  else if d ≤ 1 then wakeOne s d kind src 0
  else
    let fabUp := isUp s 1
    wakeOne (wakeOne s 1 8 0 0) d kind src (if fabUp then 0 else 3000)

/-- A request waits at the edge of a domain, or behind a latched clamp group (R340). -/
def edgeWait (s : State) (d : Nat) (g : Option Nat) (c : Instr) : State := { s with waits := s.waits ++ [(d, g, c)] }

/-- The group that a ledger operation on a frame names when it waits behind one that waits (R82). -/
def frameGroup (f : Nat) : Nat := 128 + f

/-- The group that a request names when it stands at its handshake until the tc after this one. -/
def nextTc (s : State) : Nat := 2 ^ 40 + s.clk.tc

/-- The walks that a node has started in this tc (R78). -/
def walksNow (s : State) (node : Nat) : Nat := if s.xl.walkTc = s.clk.tc then tget 0 s.xl.walks node else 0

/-- Whether an operation that waits names a frame (Table 3.9). -/
def frameHeld (s : State) (f : Nat) : Bool :=
  s.xl.waitMaps.any (fun e => decide (e.2.first ≤ f) && decide (f < e.2.first + e.2.count))

/-- Whether what a request waits for is over. -/
def edgeReady (s : State) (w : Nat × Option Nat × Instr) : Bool :=
  !frozen s && isUp s w.1 && (match w.2.1 with
    | some g =>
      if g < 128 then !clampOn s g
      else if g < 2 ^ 40 then !frameHeld s (g - 128)
      else decide (g - 2 ^ 40 < s.clk.tc)
    | none => true)

/-- The gate of a command that acts in a domain. Under a reset nothing happens (R353). While a stop holds the command
waits at the die's edge (R369). A domain that is not up wakes, and the command waits at its edge (R340); one that the
build lacks does nothing. Otherwise the domain's activity timer restarts and the effect takes place. -/
def gate (d kind src : Nat) (c : Instr) (s : State) (eff : State → State) : Res :=
  if s.pwr.asserted then .next s
  else if s.obs.holds then .next (edgeWait s d none c)
  else if isUp s d then .next (eff (touch s d))
  else if domPresent s d then .next (edgeWait (wakeDom s d kind src) d none c)
  else .next s

/-- The gate of a time-driven event inside a domain: it wakes nothing, and waits while the domain is not up. -/
def gateIn (d : Nat) (s : State) (eff : State → State) : Res :=
  if frozen s || !isUp s d then .next s else .next (eff s)

/-- The gate of a command of an AO unit or register: a frozen die does nothing (R353, R362, R369). -/
def gateAO (s : State) (eff : State → State) : Res := if frozen s then .next s else .next (eff s)

/-- The gate of the power sequencer and the wipe logic, which run while a stop holds (R362). -/
def gateRun (s : State) (eff : State → State) : Res := if s.pwr.asserted then .next s else .next (eff s)

end Sys2Proof.Machine
end

