-- ==== Sys2Proof/Machine/Time.lean ====
section
/-! DEFINITION. Package time (Chapter 2): the local copy, slews, marks, offsets, probes, and the passing of time
(log 5). -/

namespace Sys2Proof.Machine

/-! ## The passing of time -/

/-- One sixteenth toward zero. -/
def stepDown (i : Int) : Int := if 0 < i then i - 1 else if i < 0 then i + 1 else 0

/-- The target of the die offset, in sixteenths (R52). -/
def offTarget (s : State) : Int := signed (s.rg Reg.ptDieOffset) 24

/-- One counting cycle of the local copy (R27): 16 sixteenths, and every 16 ns one sixteenth of slew (R29, R52). A slew of
the copy goes on while HOLDOVER is set, and a slew of the copy and one of the offset run side by side, so that now may
change by 2/16 ns in 16 ns (DESIGN CHOICE, log 65: R29, R30 and R52 do not say). -/
def ptTick (s : State) : State :=
  let p := s.pt
  if p.phase + 1 < 16 then { s with pt := { p with raw := p.raw + 16, phase := p.phase + 1 } }
  else
    { s with pt := { p with
        raw := if 0 < p.slew then p.raw + 17 else if p.slew < 0 then p.raw + 15 else p.raw + 16,
        slew := stepDown p.slew,
        off := p.off + (if p.off < offTarget s then 1 else if offTarget s < p.off then -1 else 0),
        phase := 0 } }

/-- tc per nanosecond in twentieths (R9, R348): P0 40, P1 32, P2 24, P3 12, BYPASS 5. -/
def tcRate (s : State) : Nat := if s.pwr.clkMode = 2 then 5 else nth 12 [40, 32, 24, 12] s.clk.point

/-- Every 4 ns the trace port sends the oldest record of its buffer, while it is not latched and no stop holds (R373). -/
def traceTick (s : State) : State :=
  match s.obs.traceBuf with
  | [] => s
  | r :: l =>
    if s.pt.phase % 4 = 0 ∧ !clampOn s 37 ∧ !s.obs.holds then
      { s with obs := { s.obs with traceBuf := l }, out := s.out ++ [.trace r] }
    else s

/-- The watchdogs' time: it stands while a stop holds, the clerk's also while FAB is not up (R366, Table 14.9). -/
def watchTick (s : State) : State :=
  if s.obs.holds then s
  else { s with ras := { s.ras with watch := s.ras.watch + 1,
                                    clerkWatch := s.ras.clerkWatch + b2n (isUp s 1) } }

/-! ## Marks (R28 to R30) -/

/-- A PT_STEP record (Table 2.2): the signed step in sixteenths and its cause. -/
def ptStepRec (s : State) (step : Int) (cause : Nat) : State := ledgerRec s 167 0x08 none (toCode step 64) cause

/-- A PT_STATUS_CHANGE event on line 2 (Table 6.6). -/
def ptStatusEvent (s : State) : State :=
  event (s.setRgBit Reg.rasCause 3 true) s.srcClerk none 0x13 2 (s.rg Reg.ptStatus) 0

/-- The correction of the copy by the error e in sixteenths (R28); each mark that finds the copy ahead by more than
65,536 ns raises its RAS event. -/
def ptCorrect (s : State) (mark : Nat) : State :=
  let e : Int := (16 * mark : Nat) - (s.pt.raw : Int)
  if !s.rgBit Reg.ptStatus 0 then
    ptStepRec (({ s with pt := { s.pt with raw := 16 * mark, slew := 0 } }).setRgBit Reg.ptStatus 0 true) e 0
  else if 1024 < e then
    ptStepRec (({ s with pt := { s.pt with raw := 16 * mark, slew := 0 } }).setRgBit Reg.ptStatus 1 true) e 1
  else
    let t := { s with pt := { s.pt with slew := e } }
    let t := if e = 0 then t else t.setRgBit Reg.ptStatus 4 true
    if e < -1048576 then
      ptStatusEvent (t.setRgBit Reg.ptStatus 3 true)
    else t

/-- A pt_sync pulse with a valid mark (R28, R30). -/
def ptMark (s : State) (mark : Nat) : State :=
  ptCorrect (({ s with pt := { s.pt with missing := 0 } }).setRgBit Reg.ptStatus 2 false) (mark % 2 ^ 64)

/-- HOLDOVER is set and the RAS event is written (R30). -/
def ptHoldover (s : State) : State := ptStatusEvent (s.setRgBit Reg.ptStatus 2 true)

/-- A missing pulse, or a mark whose check bits fail (R30): each failed mark raises the event, and a run of missing pulses
raises it once, at the second (log 17). A pulse whose mark fails is not missing. -/
def ptMissing (s : State) (bad : Bool) : State :=
  if bad then ptHoldover { s with pt := { s.pt with missing := 0 } }
  else
    let t := { s with pt := { s.pt with missing := s.pt.missing + 1 } }
    if t.pt.missing = 2 then ptHoldover t else t

/-- PT runs through a class F reset, which keeps the copy (Table 14.7); it takes no mark in another reset. -/
def ptRuns (s : State) : Bool := !s.pwr.asserted || s.pwr.last ∈ [3, 4, 5, 6, 8]

/-- PT_SYNC_MARK (R28). -/
def execPtSyncMark (mark : Nat) (s : State) : Res := if ptRuns s then .next (ptMark s mark) else .next s

/-- PT_MARK_MISSING (R30). -/
def execPtMarkMissing (bad : Bool) (s : State) : Res := if ptRuns s then .next (ptMissing s bad) else .next s

/-- PT_SLEW_END (R29): SLEWING clears once no error of the copy or the offset remains. -/
def execPtSlewEnd (s : State) : Res :=
  if ptRuns s && s.pt.slew == 0 && s.pt.off == offTarget s then .next (s.setRgBit Reg.ptStatus 4 false) else .next s

/-! ## Offsets and probes (R52, R53, R55, R398) -/

/-- A write to PT_DIE_OFFSET (R52). -/
def dieOffset (s : State) (v : Word) : State :=
  let t := s.setRg Reg.ptDieOffset (v.toNat % 2 ^ 24)
  if t.pt.off = offTarget t then t else t.setRgBit Reg.ptStatus 4 true

/-- PT_DIE_OFFSET_WRITE (R52). -/
def execPtDieOffsetWrite (v : Word) (s : State) : Res := gateAO s (fun s => dieOffset s v)

/-- A write to PT_EPOCH_OFFSET_LO, which waits for the HI half (R56). -/
def epochLo (s : State) (v : Word) : State :=
  { s with hiLatch := tset (BitVec.ofNat 32 (s.rg Reg.ptEpochOffsetLo)) s.hiLatch Reg.ptEpochOffsetLo v }

/-- A write to PT_EPOCH_OFFSET_HI applies both halves and writes an EPOCH record (R55, R56). -/
def epochHi (s : State) (v : Word) : State :=
  let lo := tget (BitVec.ofNat 32 (s.rg Reg.ptEpochOffsetLo)) s.hiLatch Reg.ptEpochOffsetLo
  let t := { s with hiLatch := terase s.hiLatch Reg.ptEpochOffsetLo }
  let t := (t.setRg Reg.ptEpochOffsetLo lo.toNat).setRg Reg.ptEpochOffsetHi v.toNat
  ledgerRec t 167 0x0B none (lo.toNat + 2 ^ 32 * v.toNat) 0

/-- PT_EPOCH_OFFSET_HI_WRITE (R55). -/
def execPtEpochOffsetHiWrite (v : Word) (s : State) : Res := gateAO s (fun s => epochHi s v)

/-- A write to PT_PROBE_CTL (R398): a GO while BUSY or for a port that is not UP is ignored. -/
def probeGo (s : State) (v : Word) : State :=
  let p := bits v.toNat 0 2
  if !bit v.toNat 31 then s.setRg Reg.ptProbeCtl p
  else if s.pt.probe.isSome || !linkUp s p then s
  else { s.setRg Reg.ptProbeCtl p with pt := { s.pt with probe := some p } }

/-- PT_PROBE_GO (R398). -/
def execPtProbeGo (v : Word) (s : State) : Res := gateAO s (fun s => probeGo s v)

/-- A sum over 64 probes by 128: half of the average. R53 does not state how a fraction of a sixteenth rounds, so it
rounds down or up by a free value (log 4). -/
def probeMean (ctr key : Nat) (x : Int) : Int :=
  if x % 128 = 0 then x / 128 else x / 128 + ((Config.freeWord ctr key).toNat % 2 : Nat)

/-- The sum of a raw time over the probes. -/
def probeSum (l : List Int) : Int := l.foldl (· + ·) 0

/-- The end of the 64 probes, with the raw times of each in sixteenths of a nanosecond (sent, received at the peer, replied,
returned): the unit averages them and returns θ and δ (R53). -/
def probeDone (s : State) (t1 t2 t3 t4 : List Int) : State :=
  match s.pt.probe with
  | none => s
  | some _ =>
    if t1.length = 64 ∧ t2.length = 64 ∧ t3.length = 64 ∧ t4.length = 64 then
      let t := { s with pt := { s.pt with probe := none }, freeCtr := s.freeCtr + 1 }
      let theta := (probeSum t1 - probeSum t2) + (probeSum t4 - probeSum t3)
      let delta := (probeSum t4 - probeSum t1) - (probeSum t3 - probeSum t2)
      (t.setRg Reg.ptProbeTheta (toCode (probeMean s.freeCtr 0 theta) 24)).setRg Reg.ptProbeDelay
        (toCode (probeMean s.freeCtr 1 delta) 24)
    else s

/-- PT_PROBE_DONE (R53). -/
def execPtProbeDone (t1 t2 t3 t4 : List Int) (s : State) : Res := gateAO s (fun s => probeDone s t1 t2 t3 t4)

end Sys2Proof.Machine
end

