-- ==== Sys2Proof/Machine/Evl.lean ====
section
/-! DEFINITION. The event ledger (R45 to R51). -/

namespace Sys2Proof.Machine

/-- The set-up test of EVL_CTL.EN (R45): a BANK or STACK PPA aligned to 32 B, and 2^n records with n = 10 to 22. The rule
does not say whether the PPA may name another die; the model accepts one, and the records go there (DESIGN CHOICE,
log 67). -/
def evlSetupOk (s : State) : Bool :=
  let a := s.rg64 Reg.evlBaseLo Reg.evlBaseHi
  let n := s.rg Reg.evlSize
  a < 2 ^ 55 && (ppaSpace a == 0 || ppaSpace a == 8) && a % 32 == 0 && 10 ≤ n && n ≤ 22

/-- A write to EVL_CTL with EN = 1 (R45, Table 2.4): the check when EN was clear; the other fields take the write. -/
def evlEnable (s : State) (v : Word) : State :=
  let f := v.toNat &&& 0xFF06
  if s.rgBit Reg.evlCtl 0 then s.setRg Reg.evlCtl (f + 1)
  else if evlSetupOk s then
    ((s.setRg Reg.evlCtl (f + 1)).setRg Reg.evlTail 0).setRg Reg.evlHead 0
  else (s.setRg Reg.evlCtl f).setRgBit Reg.evlStatus 0 true

/-- A write to EVL_CTL with EN = 0 (R48): the records that wait are dropped and counted. -/
def evlDisable (s : State) (v : Word) : State :=
  let t := s.setRg Reg.evlCtl (v.toNat &&& 0xFF06)
  let w := t.evl.waiting
  let t := { t with evl := { t.evl with waiting := [] } }
  w.foldl (fun u r => evlDrop u r.src) t

/-- Any write to EVL_CTL. -/
def evlCtlWrite (s : State) (v : Word) : State := if bit v.toNat 0 then evlEnable s v else evlDisable s v

/-- Positions a HALT ledger can still hand out; WRAP always has room (R47). R47 names a difference of exactly 2^n; a
larger one (HALT after WRAP, or HEAD written ahead) gives no position either (DESIGN CHOICE, log 68). -/
def evlRoom (s : State) : Nat :=
  if s.rgBit Reg.evlCtl 1 then
    2 ^ s.rg Reg.evlSize - (s.rg Reg.evlTail + 2 ^ 32 - s.rg Reg.evlHead) % 2 ^ 32
  else 2

/-- Writes a record at the next ledger position with its GEN bit (R46), past the SLC (R49). -/
def evlPut (s : State) (r : LedgerRec) : State :=
  let i := s.rg Reg.evlTail
  let size := 2 ^ s.rg Reg.evlSize
  (recWrite s false (s.rg64 Reg.evlBaseLo Reg.evlBaseHi + i % size * 32)
    (recBytes r.stamp r.src r.seq r.type (b2n r.unlocked) (i / size % 2) r.ctx r.arg0 r.arg1)).setRg
      Reg.evlTail ((i + 1) % 2 ^ 32)

/-- The LOSS record of a source (Table 2.2), which takes the source's next sequence; as the source's 33rd of the tc it is
dropped and counted (R35), and stays owed. -/
def evlLossRec (s : State) (src : Nat) : State :=
  match takeSeq s src with
  | (q, fits, t) =>
    if fits then
      let n := tget 0 t.evl.lost src
      let t := { t with evl := { t.evl with lost := terase t.evl.lost src } }
      evlPut t { stamp := t.now, src := src, seq := q, type := 0x09, unlocked := !t.rgBit Reg.ptStatus 0, ctx := none,
                 arg0 := BitVec.ofNat 64 n, arg1 := 0#64 }
    else evlDrop t src

/-- Takes the first record of a source from those that wait. -/
def evlTake (u : Nat) : List LedgerRec → Option LedgerRec × List LedgerRec
  | [] => (none, [])
  | r :: l =>
    if r.src = u then (some r, l)
    else match evlTake u l with
      | (x, l') => (x, r :: l')

/-- Gives the oldest waiting record of a source a ledger position, after a LOSS record where the source lost records
(R48), or drops it when HALT has no room (R47). -/
def evlPlace (s : State) (u : Nat) : State :=
  if s.rgBit Reg.evlCtl 0 then
    match evlTake u s.evl.waiting with
    | (none, _) => s
    | (some r, l) =>
      let t := { s with evl := { s.evl with waiting := l } }
      let loss := tget 0 t.evl.lost u != 0
      if evlRoom t < (if loss && (takeSeq t u).2.1 then 2 else 1) then evlDrop t u
      else evlPut (if loss then evlLossRec t r.src else t) r
  else s

/-- A write to EVL_BASE_LO, EVL_BASE_HI or EVL_SIZE: ignored with CFG_ERR when it would change the value while
EN = 1 (R45). -/
def evlSetupWrite (s : State) (o mask : Nat) (v : Word) : State :=
  if s.rgBit Reg.evlCtl 0 then
    (if s.rg o = v.toNat &&& mask then s else s.setRgBit Reg.evlStatus 0 true)
  else s.setRg o (v.toNat &&& mask)

/-- RANGE_WRITE records of a write of n bytes at a PPA (R51): one for each enabled range the segment touches. -/
def rangeRecs (s : State) (src : Nat) (ctx : Option (Nat × Nat)) (a n : Nat) : State :=
  upTo 8 (fun i t =>
    let lo := t.rg64 (Reg.evlRange (4 * i)) (Reg.evlRange (4 * i + 1))
    let hi := t.rg64 (Reg.evlRange (4 * i + 2)) (Reg.evlRange (4 * i + 3))
    if t.rgBit Reg.evlCtl (8 + i) && decide (lo < hi) && decide (a < hi) && decide (lo < a + n) && n != 0 then
      ledgerSrc t src 0x07 ctx (a / 128 * 128) (n % 2 ^ 12 + i * 2 ^ 12)
    else t) s

/-- EVL_ENABLE (R45). -/
def execEvlEnable (v : Word) (s : State) : Res := gateAO s (fun s => if bit v.toNat 0 then evlEnable s v else s)

/-- EVL_DISABLE (R48). -/
def execEvlDisable (v : Word) (s : State) : Res := gateAO s (fun s => if bit v.toNat 0 then s else evlDisable s v)

/-- EVL_RECORD_PLACE (R46). -/
def execEvlRecordPlace (src : Nat) (s : State) : Res := gateAO s (fun s => evlPlace s src)

end Sys2Proof.Machine
end

