-- ==== Sys2Proof/Machine/Prot.lean ====
section
/-! DEFINITION. Protection domains, segments, sealed banks, the frame ledger's walk and translation (Chapter 3). -/

namespace Sys2Proof.Machine

/-- What an access does (R83): a read, a write, or an atomic. -/
inductive Acc where
  | read | write | atomic
  deriving DecidableEq, Repr

/-! ## Segments (Table 3.5) -/

/-- The offset of the DOMTAB word w of a segment. -/
def segReg (d g w : Nat) : Nat := 0x60000 + d * 512 + g * 32 + 4 * w

/-- The low 64-bit word q (0 to 3) of a segment entry. -/
def segWord (s : State) (d g q : Nat) : Nat := s.rg64 (segReg d g (2 * q)) (segReg d g (2 * q + 1))

/-- Whether a segment is valid. -/
def segV (s : State) (d g : Nat) : Bool := bit (segWord s d g 0) 0
/-- KIND: 0 BANK, 1 PAGED, 2 FAR, 3 REMOTE. -/
def segKind (s : State) (d g : Nat) : Nat := bits (segWord s d g 0) 1 2
/-- SPC. -/
def segSpc (s : State) (d g : Nat) : Nat := bits (segWord s d g 0) 8 4
/-- CVA_BASE. -/
def segBase (s : State) (d g : Nat) : Nat := bits (segWord s d g 1) 0 48
/-- CVA_LIMIT. -/
def segLimit (s : State) (d g : Nat) : Nat := bits (segWord s d g 2) 0 48
/-- TARGET. -/
def segTarget (s : State) (d g : Nat) : Nat := bits (segWord s d g 3) 0 55

/-- Whether SPC is allowed for the KIND (Table 3.5). -/
def spcOk (kind spc : Nat) : Bool :=
  if kind = 0 then spc ≤ 6 else if kind = 3 then spc ≤ 6 || spc == 8 else spc == 0

/-- Whether a valid segment passes the check of R68. -/
def segOk (s : State) (d g : Nat) : Bool :=
  segBase s d g % 65536 == 0 && segLimit s d g % 65536 == 0 && segTarget s d g % 65536 == 0 &&
  decide (segBase s d g < segLimit s d g) && spcOk (segKind s d g) (segSpc s d g) &&
  !(segKind s d g == 3 && bits (segWord s d g 0) 12 4 == s.pwr.dieId)

/-- The valid segments of every valid domain, domains and segments rising, that fail R68. -/
def sealFailures (s : State) : List (Nat × Nat) :=
  (List.range 64).flatMap (fun d =>
    if s.rgBit (Reg.domCtl d) 0 then
      ((List.range 16).filter (fun g => segV s d g && !segOk s d g)).map (fun g => (d, g))
    else [])

/-- Whether PROT_SEAL is set. -/
def isSealedDie (s : State) : Bool := s.rgBit Reg.protSeal 0

/-- A write of 1 to PROT_SEAL (R68, Tables 3.10 and 3.11). -/
def sealWrite (s : State) : State :=
  if isSealedDie s then s
  else match sealFailures s with
    | [] => (s.setRg Reg.protSeal 1).setRgBit Reg.protStatus 0 true
    | (d, g) :: _ => s.setRg Reg.protStatus (2 + g * 16 + d * 256)

/-- PROT_SEAL_WRITE (R68). -/
def execProtSealWrite (v : Word) (s : State) : Res :=
  gate dFAB 7 0 (.protSealWrite v) s (fun s => if bit v.toNat 0 then sealWrite s else s)

/-- The lowest valid segment of a domain that holds a CVA (R69). -/
def findSeg (s : State) (d cva : Nat) : Option Nat :=
  (List.range 16).find? (fun g => segV s d g && decide (segBase s d g ≤ cva) && decide (cva < segLimit s d g))

/-- Whether a segment permits an access (Table 3.5): an atomic needs W where it reaches a bank, A elsewhere. -/
def segPermits (s : State) (d g : Nat) (acc : Acc) : Bool :=
  let w := segWord s d g 0
  match acc with
  | .read => bit w 3
  | .write => bit w 4
  | .atomic => if segKind s d g = 0 ∨ (segKind s d g = 3 ∧ segSpc s d g ≤ 6) then bit w 4 else bit w 5

/-- NC of a segment. -/
def segNC (s : State) (d g : Nat) : Bool := bit (segWord s d g 0) 6

/-! ## Contexts -/

/-- A context entry that is not bound. -/
def ctxEmpty : Ctx :=
  { bound := false, domain := 0, cls := 0, spin := false, asid := 0, flagBase := 0, flagCount := 0, homeNode := 0,
    kvList := 0, kvLen := 0, kvShift := 0, unbinding := false }

/-- A context entry. -/
def State.ctx (s : State) (c : Nat) : Ctx := tget ctxEmpty s.ctxs c

/-- The state with a context entry replaced. -/
def State.setCtx (s : State) (c : Nat) (x : Ctx) : State := { s with ctxs := tset ctxEmpty s.ctxs c x }

/-- Whether requests of a context are accepted: bound, and no unbind has started (R66). -/
def ctxLive (s : State) (c : Nat) : Bool := (s.ctx c).bound && !(s.ctx c).unbinding

/-- Whether a context's requests carry the sealed mark (R70). -/
def ctxMark (s : State) (c : Nat) : Bool := s.rgBit (Reg.domCtl (s.ctx c).domain) 1

/-- The context and class of a record. -/
def ctxTag (s : State) (c : Nat) : Option (Nat × Nat) := some (c, (s.ctx c).cls)

/-! ## The frame ledger (R74 to R78) -/

/-- The bucket of a key (R77). -/
def ledgerHash (asid vpn : Nat) : Nat :=
  (vpn % 32768) ^^^ (vpn / 32768 % 4096) ^^^ (asid % 32768) ^^^ ((asid / 32768 % 2) * 16384)

/-- The frames of a chain from a first slot. -/
def chainFrom (s : State) : Nat → Option Nat → List Nat
  | 0, _ => []
  | _ + 1, none => []
  | n + 1, some f => f :: chainFrom s n (s.frame f).next

/-- The chain of a bucket. -/
def chain (s : State) (h : Nat) : List Nat := chainFrom s 81920 (tget none s.xl.buckets h)

/-- Writes the NEXT links of a chain. -/
def writeLinks (s : State) : List Nat → State
  | [] => s
  | f :: r => writeLinks (s.setFrame f { s.frame f with next := r.head? }) r

/-- The state with the chain of a bucket replaced. -/
def setChain (s : State) (h : Nat) (l : List Nat) : State :=
  writeLinks { s with xl := { s.xl with buckets := tset none s.xl.buckets h l.head? } } l

/-- Links a frame at the head of its chain (R80). -/
def linkFrame (s : State) (f : Nat) : State :=
  let x := s.frame f
  let h := ledgerHash x.asid x.vpn
  setChain (s.setFrame f { x with linked := true }) h (f :: chain s h)

/-- Unlinks a frame from its chain (R81). -/
def unlinkFrame (s : State) (f : Nat) : State :=
  let x := s.frame f
  if x.linked then
    let h := ledgerHash x.asid x.vpn
    (setChain s h ((chain s h).filter (· != f))).setFrame f { x with linked := false, next := none }
  else s

/-- The linked frame of a key on its chain. -/
def keyFrame (s : State) (asid vpn : Nat) : Option Nat :=
  (chain s (ledgerHash asid vpn)).find? (fun f =>
    (s.frame f).linked && (s.frame f).asid == asid && (s.frame f).vpn == vpn)

/-- The chain entries a walk reads. -/
def walkLength (s : State) (asid vpn : Nat) : Nat :=
  let l := chain s (ledgerHash asid vpn)
  match l.findIdx? (fun f => (s.frame f).linked && (s.frame f).asid == asid && (s.frame f).vpn == vpn) with
  | some i => i + 1
  | none => l.length

/-- LEDGER_MAXCHAIN after a walk (R77). -/
def countWalk (s : State) (asid vpn : Nat) : State :=
  let n := walkLength s asid vpn
  if s.rg Reg.ledgerMaxchain < n then s.driveField Reg.ledgerMaxchain 0 32 (min n 0xFFFF) else s

/-- The tally entry of a node for a key (R78). -/
def tallyLook (s : State) (node asid vpn : Nat) : Option Tally :=
  s.xl.tally.find? (fun t => t.node == node && t.asid == asid && t.vpn == vpn)

/-- The tally set of a key (R78). -/
def tallySet (asid vpn : Nat) : Nat := vpn % 64 ^^^ asid % 64

/-- Fills a tally cache: a full set of 8 ways loses one entry, chosen by pseudo-LRU (log 4). -/
def tallyFill (s : State) (e : Tally) : State :=
  let same (t : Tally) : Bool := t.node == e.node && tallySet t.asid t.vpn == tallySet e.asid e.vpn
  let ways := s.xl.tally.filter same
  if ways.length < 8 then { s with xl := { s.xl with tally := s.xl.tally ++ [e] } }
  else
    let out := nth e ways (Config.victim s.freeCtr 8 % 8)
    { s with freeCtr := s.freeCtr + 1,
             xl := { s.xl with tally := s.xl.tally.filter (· != out) ++ [e] } }

/-- A walk starts at a node; it ends within the step that starts it (log 7), so it counts in its tc only. -/
def walkStart (s : State) (node : Nat) : State :=
  let l := if s.xl.walkTc = s.clk.tc then s.xl.walks else []
  { s with xl := { s.xl with walkTc := s.clk.tc, walks := tset 0 l node (walksNow s node + 1) } }

/-- What a lookup finds: an entry, none, or an uncorrectable word of the ledger (R309). -/
inductive Look1 where
  | hit (e : Tally)
  | miss
  | bad
  deriving DecidableEq, Repr

/-- The words of the bucket array and the frame ledger that a walk reads (R77). -/
def walkWords (s : State) (asid vpn : Nat) : List (Tab × Nat) :=
  (.bucket, ledgerHash asid vpn) ::
    ((chain s (ledgerHash asid vpn)).take (walkLength s asid vpn)).map (fun f => (.frame, f))

/-- A walk of the frame ledger for a node and a requester (R77, R309): the entry found fills the node's tally cache. -/
def walk (s : State) (src : Nat) (ctx : Option (Nat × Nat)) (node asid vpn : Nat) : Look1 × State :=
  match tableReads (countWalk (walkStart s node) asid vpn) src ctx (walkWords s asid vpn) with
  | (false, t) => (.bad, t)
  | (true, t) => match keyFrame s asid vpn with
    | none => (.miss, t)
    | some f =>
      let e : Tally := { node := node, asid := asid, vpn := vpn, frame := f, w := (s.frame f).w, a := (s.frame f).a,
                         mode := frameMode s f }
      (.hit e, tallyFill t e)

/-- A lookup of a key at a node: the tally cache first, then the walk. -/
def lookupKey (s : State) (src : Nat) (ctx : Option (Nat × Nat)) (node asid vpn : Nat) : Look1 × State :=
  match tallyLook s node asid vpn with
  | some e => (.hit e, countEvent s 0x0C node 1)
  | none => walk (countEvent s 0x0D node 1) src ctx node asid vpn

/-! ## Checks of a PPA (R59 to R63, R70) -/

/-- Far capacity in GiB: the sum of LIMIT − BASE over the valid ranges (R399). -/
def farGib (s : State) : Nat :=
  ((List.range 6).map (fun i =>
    if s.rgBit (Reg.farMapBase i) 31 then s.rgField (Reg.farMapLimit i) 0 25 - s.rgField (Reg.farMapBase i) 0 25
    else 0)).foldl (· + ·) 0

/-- The lowest valid range of FAR_MAP that covers a far offset (R295). -/
def farRange (s : State) (o : Nat) : Option Nat :=
  (List.range 6).find? (fun i => s.rgBit (Reg.farMapBase i) 31 &&
    decide (s.rgField (Reg.farMapBase i) 0 25 ≤ o / 2 ^ 30) && decide (o / 2 ^ 30 < s.rgField (Reg.farMapLimit i) 0 25))

/-- The I/O die of a far offset (R295). -/
def farDie (s : State) (o : Nat) : Nat :=
  match farRange s o with
  | some i => s.rgField (Reg.farMapBase i) 28 3
  | none => 0

/-- Whether an offset lies in a block of Table 17.1. -/
def inBlock (o : Nat) : Bool :=
  o < 0xB000 || (0xC000 ≤ o && o < 0xE000) || (0x10000 ≤ o && o < 0x14000) || (0x20000 ≤ o && o < 0x48000) ||
  (0x50000 ≤ o && o < 0x68000) || (0x80000 ≤ o && o < 0x100000) || (0x100000 ≤ o && o < 0x240000)

/-- The width test of an access of n bytes at an offset: w bytes, aligned (R60). -/
def widthSt (o n w : Nat) : Status := if n = w ∧ o % w = 0 then .ok else .faultAlign

/-- Whether an offset names a block of SLOT and CHEQUE control space (Table 3.2). -/
def slotSpaceOk (o : Nat) : Bool := o < 0x54000

/-- A BANK or alias access to a logical bank (R21, R70, R342). -/
def bankSt (s : State) (b : Nat) (mark : Bool) : Status :=
  if bankWd s b || bankSlc s b || bankRun s b == 2 || (bankSealed s b && !mark) then .faultProt else .ok

/-- A PPA access to a present frame (Table 3.8). -/
def frameSt (s : State) (f : Nat) : Status :=
  match (s.frame f).state with
  | .retired | .absent => .faultProt
  | .withdrawn => .frameWithdrawn
  | _ => .ok

/-- The check of an access of n bytes of this die's spaces (Table 3.2). -/
def ownSt (s : State) (space o n : Nat) (acc : Acc) (mark : Bool) : Status :=
  if space ≤ 6 then
    if 2 ^ 29 < o + n ∨ 2 ^ 29 ≤ o then .faultProt
    else if space ≠ 0 ∧ acc = .read then .faultProt
    else bankSt s (o / 2 ^ 21) mark
  else if space = 8 then (if framePresent s (o / 2 ^ 21) then frameSt s (o / 2 ^ 21) else .faultProt)
  else if space = 0xA then (if o < 0x20000 then widthSt o n 8 else .faultProt)
  else if space = 0xB then (if slotSpaceOk o then widthSt o n 8 else .faultProt)
  else if space = 0xC then
    if 0x400000 ≤ o ∨ acc = .read ∨ o % 4096 ≠ 0 then .faultProt else widthSt o n 8
  else if space = 0xE then (if o < 0x1000000 ∧ inBlock o then widthSt o n 4 else .faultProt)
  else if space = 0xF then (if s.obs.holds then widthSt o n 4 else .faultProt)
  else .faultProt

/-- The check at the source of an access to another die: offsets of the largest build, and widths (R83). -/
def remoteSt (space o n : Nat) (acc : Acc) : Status :=
  if space ≤ 6 then (if 2 ^ 29 < o + n ∨ (space ≠ 0 ∧ acc = .read) then .faultProt else .ok)
  else if space = 8 then (if o / 2 ^ 21 < 81920 then .ok else .faultProt)
  else if space = 0xA then (if o < 0x20000 then widthSt o n 8 else .faultProt)
  else if space = 0xB then (if slotSpaceOk o then widthSt o n 8 else .faultProt)
  else if space = 0xC then
    if 0x400000 ≤ o ∨ acc = .read ∨ o % 4096 ≠ 0 then .faultProt else widthSt o n 8
  else if space = 0xE then (if o < 0x1000000 then widthSt o n 4 else .faultProt)
  else if space = 0xF then widthSt o n 4
  else .faultProt

/-- check_ppa of R83: R59 to R63 and R70, for an access of n bytes at a PPA. A number with a bit above the 56 of Table 3.1
set is no PPA: it completes with FAULT_PROT (DESIGN CHOICE, log 69: R59 names no outcome). -/
def checkPPA (s : State) (a n : Nat) (acc : Acc) (mark : Bool) : Status :=
  if 2 ^ 56 ≤ a then .faultProt
  else if ppaFar a then
    if s.build.farKind = 0 ∨ farGib s * 2 ^ 30 ≤ bits a 0 55 ∨ (farRange s (bits a 0 55)).isNone then .faultProt
    else .ok
  else if ppaDie a = s.pwr.dieId then ownSt s (ppaSpace a) (ppaOff a) n acc mark
  else if ppaDie a ∈ s.build.dies then remoteSt (ppaSpace a) (ppaOff a) n acc
  else .faultProt

/-! ## Translation (R83) -/

/-- The result of a translation: an error, or the PPA and NC of the segment. -/
inductive Xl where
  | err (st : Status)
  | ok (ppa : Nat) (nc : Bool)
  deriving DecidableEq, Repr

/-- The PPA of a CVA through a segment that is not PAGED. -/
def segPPA (s : State) (d g cva : Nat) : Nat :=
  let t := segTarget s d g + (cva - segBase s d g)
  if segKind s d g = 0 then diePPA s.pwr.dieId (segSpc s d g) t
  else if segKind s d g = 3 then diePPA (bits (segWord s d g 0) 12 4) (segSpc s d g) t
  else farBit + t

/-- The check of a PPA that a translation made. -/
def xlCheck (s : State) (a n : Nat) (acc : Acc) (mark nc : Bool) : Xl :=
  match checkPPA s a n acc mark with
  | .ok => .ok a nc
  | st => .err st

/-- The PAGED half of a translation: the ledger lookup and its permissions. -/
def xlPaged (s : State) (src node c cva n : Nat) (acc : Acc) (nc : Bool) : Xl × State :=
  match lookupKey s src (ctxTag s c) node (s.ctx c).asid (cva / 2 ^ 21) with
  | (.miss, t) => (.err .faultXlate, t)
  | (.bad, t) => (.err .eccUncorr, t)
  | (.hit e, t) =>
    if (t.frame e.frame).state = .withdrawn then (.err .frameWithdrawn, t)
    else if acc = .write ∧ e.w = false then (.err .faultProt, t)
    else if acc = .atomic ∧ e.a = false then (.err .faultProt, t)
    else (xlCheck t (diePPA t.pwr.dieId 8 (e.frame * 2 ^ 21 + cva % 2 ^ 21)) n acc (ctxMark t c) nc, t)

/-- The entries of the context store and the domain table that a translation reads: the context's, and the 16 segments of its
domain. -/
def xlWords (s : State) (c : Nat) : List (Tab × Nat) :=
  (.context, c) :: (List.range 16).map (fun g => (.domain, (s.ctx c).domain * 16 + g))

/-- Translation of an access of n bytes of one granule of a context, by a source at a node (R83, R309). -/
def translate (s : State) (src node c cva n : Nat) (acc : Acc) : Xl × State :=
  match tableReads s src (ctxTag s c) (xlWords s c) with
  | (false, t) => (.err .eccUncorr, t)
  | (true, s) =>
    if 40960 ≤ c ∨ (s.ctx c).bound = false then (.err .faultXlate, s)
    else
      let d := (s.ctx c).domain
      match findSeg s d cva with
      | none => (.err .faultXlate, s)
      | some g =>
        if !segPermits s d g acc then (.err .faultProt, s)
        else if segKind s d g = 1 then xlPaged s src node c cva n acc (segNC s d g)
        else (xlCheck s (segPPA s d g cva) n acc (ctxMark s c) (segNC s d g), s)

/-- TALLY_WALK_DONE (R77): a walk of a node ends, filling its tally cache when it found the key. -/
def execTallyWalkDone (node asid vpn : Nat) (s : State) : Res :=
  gate dFAB 2 0 (.tallyWalkDone node asid vpn) s (fun s => match tallyLook s node asid vpn with
    | some _ => s
    | none => (walk s s.srcClerk none node asid vpn).2)

end Sys2Proof.Machine
end

