-- ==== Sys2Proof/Machine/Store.lean ====
section
/-! DEFINITION. Accesses to stored data: one granule of a bank under its ECC, alias and sealed-bank rules, one
granule of a stack, and the counts and records of errors that a requester takes. -/

namespace Sys2Proof.Machine

/-- What a request carries beside its address: its source number, the context and class of its records, the class of a
command's requests (R139), and its short deadline stamp (R37, R38), of a request without a deadline where none is given. -/
structure Rq where
  src : Nat
  ctx : Option (Nat × Nat)
  cls : Option Nat := none
  dl : Option Nat := none
  deriving DecidableEq, Repr

/-- The granule of a bank as one number of 1,024 bits. -/
def granuleOf (l : List Byte) : Granule := BitVec.ofNat 1024 (ofBytes l)

/-- The bytes of a granule. -/
def granuleBytes (g : Granule) : List Byte := toBytes 128 g.toNat

/-- The logical bank's sealed contents are held off: a wipe runs or tamper stays asserted (R359). -/
def sealHeld (s : State) (b : Nat) : Bool := bankSealed s b && (s.pwr.wiping || s.pwr.tamper)

/-- An access to a bank in RETENTION returns it to ON (R342). -/
def exitRetention (s : State) (b : Nat) : State :=
  if bankRun s b = 1 then s.setRgField (Reg.pwrBank b) 0 2 0 else s

/-- What a bank access found: its status, the failing words of the granule, the corrected words. -/
structure BankAns where
  st : Status
  ue : Nat
  ce : Nat
  data : List Byte
  deriving DecidableEq, Repr

/-- A bank access that reports an uncorrectable granule (R310). -/
def ueAns (n mask ce : Nat) : BankAns := { st := .eccUncorr, ue := mask, ce := ce, data := List.replicate n 0#8 }

/-- A read of n bytes of one granule of logical bank b at an offset in the bank (R85, R308, R310, R359). -/
def bankRead (s : State) (b off n : Nat) : BankAns :=
  if sealHeld s b then { st := .ok, ue := 0, ce := 0, data := List.replicate n 0#8 }
  else
    let a := bankAddr (bankPhys s b) off
    let g := a / 128 * 128
    let ue := markedWords s .ue g 128
    let ce := (markedWords s .ce g 128).length
    if ue.isEmpty then { st := .ok, ue := 0, ce := ce, data := s.bankMem.readN a n } else ueAns n (wordMask ue) ce

/-- A write to one granule of logical bank b through a space code (R61, R63, R307, R359). -/
def bankWrite (s : State) (space b off : Nat) (data : List WByte) : State × BankAns :=
  let ok : BankAns := { st := .ok, ue := 0, ce := 0, data := [] }
  if sealHeld s b then (s, { ok with st := .faultProt })
  else if space = 0 then
    match bankStore s b off data with
    | (t, []) => (t, ok)
    | (t, left) => (t, ueAns 0 (wordMask left) 0)
  else if off % laneBytes space ≠ 0 ∨ data.length % laneBytes space ≠ 0 ∨ !lanesWhole space data then
    (s, { ok with st := .faultAlign })
  else
    let r := bankRead s b off data.length
    if r.ue ≠ 0 then (s, ueAns 0 r.ue r.ce)
    else ((bankStore s b off (aliasBytes space r.data data)).1, { ok with ce := r.ce })

/-- The window of corrections that the time has reached (R313): fixed windows of 2^30 ns of PT. -/
def ceRoll (s : State) : State :=
  let w := s.now / 2 ^ 30 * 2 ^ 30
  if s.ras.ceStart = w then s else { s with ras := { s.ras with ceWin := [], ceLogged := [], ceStart := w } }

/-- Counts corrections of a physical bank in the current window, with the BANK_CE_LIMIT record (R308, R313). -/
def takeCe (s : State) (src : Nat) (ctx : Option (Nat × Nat)) (p a n : Nat) : State :=
  if n = 0 then s
  else
    let t := countBankErr (ceRoll s) p n 0
    let w := tget 0 t.ras.ceWin p + n
    let lim := t.rgField Reg.rasCfg 24 8
    let t := { t with ras := { t.ras with ceWin := tset 0 t.ras.ceWin p w } }
    if lim ≠ 0 ∧ lim ≤ w ∧ ¬ p ∈ t.ras.ceLogged then
      rasError { t with ras := { t.ras with ceLogged := t.ras.ceLogged ++ [p] } } src ctx 0x01 a 1 p 0 w
    else t

/-- A requester takes what a read found at the check bits (R308, R311): the counts of a bank, and the record of an
uncorrectable read. -/
def takeNow (s : State) (k : Took) : State :=
  let t := if k.kind = 1 then takeCe s k.src k.ctx k.loc k.addr k.ce else s
  if k.words = 0 then t
  else rasError (if k.kind = 1 then countBankErr t k.loc 0 1 else t) k.src k.ctx k.code k.addr k.kind k.loc k.words 0

/-- What a read found is taken at once, or, while the front of a program reads, kept for its back (R180, R308, R311). -/
def takeRead (s : State) (k : Took) : State :=
  match s.taking with
  | none => takeNow s k
  | some l => if k.words = 0 ∧ k.ce = 0 then s else { s with taking := some (l ++ [k]) }

/-- The requester takes what a bank access found (R308, R311): counts, and the BANK_UE record. -/
def takeBank (s : State) (rq : Rq) (b off : Nat) (r : BankAns) : State :=
  takeRead s { src := rq.src, ctx := rq.ctx, code := 0x02, addr := diePPA s.pwr.dieId 0 (b * 2 ^ 21 + off / 128 * 128),
               kind := 1, loc := bankPhys s b, words := r.ue, ce := r.ce }

/-! ## Stacks (R72, R73, R283) -/

/-- Whether the build has two stacks. -/
def twoStacks (s : State) : Bool := s.build.nStacks == 2

/-- The lower die channel number above a node (R17, Table 1.2). -/
def nodeChan (n : Nat) : Nat := 32 * (n % 8 / 4) + 2 * (n / 8 * 4 + n % 4)

/-- The node above which a die channel lies (R17). -/
def chanNode (g : Nat) : Nat := let c := g % 32 / 2; c / 4 * 8 + 4 * (g / 32) + c % 4

/-- The die channel and channel offset of a STACK offset (Table 3.6, R73). -/
def stackPlace (s : State) (o : Nat) : Nat × Nat :=
  let f := o / 2 ^ 21
  let j := f % 64
  let G := f / 64
  let k := o % 2 ^ 21 / 512
  let b := o % 512
  let m := frameMode s f
  if twoStacks s then
    if m = 0 then (nodeChan (j / 2) + k % 2, G * 2 ^ 21 + j % 2 * 2 ^ 20 + k / 2 * 512 + b)
    else if m = 1 then (32 * (j / 32) + k % 32, G * 2 ^ 21 + j % 32 * 65536 + k / 32 * 512 + b)
    else (k % 64, G * 2 ^ 21 + j * 32768 + k / 64 * 512 + b)
  else if m = 0 then
    let i := j / 4
    (nodeChan (i / 4 * 8 + i % 4) + k % 2, G * 2 ^ 22 + j % 4 * 2 ^ 20 + k / 2 * 512 + b)
  else (k % 32, G * 2 ^ 22 + j * 65536 + k / 32 * 512 + b)

/-- The frame that holds a channel offset of a die channel (R283). -/
def frameOf (s : State) (g off : Nat) : Nat :=
  let n := chanNode g
  if twoStacks s then
    let G := off / 2 ^ 21
    let w := off % 2 ^ 21
    let m := frameMode s (64 * G)
    64 * G + (if m = 2 then w / 32768 else if m = 1 then 32 * (g / 32) + w / 65536 else 2 * n + w / 2 ^ 20)
  else
    let G := off / 2 ^ 22
    let w := off % 2 ^ 22
    64 * G + (if frameMode s (64 * G) = 0 then 4 * (n / 8 * 4 + n % 8) + w / 2 ^ 20 else w / 65536)

/-- Whether a frame of group mode m interleaves over a die channel (R294). -/
def frameOver (s : State) (m f g : Nat) : Bool :=
  let j := f % 64
  if twoStacks s then
    if m = 0 then chanNode g == j / 2 else if m = 1 then j / 32 == g / 32 else true
  else if m = 0 then chanNode g == j / 4 / 4 * 8 + j / 4 % 4 else true

/-- Whether GW_WITHDRAWN names a die channel (R294). -/
def chanWithdrawn (s : State) (g : Nat) : Bool :=
  if g < 32 then s.rgBit Reg.gwWithdrawnLo g else s.rgBit Reg.gwWithdrawnHi (g - 32)

/-- Whether a frame interleaves over a withdrawn channel (R294). -/
def frameMasked (s : State) (m f : Nat) : Bool := (List.range 64).any (fun g => chanWithdrawn s g && frameOver s m f g)

/-- The status of an access to a frame: Table 3.8 with the mask of R294. -/
def stackSt (s : State) (f : Nat) : Status :=
  if (s.frame f).state = .retired then .faultProt
  else if frameMasked s (frameMode s f) f then .frameWithdrawn
  else frameSt s f

/-- Whether the controller marks the 64 B piece of a STACK offset uncorrectable: it lies in a reported row (R321). -/
def stackBad (s : State) (o : Nat) : Bool :=
  let (g, x) := stackPlace s o
  s.edge.badRows.any (fun r => r.1 == g && (r.2 / 64 == x / 64 || Config.sameRow g r.2 x))

/-- A read of n bytes of one granule of a stack at a STACK offset (R281, R310). -/
def stackRead (s : State) (o n : Nat) : BankAns :=
  let g := o / 128 * 128
  let m := b2n (stackBad s g) + 2 * b2n (stackBad s (g + 64))
  if m = 0 then { st := .ok, ue := 0, ce := 0, data := s.stackMem.readN o n }
  else { st := .eccUncorr, ue := m, ce := 0, data := List.replicate n 0#8 }

/-- A write to one granule of a stack, mirrored into the rescue frame of a retiring frame (R323). -/
def stackWrite (s : State) (o : Nat) (data : List WByte) : State :=
  let t := { s with stackMem := s.stackMem.writeE o data }
  match s.ras.rescue with
  | some r =>
    if o / 2 ^ 21 = r.frame then
      { t with stackMem := t.stackMem.writeE (r.rescue * 2 ^ 21 + o % 2 ^ 21) data }
    else t
  | none => t

/-- The requester takes an uncorrectable stack read: a STACK_UE record (R311, Table 13.3). -/
def takeStack (s : State) (rq : Rq) (o : Nat) (r : BankAns) : State :=
  takeRead s { src := rq.src, ctx := rq.ctx, code := 0x04, addr := diePPA s.pwr.dieId 8 (o / 128 * 128), kind := 2,
               loc := (stackPlace s o).1, words := r.ue, ce := 0 }

/-- The requester takes a poisoned far read: a FAR_UE record with the I/O die (R295, R311, Table 13.3). -/
def takeFar (s : State) (rq : Rq) (a ue : Nat) : State :=
  takeRead s { src := rq.src, ctx := rq.ctx, code := 0x05, addr := a, kind := 5, loc := farDie s (bits a 0 55), words := ue,
               ce := 0 }

/-! ## One access to BANK, alias, STACK, far or another die's space -/

/-- The class of a request: its own, its context's, or the unit's field of REGU_SYSCLASS (R112, Table 5.5). -/
def rqClass (s : State) (rq : Rq) : Nat :=
  match rq.cls, rq.ctx with
  | some c, _ => c
  | none, some c => c.2
  | none, none => s.rgField Reg.reguSysclass (if rq.src % 256 = 167 then 4 else if rq.src % 256 = 168 then 8 else 0) 4

/-- The class of the command unit's ring, completion and event traffic (R112, R129). -/
def cmduClass (s : State) : Nat := s.rgField Reg.reguSysclass 0 4

/-- The boost level of a class (R121). -/
def boostOf (s : State) (c : Nat) : Nat := tget 0 s.regu.boost c

/-- The pull-in of a short stamp (R122). -/
def pullIn (s : State) (c short : Nat) : Nat :=
  let b := boostOf s c
  let r := remaining s.now short
  if b = 0 ∨ r ≤ 0 then short else (s.now + r.toNat / 2 ^ b) % 2 ^ 24

/-- The stamp that arbitration sees of a request issued now (R38, R122). -/
def rqStamp (s : State) (rq : Rq) : Nat := pullIn s (rqClass s rq) (rq.dl.getD (shortStamp s.now 0))

/-- Whether a die-link port is quarantined (R110). -/
def portQuar (s : State) (p : Nat) : Bool := s.rgBit (Reg.meshQuar 5) (2 + p)

/-- The die-link port that leads to an I/O die (R299, R300, R301). -/
def ioPort (s : State) (i : Nat) : Nat :=
  let pos := s.rgField (Reg.ioAttach i) 0 4
  if pos = s.pwr.dieId then s.rgField (Reg.ioAttach i) 5 2 else routePort s pos

/-- The I/O die of host traffic (R299). -/
def hostDie (s : State) : Nat := s.rgField Reg.hostRoute 0 3

/-- The die-link port of host traffic. -/
def hostPort (s : State) : Nat := ioPort s (hostDie s)

/-- The die-link port by which an access to the far tier or another die leaves (R296, R301). -/
def extPort (s : State) (a : Nat) : Nat := if ppaFar a then ioPort s (farDie s (bits a 0 55)) else routePort s (ppaDie a)

/-- Whether an access that leaves the die goes through a quarantined port (R110). -/
def routeQuar (s : State) (a : Nat) : Bool :=
  (ppaFar a || ppaDie a != s.pwr.dieId) && portQuar s (extPort s a)

/-- A request reaches a domain: its activity timer restarts, or it wakes (R338, R340). -/
def reach (s : State) (rq : Rq) (d : Nat) : State := if isUp s d then touch s d else wakeDom s d 2 rq.src

/-- The granule of a write of enabled bytes at an address within it. -/
def spreadBytes (a : Nat) (data : List WByte) : Granule × Enables :=
  let k := a % 128
  (BitVec.ofNat 1024 (ofBytes (data.map (·.1)) * 2 ^ (8 * k)),
   BitVec.ofNat 128 ((data.zipIdx.map (fun e => b2n e.1.2 * 2 ^ e.2)).sum * 2 ^ k))

/-- A request of one granule leaves for an I/O die or another die (R37, R302): on the lane of its class, with its stamp. -/
def requestOut (s : State) (rq : Rq) (p die : Nat) (wr : Bool) (a : Nat) (d : Granule × Enables) : State :=
  linkOut s p (.link p die (rqClass s rq) rq.src wr (rqStamp s rq) a d.1 d.2)

/-- A far access of one granule leaves as 64 B transfers (R296): both halves of a read, the halves of a write that have an
enabled byte. An I/O die i is named as die 16 + i. -/
def farOut (s : State) (rq : Rq) (wr : Bool) (a : Nat) (d : Granule × Enables) : State :=
  let half (h : Nat) : Nat := bits d.2.toNat (64 * h) 64
  ((List.range 2).filter (fun h => !wr || half h != 0)).foldl (fun t h =>
    requestOut t rq (extPort t a) (16 + farDie t (bits a 0 55)) wr (a / 128 * 128 + 64 * h)
      (d.1, BitVec.ofNat 128 (half h * 2 ^ (64 * h)))) s

/-- An access of one granule leaves the die, with its counts (Table 15.7): far bytes, or the granule that a read brings
back; what it sends is counted as it goes. -/
def extOut (s : State) (rq : Rq) (wr : Bool) (a n : Nat) (d : Granule × Enables) : State :=
  if ppaFar a then countEvent (farOut s rq wr a d) 0x0B (b2n wr) n
  else
    let t := requestOut s rq (routePort s (ppaDie a)) (ppaDie a) wr a d
    if wr then t else countEvent t 0x0A (routePort s (ppaDie a) * 16 + rqClass s rq) 1

/-- An access of a request is noted while its segments are found. -/
def noteAccess (s : State) (host wr : Bool) (a n : Nat) : State :=
  match s.accesses with
  | none => s
  | some l => { s with accesses := some (l ++ [{ host := host, wr := wr, addr := a, n := n }]) }

/-- A read of n bytes of host memory (R165, R299). -/
def hostRead (s : State) (rq : Rq) (a n : Nat) : State × Status × List Byte :=
  if portQuar s (hostPort s) then (s, .quarantined, List.replicate n 0#8)
  else
    let t := requestOut (reach (noteAccess s true false a n) rq dEDGE) rq (hostPort s) (16 + hostDie s) false a (0#1024, 0#128)
    (countEvent t 0x0A (hostPort s * 16 + rqClass s rq) 1, .ok, s.extMem.readN (hostKey a) n)

/-- A write of enabled bytes to host memory (R165, R299). -/
def hostWrite (s : State) (rq : Rq) (a : Nat) (data : List WByte) : State × Status :=
  if portQuar s (hostPort s) then (s, .quarantined)
  else
    let t := noteAccess s true true a data.length
    let t := requestOut (reach t rq dEDGE) rq (hostPort s) (16 + hostDie s) true a (spreadBytes a data)
    ({ t with extMem := t.extMem.writeE (hostKey a) data }, .ok)

/-- A read of n bytes of one granule at a checked PPA, past the SLC, with the errors its requester takes. -/
def memRead (s : State) (rq : Rq) (a n : Nat) : State × Status × List Byte :=
  if routeQuar s a then (s, .quarantined, List.replicate n 0#8)
  else if ppaFar a || ppaDie a != s.pwr.dieId then
    (extOut (reach (noteAccess s false false a n) rq dEDGE) rq false a n (0#1024, 0#128), .ok, s.extMem.readN a n)
  else if ppaSpace a = 8 then
    match stackSt s (ppaOff a / 2 ^ 21) with
    | .ok =>
      let r := stackRead s (ppaOff a) n
      let g := (stackPlace s (ppaOff a)).1
      let t := reach (noteAccess s false false a n) rq (dSG (g / 32))
      (takeStack (countEvent t 0x07 g n) rq (ppaOff a) r, r.st, r.data)
    | st => (s, st, List.replicate n 0#8)
  else
    let b := ppaOff a / 2 ^ 21
    let off := ppaOff a % 2 ^ 21
    let t := exitRetention (reach (noteAccess s false false a n) rq (dHome (b / 8))) b
    let t := finishHalf (countEvent t 0x01 b 1) b
    let r := bankRead t b off n
    (takeBank t rq b off r, r.st, r.data)

/-- A write of one granule to the far tier or another die, whose banks combine an alias write as this die's do. -/
def extWrite (s : State) (a : Nat) (data : List WByte) : State × Status :=
  if ppaFar a || ppaSpace a = 0 || ppaSpace a = 8 then ({ s with extMem := s.extMem.writeE a data }, .ok)
  else
    let sp := ppaSpace a
    let k := diePPA (ppaDie a) 0 (ppaOff a)
    if a % laneBytes sp ≠ 0 ∨ data.length % laneBytes sp ≠ 0 ∨ !lanesWhole sp data then (s, .faultAlign)
    else ({ s with extMem := s.extMem.writeE k (aliasBytes sp (s.extMem.readN k data.length) data) }, .ok)

/-- A write of enabled bytes of one granule at a checked PPA, past the SLC, with the errors its requester takes. -/
def memWrite (s : State) (rq : Rq) (a : Nat) (data : List WByte) : State × Status :=
  if routeQuar s a then (s, .quarantined)
  else if ppaFar a || ppaDie a != s.pwr.dieId then
    extWrite (extOut (reach (noteAccess s false true a data.length) rq dEDGE) rq true a data.length (spreadBytes a data)) a
      data
  else if ppaSpace a = 8 then
    match stackSt s (ppaOff a / 2 ^ 21) with
    | .ok =>
      let g := (stackPlace s (ppaOff a)).1
      let t := reach (noteAccess s false true a data.length) rq (dSG (g / 32))
      (stackWrite (countEvent t 0x08 g data.length) (ppaOff a) data, .ok)
    | st => (s, st)
  else
    let b := ppaOff a / 2 ^ 21
    let off := ppaOff a % 2 ^ 21
    let t := exitRetention (reach (noteAccess s false true a data.length) rq (dHome (b / 8))) b
    let t := finishHalf (countEvent t 0x01 b (if ppaSpace a = 0 then 1 else 2)) b
    match bankWrite t (ppaSpace a) b off data with
    | (u, r) => (takeBank u rq b off r, r.st)

/-- A write of one granule by a unit that passes the SLC (R234, R238). -/
def passWrite (s : State) (rq : Rq) (a : Nat) (data : List WByte) : State × Status :=
  match memWrite s rq a data with
  | (t, .ok) => (slcPassing t a, .ok)
  | r => r

/-- The segments of a list of written granule addresses (R96): runs of consecutive granules that cross no 2 KiB, on
STACK addresses no 512 B, boundary. The first operand is the run being gathered, its address and granules. -/
def segRuns : Option (Nat × Nat) → List Nat → List (Nat × Nat)
  | none, [] => []
  | some r, [] => [r]
  | none, a :: l => segRuns (some (a, 1)) l
  | some (b, n), a :: l =>
    let w := if ¬ ppaFar a ∧ ppaSpace a = 8 then 512 else 2048
    if a = b + 128 * n ∧ a / w = b / w then segRuns (some (b, n + 1)) l
    else (b, n) :: segRuns (some (a, 1)) l

/-- The RANGE_WRITE records of a request's segments, from the granules it wrote (R51). -/
def runRecs (s : State) (rq : Rq) (l : List Nat) : State :=
  (segRuns none l).foldl (fun t r => rangeRecs t rq.src rq.ctx r.1 (128 * r.2)) s

end Sys2Proof.Machine
end

