-- ==== Sys2Proof/Machine/Regu.lean ====
section
/-! DEFINITION. Regulation (Chapter 5): purses, windows, holds, boosts, reservations, tags and class counters. -/

namespace Sys2Proof.Machine

/-! ## Channels -/

/-- A physical channel at reset (R284): ACTIVE with its die channel number, the spare SPARE_IDLE, an absent stack's
ABSENT. -/
def chanReset (s : State) (k : Nat) : Chan :=
  let st := k / 64
  let c := k % 64
  { state := if st < s.build.nStacks then (if c < 32 then .active else if c = 32 then .spareIdle else .absent)
             else .absent,
    die := if st < s.build.nStacks ∧ c < 32 then some (32 * st + c) else none,
    entries := [], reads := [], order := 0, draining := false, e := 0, b := 0, kept := none, went := 0, level := 0,
    levelAt := 0, wasMirror := false, headTc := none }

/-- Channel c of stack st. -/
def State.chan (s : State) (st c : Nat) : Chan := tget (chanReset s (64 * st + c)) s.edge.chans (64 * st + c)

/-- The state with channel c of stack st replaced. -/
def State.setChan (s : State) (st c : Nat) (x : Chan) : State :=
  { s with edge := { s.edge with chans := tset (chanReset s (64 * st + c)) s.edge.chans (64 * st + c) x } }

/-- The local channel of a stack that carries a die channel number. -/
def chanOfDie (s : State) (g : Nat) : Option Nat :=
  (List.range 33).find? (fun c => (s.chan (g / 32) c).die == some g && (s.chan (g / 32) c).state != .replaced)

/-- Whether a channel counts in D_s (Table 12.2). -/
def inService (x : Chan) : Bool :=
  x.die.isSome && (x.state == .active || x.state == .noticed || x.state == .retraining || x.state == .mirror)

/-! ## Class counters (R127) -/

/-- Adds to counter i of class c: 0 to 6 as Table 5.2, 7 LAT_COUNT, 8 LATE_CNT. -/
def classCount (s : State) (c i n : Nat) : State :=
  let k := 16 * c + i
  let v := tget 0 s.regu.counters k + n
  let v := if i = 8 then min v 65535 else if i = 7 then v % 2 ^ 32 else v % 2 ^ 48
  { s with regu := { s.regu with counters := tset 0 s.regu.counters k v }, hw := s.hwCount (2 ^ 20 + k) n }

/-- A write to REGU_CNT_CLR: the counters of every class whose bit is 1 return to 0, but for what they counted in this tc
(R12, R127). -/
def classClear (s : State) (v : Nat) : State :=
  let keep (t : Table Nat) (k : Nat) : Table Nat := if bit v (k / 16) then tset 0 t k (s.counted (2 ^ 20 + k)) else t
  { s with regu := { s.regu with counters := (List.range 256).foldl keep s.regu.counters } }

/-- REGU_CNT_CLR_WRITE (R127). -/
def execReguCntClrWrite (v : Word) (s : State) : Res := gate dFAB 7 0 (.reguCntClrWrite v) s (fun s => classClear s (v.toNat % 2 ^ 16))

/-! ## Reservations (R123 to R125) -/

/-- REGU_CTL.WINDOW: w, other values than 8 to 16 acting as 10 (Table 5.3). -/
def windowExp (s : State) : Nat :=
  let w := s.rgField Reg.reguCtl 8 5
  if 8 ≤ w ∧ w ≤ 16 then w else 10

/-- A channel's rate in tenths of GB/s: min(192, 128 B × tclk) (R19). -/
def chanRate (s : State) : Nat := if s.pwr.clkMode = 2 then 320 else nth 768 [1920, 1920, 1536, 768] s.clk.point

/-- Channels of a stack in service. -/
def chansInService (s : State) (st : Nat) : Nat := ((List.range 33).filter (fun c => inService (s.chan st c))).length

/-- L_s = floor(0.9 × D_s) in GB/s (R123). -/
def admitLimit (s : State) (st : Nat) : Nat := 9 * (chansInService s st * chanRate s) / 100

/-- RSVc,s, committed. -/
def rsv (s : State) (c st : Nat) : Nat := s.rgField (Reg.classRsv c) (16 * st) 12

/-- EFFc,s, effective. -/
def rsvEff (s : State) (c st : Nat) : Nat := s.rgField (Reg.classRsvEff c) (16 * st) 12

/-- The sum of the committed reservations of a stack. -/
def rsvSum (s : State) (st : Nat) : Nat := ((List.range 16).map (fun c => rsv s c st)).foldl (· + ·) 0

/-- The effective reservations of a stack, class 15 cut first (R125): from class c − 1 down, with an excess left. -/
def effFrom (s : State) (st : Nat) : Nat → Nat → List (Nat × Nat)
  | 0, _ => []
  | c + 1, excess =>
    let cut := min excess (rsv s c st)
    (c, rsv s c st - cut) :: effFrom s st c (excess - cut)

/-- SHORTFALLs, in full. -/
def shortfall (s : State) (st : Nat) : Nat := if st = 0 then s.regu.short.1 else s.regu.short.2

/-- The key of the meter of class c at stack st. -/
def meterKey (st c : Nat) : Nat := 16 * st + c

/-- A meter above its new value × 2^w is cut to it at once (R125). -/
def cutMeters (s : State) : State :=
  let m := s.regu.meter.map (fun x => (x.1, min x.2 (rsvEff s (x.1 % 16) (x.1 / 16) * 2 ^ windowExp s)))
  { s with regu := { s.regu with meter := m.filter (fun x => x.2 != 0) } }

/-- The effective-reservation rule (R125), run whenever D_s or a reservation changes. A shortfall above the 12 bits of its
field shows in REGU_SHORTFALL modulo 4,096 (DESIGN CHOICE, log 70: R125 gives no value); rises are judged on the full sums. -/
def rescale (s : State) : State :=
  let eff (st : Nat) := effFrom s st 16 (rsvSum s st - admitLimit s st)
  let put (t : State) (st : Nat) := (eff st).foldl (fun u p => u.setRgField (Reg.classRsvEff p.1) (16 * st) 12 p.2) t
  let t := put (put s 0) 1
  let sf (st : Nat) := ((eff st).map (fun p => rsv s p.1 st - p.2)).foldl (· + ·) 0
  let t := cutMeters { t.setRg Reg.reguShortfall (sf 0 % 4096 + sf 1 % 4096 * 65536) with
    regu := { t.regu with short := (sf 0, sf 1) } }
  let rose := shortfall s 0 < sf 0 || shortfall s 1 < sf 1
  let back := sf 0 + sf 1 == 0 && 0 < shortfall s 0 + shortfall s 1
  if rose then
    event ((t.setRgBit Reg.reguStatus 1 true).countRg Reg.reguScaleCount 1) t.srcClerk none 0x22 3
      (t.rg Reg.reguShortfall) 0
  else if back then event (t.setRgBit Reg.reguStatus 3 true) t.srcClerk none 0x23 3 0 0
  else t

/-! ## Tags (R200 to R202) -/

/-- Tag paths: 0 the stacks, 1 the far tier, 2 + p die-link port p. -/
def tagKey (path : Nat) (src : Option Nat) : Nat :=
  match src with
  | none => 8192 * path
  | some u => 8192 * path + u + 1

/-- Tags in use on a path, by all sources or one. -/
def tagsUsed (s : State) (path : Nat) (src : Option Nat) : Nat := tget 0 s.float.tags (tagKey path src)

/-- The tags of a path (R4). -/
def tagPool (path : Nat) : Nat := if path = 0 then 16384 else if path = 1 then 4096 else 2048

/-- The cap of one source on a path (R202, Table 8.7): FAR and STACK hold it minus 1. -/
def tagCap (s : State) (path : Nat) : Nat :=
  if path = 0 then s.rgField Reg.floatCap 0 12 + 1
  else if path = 1 then s.rgField Reg.floatCap 12 8 + 1 else max 1 (s.rgField Reg.floatCap 20 10)

/-- Whether n tags of a path are free for a source (R200, R202). -/
def tagsFree (s : State) (path src n : Nat) : Bool :=
  tagsUsed s path none + n ≤ tagPool path &&
  (tagsUsed s path (some src) + n ≤ tagCap s path || tagsUsed s path (some src) == 0)

/-- The FLOAT_PEAK register of a path. -/
def peakReg (path : Nat) : Nat :=
  if path = 0 then Reg.floatPeakStack else if path = 1 then Reg.floatPeakFar else Reg.floatPeakLink (path - 2)

/-- Takes n tags of a path. -/
def takeTags (s : State) (path src n : Nat) : State :=
  let all := tagsUsed s path none + n
  let t := { s with float := { s.float with
    tags := tset 0 (tset 0 s.float.tags (tagKey path none) all) (tagKey path (some src))
      (tagsUsed s path (some src) + n) } }
  if t.rg (peakReg path) < all then t.driveField (peakReg path) 0 32 all else t

/-- Frees n tags of a path. -/
def freeTags (s : State) (path src n : Nat) : State :=
  { s with float := { s.float with
    tags := tset 0 (tset 0 s.float.tags (tagKey path none) (tagsUsed s path none - n)) (tagKey path (some src))
      (tagsUsed s path (some src) - n) } }

/-! ## Holds (R117) -/

/-- RELEASE_LEVEL, below HOLD_LEVEL. -/
def releaseLevel (s : State) : Nat :=
  let h := s.rgField Reg.reguHold 0 4
  let r := s.rgField Reg.reguHold 4 4
  if r < h then r else h - 1

/-- Whether the hold of a path stands after a change, given whether it stood (Table 5.1): die channels 0 to 63, the
far path 64, die-link ports 65 to 68. -/
def holdNow (s : State) (path : Nat) (was : Bool) : Bool :=
  if path < 64 then
    match chanOfDie s path with
    | none => false
    | some c =>
      let x := s.chan (path / 32) c
      if x.state = .retraining then true
      else if s.rgField Reg.reguHold 0 4 ≤ x.level then true
      else was && decide (releaseLevel s < x.level)
  else if path = 64 then s.rgField Reg.reguHold 8 12 ≤ tagsUsed s 1 none
  else s.rgField Reg.reguHold 20 12 ≤ tagsUsed s (path - 63) none

/-- Sets or clears the hold of one path (R117). -/
def refreshHold (s : State) (path : Nat) : State :=
  if holdNow s path (path ∈ s.regu.holds) then { s with regu := { s.regu with holds := addMem path s.regu.holds } }
  else { s with regu := { s.regu with holds := delMem path s.regu.holds } }

/-- A write to REGU_HOLD changes the thresholds of every path (R117). -/
def refreshHolds (s : State) : State := upTo 70 (fun path t => refreshHold t path) s

/-- The hold path of a tag path and target. -/
def holdPath (s : State) (target tagPath : Nat) : Nat :=
  if tagPath = 0 then (stackPlace s (ppaOff target)).1 else 63 + tagPath

/-! ## Windows (R115, R119 to R122) -/

/-- The new boost level from a window's sum and count (R121). -/
def newBoost (target b sum n : Nat) : Nat :=
  if target = 0 then 0
  else if n = 0 then b - 1
  else if 3 * target * n ≤ 4 * sum then min (b + 1) 3
  else if 2 * sum < target * n then b - 1
  else b

/-- Updates the boost level of every class and clears the samples (R121). -/
def boostUpdate (s : State) : State :=
  let nb (c : Nat) :=
    newBoost (s.rgField (Reg.classCfg c) 0 20) (boostOf s c) (tget 0 s.regu.sampleSum c) (tget 0 s.regu.sampleCnt c)
  let rose := (List.range 16).any (fun c => boostOf s c == 0 && nb c != 0)
  let boosts := (List.range 16).foldl (fun t c => tset 0 t c (nb c)) s.regu.boost
  let t := { s with regu := { s.regu with boost := boosts, sampleSum := [], sampleCnt := [] } }
  let t := t.setRg Reg.reguBoost ((List.range 16).map (fun c => nb c * 4 ^ c)).sum
  if rose then t.setRgBit Reg.reguStatus 2 true else t

/-- The words of the PURSE window at offset 0 (ALLOW) or 4 (OD_CAP) of the entries that are not at reset. -/
def purseWords (s : State) (w : Nat) : Table Nat :=
  (s.regs.filter (fun c => 0x40000 ≤ c.1 && c.1 < 0x45000 && c.1 % 8 == w)).map
    (fun c => ((c.1 - 0x40000) / 8, c.2.toNat))

/-- Loads every reservation meter with EFF × 2^w (R124). -/
def loadMeters (s : State) : State :=
  let m := (List.range 32).foldl (fun t k => tset 0 t k (rsvEff s (k % 16) (k / 16) * 2 ^ windowExp s)) ([] : Table Nat)
  { s with regu := { s.regu with meter := m } }

/-- A window boundary (R115, R119, R121, R124): allowances written since take effect, balances reload, overdraft use
returns to 0, charging follows EN. -/
def windowStart (s : State) : State :=
  let t := { s with regu := { s.regu with
    window := s.now / 2 ^ windowExp s, allow := purseWords s 0, balance := purseWords s 0, odCap := purseWords s 4,
    odUsed := [], charging := s.rgBit Reg.reguCtl 0 } }
  boostUpdate (loadMeters t)

/-- A boundary that is due takes place: now lies in a later window than the last boundary's (R115). -/
def windowDue (s : State) : State := if s.regu.window < s.now / 2 ^ windowExp s then windowStart s else s

/-- WINDOW_BOUNDARY (R115). -/
def execWindowBoundary (s : State) : Res := gateAO s windowDue

/-- A write to REGU_CTL (R119): WINDOW only while EN is 0; the windows of a new length begin at the multiples of it, the
next one at the end of the one that holds now (R115). -/
def reguCtlWrite (s : State) (v : Word) : State :=
  let x := v.toNat
  let t := if s.rgBit Reg.reguCtl 0 then s else s.setRgField Reg.reguCtl 8 5 (bits x 8 5)
  let t := if windowExp t = windowExp s then t else { t with regu := { t.regu with window := t.now / 2 ^ windowExp t } }
  let t := t.setRgBit Reg.reguCtl 0 (bit x 0)
  if bit x 0 then t else { t with regu := { t.regu with charging := false } }

/-! ## The decision at issue (R114, R116 to R118, R200) -/

/-- What the issue point knows of a segment: the unit of this die that makes it (past 255 for another die's), its source,
its class, its tag path (none toward this die's banks), its hold path, its granules and its tags. -/
structure IssueSeg where
  unit : Nat
  src : Nat
  cls : Nat
  path : Option Nat
  hold : Nat
  granules : Nat
  deriving DecidableEq, Repr

/-- The decision on a segment: it issues in-purse or as overdraft, or waits for a hold, for the next window, for tags,
behind an earlier segment of its master and class, or for a tc that the governor does not withhold. -/
inductive Issue where
  | purse | overdraft | held | capped | tags | behind | throttled
  deriving DecidableEq, Repr

/-- The purse of a master and class. -/
def purseKey (u c : Nat) : Nat := 16 * u + c

/-- Overdraft cap of a purse in force. -/
def odCapOf (s : State) (k : Nat) : Nat := tget 0xFFFFF s.regu.odCap k

/-- R116 for a segment of g granules of unit u, class c, toward a hold path; only the purse masters are charged (R114). -/
def purseDecide (s : State) (u c g hold : Nat) : Issue :=
  let k := purseKey u c
  if !(s.regu.charging && s.rgBit Reg.reguCtl 0) || 160 ≤ u then .purse
  else if g ≤ tget 0 s.regu.balance k then .purse
  else if odCapOf s k = 0xFFFFF ∨ tget 0 s.regu.odUsed k + g ≤ odCapOf s k then
    if hold ∈ s.regu.holds then .held else .overdraft
  else .capped

/-- Charges a segment that issues in-purse or as overdraft (R116, Table 5.2). -/
def purseCharge (s : State) (u c g : Nat) (d : Issue) : State :=
  let k := purseKey u c
  let on := s.regu.charging && s.rgBit Reg.reguCtl 0 && decide (u < 160)
  match d with
  | .purse =>
    let t := if on then { s with regu := { s.regu with
      balance := tset 0 s.regu.balance k (tget 0 s.regu.balance k - g) } } else s
    classCount t c 0 g
  | .overdraft =>
    let t := { s with regu := { s.regu with odUsed := tset 0 s.regu.odUsed k (tget 0 s.regu.odUsed k + g) } }
    classCount t c 1 g
  | _ => s

/-- Whether two issuers are the same: a segment is known by its id. -/
def Issuer.same : Issuer → Issuer → Bool
  | .seg g, .seg h => g.id == h.id
  | .pctx j a, .pctx k b => j == k && a == b
  | .port p i, .port q j => p == q && i == j
  | _, _ => false

/-- The first that waits at the issue point of a master in a class (R118). -/
def firstWaiting (s : State) (u c : Nat) : Option Issuer :=
  (s.regu.waiting.find? (fun w => w.unit == u && w.cls == c)).map (·.who)

/-- The tags a segment of g granules needs: one for each 512 B or part (R200). -/
def granuleTags (g : Nat) : Nat := (g + 3) / 4

/-- Whether the governor withholds the current tc from an issue point: the movers', which relays use too (R350). -/
def issueWithheld (s : State) (q : IssueSeg) : Bool := withheldNow s && decide (128 ≤ q.unit) && decide (q.unit < 160)

/-- The decision on a segment at its issue point (R116 to R118, R200, R350). -/
def issueDecide (s : State) (who : Issuer) (q : IssueSeg) : Issue :=
  let first := match firstWaiting s q.unit q.cls with
    | some w => w.same who
    | none => true
  if !first then .behind
  else if issueWithheld s q then .throttled
  else match q.path with
    | none => .purse
    | some p =>
      match purseDecide s q.unit q.cls q.granules q.hold with
      | .held => .held
      | .capped => .capped
      | d => if tagsFree s p q.src (granuleTags q.granules) then d else .tags

/-- The entry of an issuer that waits, or a new one. -/
def waitEntry (s : State) (who : Issuer) (q : IssueSeg) : IssueWait :=
  match s.regu.waiting.find? (fun w => w.who.same who) with
  | some w => w
  | none => { who := who, unit := q.unit, cls := q.cls, held := false, capped := false, tagged := false }

/-- A segment waits at its issue point: HELD is set, and what its wait counts is counted once (R118, R126, R200, Table 5.2).
HELD is set at every decision that holds the segment, also after software cleared the bit (DESIGN CHOICE, log 71: R126
speaks of the first wait after the clear only). -/
def issueWait (s : State) (who : Issuer) (q : IssueSeg) (d : Issue) : State :=
  let w := waitEntry s who q
  let w' : IssueWait := { w with
    who := who, held := w.held || d == .held, capped := w.capped || d == .capped, tagged := w.tagged || d == .tags }
  let l := if s.regu.waiting.any (fun x => x.who.same who) then
      s.regu.waiting.map (fun x => if x.who.same who then w' else x)
    else s.regu.waiting ++ [w']
  let t := { s with regu := { s.regu with waiting := l } }
  match d with
  | .held =>
    let t := t.driveField Reg.reguStatus 0 1 1
    if w.held then t else classCount t q.cls 2 1
  | .capped => if w.capped then t else classCount t q.cls 3 1
  | .tags => if w.tagged then t else countEvent (t.countRg Reg.floatWaits 1) 0x17 (min (q.path.getD 0) 2) 1
  | _ => t

/-- An issuer waits no more. -/
def unwait (s : State) (who : Issuer) : State :=
  if s.regu.waiting.isEmpty then s
  else { s with regu := { s.regu with waiting := s.regu.waiting.filter (fun w => !w.who.same who) } }

/-- The holds of a path, refreshed after its tags changed (Table 5.1). -/
def refreshTagHold (s : State) (path : Nat) : State := if path = 0 then s else refreshHold s (63 + path)

/-- A segment issues: charged, with its tags taken (R116, R200). -/
def issueGo (s : State) (who : Issuer) (q : IssueSeg) (d : Issue) : State :=
  let t := unwait s who
  match q.path with
  | none => t
  | some p =>
    let t := if q.unit < 160 then purseCharge t q.unit q.cls q.granules d else t
    refreshTagHold (takeTags t p q.src (granuleTags q.granules)) p

/-- The issue point decides a segment: it issues (true), or waits (R116). A boundary that is due comes first (R115). -/
def issueGate (s : State) (who : Issuer) (q : IssueSeg) : State × Bool :=
  let s := windowDue s
  match issueDecide s who q with
  | .purse => (issueGo s who q .purse, true)
  | .overdraft => (issueGo s who q .overdraft, true)
  | d => (issueWait s who q d, false)

/-- A gateway takes the bytes of a request from its class's meter: whether the request is reserved, and the state after
(R124). -/
def meterTake (s : State) (st cls n : Nat) : Bool × State :=
  let k := meterKey st cls
  let m := tget 0 s.regu.meter k
  if 0 < m then
    (true, classCount { s with regu := { s.regu with meter := tset 0 s.regu.meter k (m - n) } } cls 4 n)
  else (false, classCount s cls 5 n)

/-- A latency sample of n ns of a class (R120, Table 5.2). -/
def latencySample (s : State) (c n : Nat) : State :=
  let t := classCount (classCount s c 6 n) c 7 1
  { t with regu := { t.regu with sampleSum := tset 0 t.regu.sampleSum c (tget 0 t.regu.sampleSum c + n),
                                 sampleCnt := tset 0 t.regu.sampleCnt c (tget 0 t.regu.sampleCnt c + 1) } }

/-! ## The segments of whole accesses (log 7, log 75) -/

/-- The tag path of a checked PPA, or of a host address: 0 the stacks, 1 the far tier, 2 + p a die-link port; none toward
this die's banks (R200). -/
def pathOf (s : State) (host : Bool) (a : Nat) : Option Nat :=
  if host then some (2 + hostPort s)
  else if ppaFar a then some 1
  else if ppaDie a ≠ s.pwr.dieId then some (2 + routePort s (ppaDie a))
  else if ppaSpace a = 8 then some 0
  else none

/-- The hold path of an access (Table 5.1). -/
def holdOf (s : State) (path : Option Nat) (a : Nat) : Nat :=
  match path with
  | none => 70
  | some 0 => (stackPlace s (ppaOff a)).1
  | some p => 63 + p

/-- What a segment of a whole access is at its issue point; host traffic is charged as traffic to another die (R165). -/
def wholeSeg (s : State) (rq : Rq) (host : Bool) (a granules : Nat) : IssueSeg :=
  let path := pathOf s host a
  { unit := if rq.src / 256 ≠ s.pwr.dieId then 256 + rq.src else rq.src % 256, src := rq.src, cls := rqClass s rq,
    path := path, hold := holdOf s path a, granules := granules }

/-- A segment of a whole access has issued. The access takes place within the step, so its tags return at once; it draws on
the meter of its gateway, and a read leaves a latency sample, whose length the model does not know (log 75). -/
def wholeDone (s : State) (rq : Rq) (host wr : Bool) (a granules : Nat) : State :=
  let cls := rqClass s rq
  match pathOf s host a with
  | none => s
  | some p =>
    let t := refreshTagHold (freeTags s p rq.src (granuleTags granules)) p
    let t := if p = 0 then (meterTake t ((stackPlace s (ppaOff a)).1 / 32) cls (128 * granules)).2 else t
    if wr || host then t else { latencySample t cls (Config.latency t.freeCtr) with freeCtr := t.freeCtr + 1 }

/-- The accesses that a request makes, in order: what it does is done on a copy of the state that notes them. -/
def accessesOf (s : State) (run : State → State) : List Acc1 := ((run { s with accesses := some [] }).accesses).getD []

/-- Whether an access goes on with the segment that an earlier one began: the same way, the next granule, within one block of
2 KiB, or 512 B of a STACK address, and 16 granules (R96). -/
def segJoins (x : Acc1 × Nat) (a : Acc1) : Bool :=
  let w := if !a.host && !ppaFar a.addr && ppaSpace a.addr == 8 then 512 else 2048
  x.1.host == a.host && x.1.wr == a.wr && a.addr / 128 == x.1.addr / 128 + x.2 && a.addr / w == x.1.addr / w &&
  decide (x.2 < 16)

/-- The segments of a request's accesses: the first access and the granules of each (R96). -/
def segmentsOf : Option (Acc1 × Nat) → List Acc1 → List (Acc1 × Nat)
  | none, [] => []
  | some x, [] => [x]
  | none, a :: l => segmentsOf (some (a, 1)) l
  | some x, a :: l => if segJoins x a then segmentsOf (some (x.1, x.2 + 1)) l else x :: segmentsOf (some (a, 1)) l

/-- Segments of a whole access pass the issue point in order, each charged as it issues (R114, R116, R165): how many have
passed, and whether all of them. One that waits holds those behind it (R118). -/
def gateSegs (who : Issuer) (rq : Rq) : List (Acc1 × Nat) → Nat → State → State × Nat × Bool
  | [], n, s => (s, n, true)
  | (a, g) :: l, n, s =>
    match issueGate s who (wholeSeg s rq a.host a.addr g) with
    | (t, true) => gateSegs who rq l (n + 1) (wholeDone t rq a.host a.wr a.addr g)
    | (t, false) => (t, n, false)

/-- The segments of a request that makes its accesses by `run`, of which n have passed the issue point (R116). -/
def issueRun (s : State) (who : Issuer) (rq : Rq) (n : Nat) (run : State → State) : State × Nat × Bool :=
  gateSegs who rq ((segmentsOf none (accessesOf s run)).drop n) n s

end Sys2Proof.Machine
end

