-- ==== Sys2Proof/Machine/Segments.lean ====
section
/-! DEFINITION. Segments in flight and their ways (R96, R103 to R107): ranks, where a segment starts and ends, the links and
routes of the mesh, and the header network. -/

namespace Sys2Proof.Machine

/-! ## Ranking (R39, R40, R90, R91) -/

/-- What ranks a request at an arbitration point. -/
structure Rank where
  overdue : Bool
  order : Nat
  r : Int
  src : Nat
  deriving DecidableEq, Repr

/-- Whether a ranks before b: overdue first in order of arrival, then least r, lower source, earlier arrival. -/
def Rank.before (a b : Rank) : Bool :=
  if a.overdue && b.overdue then a.order < b.order
  else if a.overdue then true
  else if b.overdue then false
  else a.r < b.r || (a.r == b.r && (a.src < b.src || (a.src == b.src && a.order < b.order)))

/-- The first-ranked element of a list. -/
def firstRanked {α : Type} (rank : α → Rank) : List α → Option α
  | [] => none
  | x :: l =>
    match firstRanked rank l with
    | none => some x
    | some y => if (rank y).before (rank x) then some y else some x

/-- The rank of what carries a stamp, given its latched overdue bit and its arrival. -/
def stampRank (s : State) (overdue : Bool) (order dl src : Nat) : Rank :=
  let r := remaining s.now dl
  { overdue := overdue || decide (r < 0), order := order, r := r, src := src }

/-! ## Flights -/

/-- A segment in flight. -/
def State.flight (s : State) (id : Nat) : Option Flight := tfind s.mesh.flights id

/-- The state with a flight put. -/
def State.setFlight (s : State) (id : Nat) (x : Flight) : State :=
  { s with mesh := { s.mesh with flights := tput s.mesh.flights id x } }

/-- The state without a flight. -/
def State.dropFlight (s : State) (id : Nat) : State :=
  { s with mesh := { s.mesh with flights := terase s.mesh.flights id } }

/-- The space code of an access kind: an alias write, or BANK. -/
def kindSpace : AccessKind → Nat
  | .read => 0 | .write => 0 | .set => 1 | .clr => 2 | .addF32 => 3 | .addBF16 => 4 | .addI32 => 5 | .addI64 => 6

/-- Whether a segment reads. -/
def segReads (g : Segment) : Bool := g.kind == .read

/-- The target PPA of granule i of a segment. -/
def segGranule (g : Segment) (i : Nat) : Nat := g.target / 128 * 128 + 128 * i

/-- Whether a segment goes to a bank of this die. -/
def segBank (s : State) (g : Segment) : Bool :=
  !ppaFar g.target && ppaDie g.target == s.pwr.dieId && decide (ppaSpace g.target ≤ 6)

/-- The space through which a segment reaches a bank (R61, R63): a read, the target's; a write, that of its kind, or the
target's where the kind is a plain write. -/
def segSpace (g : Segment) : Nat :=
  if segReads g || g.kind == .write then ppaSpace g.target else kindSpace g.kind

/-- The bank of a segment. -/
def bankOf (g : Segment) : Nat := ppaOff g.target / 2 ^ 21 % 256

/-- The tag path of a segment that leaves the banks: 0 stack, 1 far, 2 + p link port (R200). -/
def segPath (s : State) (g : Segment) : Option Nat := pathOf s false g.target

/-- Whether a segment has a shape of R96: within 2 KiB of its target, and on STACK addresses, of any die, within 512 B. -/
def segShape (g : Segment) : Bool :=
  let ok := 1 ≤ g.count && g.target % 2048 / 128 + g.count ≤ 16
  if !ppaFar g.target && ppaSpace g.target == 8 then ok && decide (g.target % 512 / 128 + g.count ≤ 4) else ok

/-- The unit of a segment's source on this die; past 255, by source, when the source is another die's. -/
def segUnit (s : State) (g : Segment) : Nat := if g.src / 256 = s.pwr.dieId then g.src % 256 else 256 + g.src

/-- Whether a unit is quarantined (R110). -/
def quarantined (s : State) (u : Nat) : Bool := u < 192 && s.rgBit (Reg.meshQuar (u / 32)) (u % 32)

/-- The die-link port at which the requests of another die enter (R301: row first, then the column): 0 N, 1 E, 2 S,
3 W. -/
def entryPort (s : State) (die : Nat) : Nat :=
  if die / 4 < s.pwr.dieId / 4 then 0 else if s.pwr.dieId / 4 < die / 4 then 2
  else if die % 4 < s.pwr.dieId % 4 then 3 else 1

/-- The unit of this die that presents a segment: its source, or the die-link port at which it came in. -/
def entryUnit (s : State) (g : Segment) : Nat :=
  if g.src / 256 = s.pwr.dieId then g.src % 256 else 162 + entryPort s (g.src / 256 % 16)

/-- Whether a segment is an owner port's request to a bank of its node (R16, R88). -/
def ownerSeg (s : State) (g : Segment) : Bool :=
  segBank s g && decide (segUnit s g < 128) && segUnit s g / 4 == bankOf g / 8 && !bankSlc s (bankOf g)

/-- The request of a segment as its records name it. -/
def segRq (g : Segment) : Rq := { src := g.src, ctx := g.ctx.map (fun c => (c, g.cls)), cls := some g.cls, dl := some g.dl }

/-- The node of a logical bank: where its physical bank stands, a spare 256 + i beside node 4i + 1 (R15, R16). -/
def bankNode (s : State) (b : Nat) : Nat :=
  let p := bankPhys s b
  if p < 256 then p / 8 else 4 * (p % 8) + 1

/-- The node of a segment's source on this die. -/
def srcNode (s : State) (g : Segment) : Nat := unitNode (entryUnit s g) % 32

/-- The node where a segment's target is served: its bank's, its channel's, the far agent's, its die-link port's. -/
def servedAt (s : State) (path : Nat) (chan : Nat) (g : Segment) : Nat :=
  if path = 0 then bankNode s (bankOf g)
  else if path = 1 then chanNode chan % 32 else unitNode (if path = 2 then 166 else 159 + path) % 32

/-- The unit that offers a segment's granules (R109): a write's source, a read's gateway, far agent or port; a bank has
no number and is named by the read's requester. -/
def supplierUnit (s : State) (g : Segment) : Nat :=
  if segReads g then
    match segPath s g with
    | none => entryUnit s g
    | some 0 => 160 + (stackPlace s (ppaOff g.target)).1 / 32
    | some 1 => 166
    | some p => 160 + p
  else entryUnit s g

/-- Its source number (R109, R18). -/
def supplierSrc (s : State) (g : Segment) : Nat :=
  if segReads g && segPath s g == none then g.src
  else if supplierUnit s g = g.src % 256 then g.src else s.src (supplierUnit s g)

/-- The node where a flight's target is served. -/
def flightNode (s : State) (x : Flight) : Nat := servedAt s x.path x.chan x.seg

/-- The node of the unit that takes a segment's granules (Table 4.15). -/
def sinkNode (s : State) (x : Flight) : Nat := if segReads x.seg then srcNode s x.seg else flightNode s x

/-! ## Links and routes (R13, R104) -/

/-- Whether a mesh link leaves a node by an output: 0 N, 1 E, 2 S, 3 W. Rows have 7 links, columns 3: 28 and 24 in all. -/
def meshLink (node out : Nat) : Bool :=
  node < 32 && (if out = 0 then decide (8 ≤ node) else if out = 1 then node % 8 != 7
    else if out = 2 then decide (node < 24) else out == 3 && node % 8 != 0)

/-- The next output and node on the way from a node to another: along the row first, then along the column (R104). -/
def meshNext (a b : Nat) : Option (Nat × Nat) :=
  if a % 8 < b % 8 then some (1, a + 1)
  else if b % 8 < a % 8 then some (3, a - 1)
  else if a / 8 < b / 8 then some (2, a + 8)
  else if b / 8 < a / 8 then some (0, a - 8)
  else none

/-- The router outputs (node, output) from a node to a unit at another, the last one LOCAL, output 4. -/
def routeFrom : Nat → Nat → Nat → List (Nat × Nat)
  | 0, a, _ => [(a, 4)]
  | n + 1, a, b =>
    match meshNext a b with
    | none => [(a, 4)]
    | some (out, c) => (a, out) :: routeFrom n c b

/-- The route of a segment or a response from node a to node b: at most 7 links of a row and 3 of a column. -/
def route (a b : Nat) : List (Nat × Nat) := routeFrom 10 a b

/-- The stages of a flight's granules: the outputs of its route, a bank's read first by its teller's rail into the router,
output 5 (R103). -/
def stages (s : State) (x : Flight) : List (Nat × Nat) :=
  let n := flightNode s x
  let m := srcNode s x.seg
  if segReads x.seg then (if x.path = 0 then (n, 5) :: route n m else route n m) else route m n

/-! ## Rails (R103, R105) -/

/-- The key of rail r of an output: outputs 0 to 3 are N, E, S, W with four rails; output 4 is LOCAL with one rail for each
of its sinks: 0 to 7 the tellers, 8 the mover, 9 and 10 the stack channels, 11 the attached unit, 12 to 15 the engine ports,
16 a spare's teller; output 5 holds the tellers' rails into the router. -/
def railKey (node out r : Nat) : Nat := (node * 8 + out) * 32 + r

/-- The number of a bank's teller at its router. -/
def tellerRail (s : State) (b : Nat) : Nat := if bankPhys s b < 256 then bankPhys s b % 8 else 16

/-- The LOCAL rail of a flight's sink. -/
def localRail (s : State) (x : Flight) : Nat :=
  if segReads x.seg then
    let u := entryUnit s x.seg
    if u < 128 then 12 + u % 4 else if u < 160 then 8 else 11
  else if x.path = 0 then tellerRail s (bankOf x.seg)
  else if x.path = 1 then 9 + x.chan % 2 else 11

/-- The rails that a stage may give a flight. -/
def railChoices (s : State) (out : Nat) (x : Flight) : List Nat :=
  if out < 4 then [0, 1, 2, 3] else if out = 4 then [localRail s x] else [tellerRail s (bankOf x.seg)]

/-- The free rail of lowest number that a stage may give a flight (R106). -/
def freeRail (s : State) (node out : Nat) (x : Flight) : Option Nat :=
  (railChoices s out x).find? (fun r => (tfind s.mesh.rails (railKey node out r)).isNone)

/-- Granules of a flight that stand before stage i: those its supplier has offered, or those past the stage before. -/
def stageIn (x : Flight) (i : Nat) : Nat := if i = 0 then x.sent else nth 0 x.pos (i - 1)

/-- Granules of a flight that its sink has taken. -/
def delivered (x : Flight) : Nat := if segReads x.seg then x.back else x.arrived

/-- Granules of a flight past stage i of n. -/
def stageOut (x : Flight) (n i : Nat) : Nat := if i + 1 < n then nth 0 x.pos i else delivered x

/-- Whether a flight's granules may move: a bank's read and write only while its entry is served (R97, R108). -/
def flows (x : Flight) : Bool :=
  x.state == .sending || x.state == .returning || (1 ≤ x.path && segReads x.seg && x.state == .accepted)

/-- Whether a flight's head waits at the router output of its next stage (R105): it has taken every rail before it, and a
granule stands there. -/
def waitsAt (s : State) (node out : Nat) (x : Flight) : Bool :=
  let st := stages s x
  let i := x.rails.length
  flows x && decide (i < st.length) && nth (32, 0) st i == (node, out) && decide (stageOut x st.length i < stageIn x i)

/-- The rank of a flight's head at a router output (R91, R106). -/
def flightRank (s : State) (x : Flight) : Rank := stampRank s x.overdue x.headAt x.seg.dl x.seg.src

/-- A rail of a flight is free, unless another flight has it by now. -/
def freeRail1 (id : Nat) (t : Table Nat) (k : Nat) : Table Nat := if tget 0 t k == id + 1 then terase t k else t

/-- Releases the rails a flight holds. -/
def freeRails (s : State) (x : Flight) : State :=
  { s with mesh := { s.mesh with rails := x.rails.foldl (freeRail1 x.seg.id) s.mesh.rails } }

/-! ## The header network (R98, R103, R107) -/

/-- The headers that stand at an input of a router: 0 to 3 N, E, S, W, 4 LOCAL; 5 are those that wait in their units. -/
def hdrsAt (s : State) (node inp : Nat) : List Hdr := s.mesh.hdrs.filter (fun h => h.node == node && h.inp == inp)

/-- The rank of a header (R91, R107). -/
def hdrRank (s : State) (h : Hdr) : Rank :=
  match s.flight h.id with
  | some x => stampRank s h.overdue h.order x.seg.dl x.seg.src
  | none => { overdue := h.overdue, order := h.order, r := 0, src := 4096 }

/-- A header of a unit enters the network at the unit's router, or waits in the unit while that input holds 8 (R107). -/
def putHdr (s : State) (kind : HdrKind) (id src dest : Nat) : State :=
  let h : Hdr := { kind := kind, id := id, dest := dest, node := src, inp := if (hdrsAt s src 4).length < 8 then 4 else 5,
                   since := s.clk.tc, order := s.mesh.order, overdue := false }
  { s with mesh := { s.mesh with hdrs := s.mesh.hdrs ++ [h], order := s.mesh.order + 1 } }

/-- The header of a kind and a flight that has come to its unit. -/
def hdrHere (s : State) (kind : HdrKind) (id : Nat) : Option Hdr :=
  s.mesh.hdrs.find? (fun h => h.kind == kind && h.id == id && h.node == h.dest && h.inp != 5)

/-- The header of a kind and a flight leaves the network. -/
def takeHdr (s : State) (kind : HdrKind) (id : Nat) : State :=
  { s with mesh := { s.mesh with hdrs := s.mesh.hdrs.filter (fun h => !(h.kind == kind && h.id == id)) } }

/-- Every header of a flight leaves the network. -/
def dropHdrs (s : State) (id : Nat) : State :=
  { s with mesh := { s.mesh with hdrs := s.mesh.hdrs.filter (fun h => h.id != id) } }

/-- A header changed. -/
def mapHdr (s : State) (h : Hdr) (f : Hdr → Hdr) : State :=
  { s with mesh := { s.mesh with hdrs := s.mesh.hdrs.map (fun g => if g == h then f g else g), order := s.mesh.order + 1 } }

/-- The input of the next router at which what leaves by an output arrives. -/
def inputOf (out : Nat) : Nat := (out + 2) % 4

/-- One header crosses a link in a tc, the first-ranked of those that came before it, while the next input has room
(R103, R107). -/
def hdrLink (node out : Nat) (s : State) : State :=
  let next := nth 0 [node - 8, node + 1, node + 8, node - 1] out
  let l := s.mesh.hdrs.filter (fun h => h.node == node && h.inp != 5 && decide (h.since < s.clk.tc) &&
    (meshNext node h.dest).map (·.1) == some out)
  if l.isEmpty || !meshLink node out || decide (8 ≤ (hdrsAt s next (inputOf out)).length) then s
  else match firstRanked (hdrRank s) l with
    | none => s
    | some h => mapHdr s h (fun g => { g with node := next, inp := inputOf out, since := s.clk.tc, order := s.mesh.order })

/-- The headers that wait in the units of a node come to the router while it has room, in rank. -/
def hdrLocal (node : Nat) (s : State) : State :=
  if decide (8 ≤ (hdrsAt s node 4).length) then s
  else match firstRanked (hdrRank s) (hdrsAt s node 5) with
    | none => s
    | some h => mapHdr s h (fun g => { g with inp := 4, since := s.clk.tc })

/-- One tc of the header network: the overdue bits latch (R40), each link carries one header, waiting headers come in. -/
def hdrTc (s : State) : State :=
  if s.mesh.hdrs.isEmpty then s
  else
    let late (h : Hdr) : Hdr := { h with overdue := (hdrRank s h).overdue }
    let t := { s with mesh := { s.mesh with hdrs := s.mesh.hdrs.map late } }
    let t := upTo 128 (fun i t => hdrLink (i / 4) (i % 4) t) t
    upTo 32 (fun n t => hdrLocal n t) t

end Sys2Proof.Machine
end

