-- ==== Sys2Proof/Machine/Mesh.lean ====
section
/-! DEFINITION. The issue of segments (R96, R110, R112 to R118, R232), the headers at the tellers and the tellers' tc
(R85 to R100). -/

namespace Sys2Proof.Machine

/-! ## Answers -/

/-- What a segment brings its source: to a unit of this die at once, to another die or an I/O die by the response network
of the port it came in by (R302, R18). An I/O die is named as die 16 + i. -/
def replySeg (s : State) (g : Segment) (last : Bool) (st : Status) (data : Granule) : State :=
  if g.src / 256 ≠ s.pwr.dieId then
    let p := routePort s (g.src / 256 % 16)
    linkOut s p (.answer p (g.src / 256 % 16) g.cls g.src g.id st data)
  else if 162 ≤ g.src % 256 ∧ g.src % 256 < 166 then
    linkOut s (g.src % 256 - 162) (.answer (g.src % 256 - 162) (16 + hostDie s) g.cls g.src g.id st data)
  else s.emit (.segment g.id last st data)

/-- Returns the tags of a flight (R200). -/
def returnTags (s : State) (x : Flight) : State :=
  if x.path = 0 then s else refreshTagHold (freeTags s (x.path - 1) x.seg.src x.tags) (x.path - 1)

/-- The source takes the errors that a flight's bank accesses found (R311). -/
def takeAns (s : State) (x : Flight) (l : List (Nat × Nat × Nat)) : State :=
  l.foldl (fun t a =>
    let o := ppaOff (segGranule x.seg a.1)
    let r : BankAns := { st := .ok, ue := a.2.1, ce := a.2.2, data := [] }
    if x.path = 0 then takeBank t (segRq x.seg) (bankOf x.seg) (o % 2 ^ 21) r
    else if x.path = 1 then takeStack t (segRq x.seg) o r
    else if x.path = 2 then takeFar t (segRq x.seg) (segGranule x.seg a.1) a.2.1
    else t) s

/-- Ends a flight with a status: its tags return, its headers go, its source learns (R200). -/
def endFlight (s : State) (x : Flight) (st : Status) (data : Granule) : State :=
  replySeg (dropHdrs ((returnTags s x).dropFlight x.seg.id) x.seg.id) x.seg true st data

/-- Removes the entry of a flight from its teller, freeing it in this tc (R94). -/
def freeEntry (s : State) (b id : Nat) : State :=
  let t := s.teller b
  let n := if t.freed.1 = s.clk.tc then t.freed.2 else 0
  s.setTeller b { t with entries := t.entries.filter (fun e => e.id != id), freed := (s.clk.tc, n + 1) }

/-- Removes the entry of a flight from whatever holds it, a teller or a channel queue. -/
def dropEntry (s : State) (x : Flight) : State :=
  if x.path = 0 then
    (if (s.teller (bankOf x.seg)).entries.any (fun e => e.id == x.seg.id) then freeEntry s (bankOf x.seg) x.seg.id else s)
  else
    let ch := s.edge.chans.map (fun c =>
      (c.1, { c.2 with entries := c.2.entries.filter (fun e => e.id != x.seg.id),
                       reads := c.2.reads.filter (fun e => e.id != x.seg.id) }))
    { s with edge := { s.edge with chans := ch } }

/-- Ends a flight wherever it stands, with an error. -/
def killFlight (s : State) (id : Nat) (st : Status) : State :=
  match s.flight id with
  | none => s
  | some x => endFlight (dropEntry (freeRails s x) x) x st 0#1024

/-! ## Issue -/

/-- The class of a segment: a context's, which its issue point attaches, or its own (R112). -/
def segCls (s : State) (g : Segment) : Nat :=
  if g.src / 256 ≠ s.pwr.dieId then g.cls
  else match g.ctx with
    | some c => (s.ctx c).cls
    | none => if segUnit s g = 167 ∨ segUnit s g = 168 then rqClass s { src := g.src, ctx := none } else g.cls

/-- The sealed mark of a segment: its context's domain's for a source of this die; the clerk's requests carry it, those of
the debug unit and of other units without a context do not (R70). -/
def segMark (s : State) (g : Segment) : Bool :=
  if g.src / 256 ≠ s.pwr.dieId then g.sealedMark
  else match g.ctx with
    | some c => ctxMark s c
    | none => decide (segUnit s g = 167)

/-- The stamp of a segment as arbitration sees it: a mover, or another unit that has a full deadline, stamps it at issue
(R38); an engine port and another die bring a stamp; the class's pull-in is its own die's (R122). -/
def segStamp (s : State) (g : Segment) (cls : Nat) : Nat :=
  if g.src / 256 ≠ s.pwr.dieId then g.dl % 2 ^ 24
  else if 162 ≤ segUnit s g ∧ segUnit s g < 166 then g.dl % 2 ^ 24
  else pullIn s cls (if segUnit s g < 128 then g.dl % 2 ^ 24 else shortStamp s.now g.dl)

/-- A segment as its issue point completes it. -/
def issued (s : State) (g : Segment) : Segment :=
  { g with cls := segCls s g, sealedMark := segMark s g, dl := segStamp s g (segCls s g) }

/-- What the issue point knows of a segment: requests of other dies and of I/O dies are charged no purse here (R114). -/
def segIssue (s : State) (g : Segment) : IssueSeg :=
  let u := segUnit s g
  let path := segPath s g
  { unit := u, src := g.src, cls := g.cls, path := path, hold := holdOf s path g.target, granules := g.count }

/-- Whether a flight and a segment share a granule and one of them writes (R232). -/
def clash (x : Flight) (g : Segment) : Bool :=
  (!segReads x.seg || !segReads g) && decide (segGranule x.seg 0 < segGranule g 0 + 128 * g.count) &&
  decide (segGranule g 0 < segGranule x.seg 0 + 128 * x.seg.count)

/-- Whether a segment must wait for an earlier one of its node that it overlaps and that is not performed yet (R232). -/
def nodeClash (s : State) (g : Segment) : Bool :=
  s.mesh.flights.any (fun f => f.1 != g.id && clash f.2 g && srcNode s f.2.seg == srcNode s g &&
    f.2.state != .acked && f.2.state != .returning)

/-- A segment issues: its request goes onto the header network; a write toward the far agent or a die-link port needs no
call (R97, R105). -/
def launch (s : State) (g : Segment) (path tags : Nat) : State :=
  let rd := segReads g
  let x : Flight :=
    { seg := g, state := if 2 ≤ path ∧ !rd then .sending else .header,
      chan := if path = 1 then (stackPlace s (ppaOff g.target)).1 else 0,
      sent := 0, pos := [], arrived := 0, back := 0, sunk := none, rails := [], headAt := s.mesh.order, overdue := false,
      holdStart := none, firstTry := s.now % 2 ^ 24, issued := s.now, tags := tags, path := path, retryAt := 0,
      answered := false, status := .ok, halves := 0, ans := [] }
  let x := { x with pos := List.replicate ((stages s x).length - 1) 0,
                    sent := if 2 ≤ path ∧ !rd then min 1 g.data.length else 0 }
  let t := s.setFlight g.id x
  if 2 ≤ path ∧ !rd then t else putHdr t .request g.id (srcNode s g) (flightNode s x)

/-- A segment that passed its checks at its issue point: it issues, or waits for its purse, a hold, tags, an earlier one
(R116 to R118, R200, R232). -/
def issueChecked (s : State) (g : Segment) : State :=
  let q := segIssue s g
  if nodeClash s g then issueWait s (.seg g) q .behind
  else match issueGate s (.seg g) q with
    | (t, false) => t
    | (t, true) =>
      match q.path with
      | none => launch t g 0 0
      | some p => launch t g (p + 1) (granuleTags g.count)

/-- The PPA that a segment's check sees: an alias space where its kind makes it an alias write (R61, R63). -/
def segCheckAt (s : State) (g : Segment) : Nat :=
  if segBank s g then diePPA s.pwr.dieId (segSpace g) (ppaOff (segGranule g 0)) else segGranule g 0

/-- More data of a segment in flight that its source has now (R105, R109). -/
def moreData (s : State) (x : Flight) (g : Segment) : State :=
  if segReads x.seg then s
  else s.setFlight x.seg.id { x with seg := { x.seg with data := x.seg.data ++ g.data.drop x.seg.data.length } }

/-- SEGMENT_ISSUE's effect: the shape (R96), quarantine (R110), the checks (R83), the issue. An owner port's request to a
bank of its node is one granule (R88). -/
def issueSeg (s : State) (g : Segment) : State :=
  match s.flight g.id with
  | some x => moreData s x g
  | none =>
    if !segShape g || (ownerSeg s g && g.count != 1) then s
    else if quarantined s (entryUnit s g) then replySeg s g true .quarantined 0#1024
    else
      let h := issued s g
      match checkPPA s (segCheckAt s g) 128 (if segReads g then .read else .write) h.sealedMark with
      | .ok =>
        (match segPath s g with
         | some p =>
           if 1 ≤ p ∧ portQuar s (extPort s g.target) then replySeg s g true .quarantined 0#1024 else issueChecked s h
         | none => issueChecked s h)
      | st => replySeg s g true st 0#1024

/-- SEGMENT_ISSUE (R116). -/
def execSegmentIssue (seg : Segment) (s : State) : Res := gate dFAB 2 seg.src (.segmentIssue seg) s (fun s => issueSeg s seg)

/-! ## Headers (R87, R94, R98, R99) -/

/-- The key of a back-off exponent: the source. -/
def backoffOf (s : State) (src : Nat) : Nat := tget 0 s.mesh.backoff src

/-- Sets a source's back-off exponent. -/
def setBackoff (s : State) (src k : Nat) : State :=
  { s with mesh := { s.mesh with backoff := tset 0 s.mesh.backoff src k } }

/-- The first call, data or acknowledgement that answers a header: its source learns that it was accepted, and its back-off
exponent returns to 0 (R98). -/
def answer1 (s : State) (x : Flight) : State := if x.answered || 2 ≤ x.path then s else setBackoff s x.seg.src 0

/-- Whether a header is urgent (R99). -/
def urgent (s : State) (x : Flight) : Bool :=
  x.overdue || decide (remaining s.now x.seg.dl ≤ (s.rgField Reg.tellerCfg 0 16 : Nat))

/-- The request headers that stand at the router before a bank's teller (R94); an owner port's takes no entry (R88). -/
def headersAt (s : State) (b : Nat) : List (Hdr × Flight) :=
  (s.mesh.hdrs.filter (fun h => h.kind == .request && h.node == h.dest && h.inp != 5)).filterMap (fun h =>
    match s.flight h.id with
    | some x => if x.path = 0 ∧ bankOf x.seg = b ∧ x.state = .header ∧ !ownerSeg s x.seg then some (h, x) else none
    | none => none)

/-- The entries a header can find taken in this tc (R94). -/
def entriesTaken (s : State) (b : Nat) : Nat :=
  let t := s.teller b
  t.entries.length + (if t.freed.1 = s.clk.tc then t.freed.2 else 0)

/-- A teller accepts a header into a free entry. -/
def acceptHeader (s : State) (b : Nat) (h : Hdr) (x : Flight) : State :=
  let t := s.teller b
  let e : TEntry := { id := x.seg.id, state := .waiting, progress := 0, firstTry := x.firstTry, order := t.arrivals,
                      overdue := h.overdue || decide (remaining s.now x.seg.dl < 0), granted := false }
  takeHdr ((s.setTeller b { t with entries := t.entries ++ [e], arrivals := t.arrivals + 1,
                                   headTc := some s.clk.tc }).setFlight x.seg.id { x with state := .accepted })
    .request x.seg.id

/-- A header is refused: the refusal goes back to its source (R98). -/
def refuse (s : State) (x : Flight) : State :=
  putHdr (takeHdr (s.setFlight x.seg.id { x with state := .refused }) .request x.seg.id) .refusal x.seg.id
    (flightNode s x) (srcNode s x.seg)

/-- Headers stand before a teller in one tc (R94): the first-ranked is accepted, one in a tc; when all 16 entries are
taken, each is refused; a bank that can no longer be reached ends them with its status. -/
def tellerHeader (s : State) (b : Nat) : State :=
  let hs := headersAt s b
  match bankSt s b true with
  | .ok =>
    if 16 ≤ entriesTaken s b then hs.foldl (fun t p => countEvent (refuse t p.2) 0x03 b 1) s
    else if (s.teller b).headTc = some s.clk.tc then s
    else
      (match firstRanked (fun p => hdrRank s p.1) hs with
       | some p => acceptHeader s b p.1 p.2
       | none => s)
  | st => hs.foldl (fun t p => killFlight t p.2.seg.id st) s

/-- TELLER_HEADER (R94) at the teller of the bank of a node at its place (R15). -/
def execTellerHeader (node place : Nat) (s : State) : Res :=
  gate (dHome node) 2 0 (.tellerHeader node place) s (fun s => tellerHeader s (8 * node + place))

/-- A source presents a refused header again (R98). -/
def retryHeader (s : State) (x : Flight) : State :=
  putHdr (s.setFlight x.seg.id { x with state := .header, retryAt := s.clk.tc + 1 }) .request x.seg.id (srcNode s x.seg)
    (flightNode s x)

/-- A refusal reaches its source (R98, R99). -/
def refusal (s : State) (id : Nat) : State :=
  match s.flight id, hdrHere s .refusal id with
  | some x, some _ =>
    let t := takeHdr s .refusal id
    if urgent t x then retryHeader t x
    else
      let k := backoffOf t x.seg.src
      setBackoff (t.setFlight id { x with state := .backoff, retryAt := t.clk.tc + 2 ^ k }) x.seg.src (min (k + 1) 6)
  | _, _ => s

/-- REFUSAL_RECEIVE (R98). -/
def execRefusalReceive (id : Nat) (s : State) : Res := gateIn dFAB s (fun s => refusal s id)

/-- The end of a back-off wait (R98). -/
def backoffEnd (s : State) (id : Nat) : State :=
  match s.flight id with
  | some x => if x.state = .backoff ∧ x.retryAt ≤ s.clk.tc then retryHeader s x else s
  | none => s

/-- BACKOFF_EXPIRE (R98). -/
def execBackoffExpire (id : Nat) (s : State) : Res := gateIn dFAB s (fun s => backoffEnd s id)

/-! ## The teller's tc (R86, R89 to R93, R100) -/

/-- Where a bank's grant parks: on its owner, or on the SLC's tag logic (R86, R88). -/
def parkSide (s : State) (b : Nat) : Holder := if bankSlc s b then .tags else .owner

/-- The side to which a bank is turned in this tc: the holder while the bank accessed or turned in this tc or the one
before, then the side on which it parks (R86). -/
def holderNow (s : State) (b : Nat) : Holder :=
  match (s.teller b).busy with
  | some k => if s.clk.tc ≤ k + 1 then (s.teller b).holder else parkSide s b
  | none => parkSide s b

/-- The rank of an entry. -/
def entryRank (s : State) (e : TEntry) : Rank :=
  match s.flight e.id with
  | some x => stampRank s e.overdue e.order x.seg.dl x.seg.src
  | none => { overdue := e.overdue, order := e.order, r := 0, src := 4096 }

/-- Whether the next granule of an entry is ready: a write's is at the bank; a read's has a place in the teller's two
granules before its rail (R105). -/
def entryReady (s : State) (e : TEntry) : Bool :=
  match s.flight e.id with
  | some x => if segReads x.seg then decide (x.sent < nth 0 x.pos 0 + 2) else decide (e.progress < x.arrived)
  | none => false

/-- Whether an entry's segment reads. -/
def entryReads (s : State) (e : TEntry) : Bool :=
  match s.flight e.id with
  | some x => segReads x.seg
  | none => false

/-- The state of one entry changed. -/
def mapEntry (t : Teller) (id : Nat) (f : TEntry → TEntry) : Teller :=
  { t with entries := t.entries.map (fun e => if e.id == id then f e else e) }

/-- The bank is busy in this tc, on a side: an access or a turn (R86). -/
def holdBank (s : State) (b : Nat) (h : Holder) : State :=
  s.setTeller b { s.teller b with holder := h, busy := some s.clk.tc }

/-- Turns a bank to a holder: a turn cycle (R86). -/
def turnTo (s : State) (b : Nat) (h : Holder) : State := countEvent (holdBank s b h) 0x02 b 1

/-- An access of a bank takes its tc (R85, Table 15.7). -/
def bankCycle (s : State) (b : Nat) (h : Holder) : State := moved (countEvent (holdBank s b h) 0x01 b 1) (siteKey 0 b)

/-- The errors a granule's access found, added to a flight. -/
def noteAns (x : Flight) (i : Nat) (r : BankAns) (st : Status) : Flight :=
  { x with status := if x.status = .ok then st else x.status,
           ans := if r.ue = 0 ∧ r.ce = 0 then x.ans else x.ans ++ [(i, r.ue, r.ce)] }

/-- The last granule of a write is in its bank (R94, R97): the acknowledgement leaves for the source, the rails and the
entry are free, and the segment's RANGE_WRITE records are due (R51). -/
def bankWritten (s : State) (b : Nat) (x : Flight) : State :=
  let t := freeRails (freeEntry (s.setFlight x.seg.id { x with state := .acked, rails := [] }) b x.seg.id) x
  rangeRecs (putHdr t .ack x.seg.id (bankNode t b) (srcNode t x.seg)) x.seg.src (segRq x.seg).ctx (segGranule x.seg 0)
    (128 * x.seg.count)

/-- The granule that the read half of an alias write leaves to store, and the status of the write (R61, R63). -/
def aliasValue (s : State) (b off sp : Nat) (wb : List WByte) : Granule × BankAns × Status :=
  let r := bankRead s b off 128
  let bad := !lanesWhole sp wb
  let new := aliasBytes sp r.data wb
  let v := (List.range 128).map (fun i =>
    if (nth (0#8, false) new i).2 then (nth (0#8, false) new i).1 else nth 0#8 r.data i)
  (granuleOf v, r, if bad then .faultAlign else if sealHeld s b then .faultProt else r.st)

/-- The read half of an alias write (R61, R89). -/
def readHalf (s : State) (b off sp src : Nat) (ctx : Option Nat) (entry : Option Nat) (wb : List WByte) : State :=
  match aliasValue s b off sp wb with
  | (v, _, st) =>
    s.setTeller b { s.teller b with
      half := some { addr := off, value := v, ue := st != .ok, done := false, src := src, ctx := ctx, entry := entry } }

/-- An access by an entry: the granule at its progress is read, written, or its alias read half is done. -/
def serveEntry (s : State) (b : Nat) (e : TEntry) : State :=
  match s.flight e.id with
  | none => s
  | some x =>
    let off := ppaOff (segGranule x.seg e.progress) % 2 ^ 21
    let s := finishHalf (bankCycle s b (.entry e.id)) b
    let last := e.progress + 1 == x.seg.count
    let step (t : State) : State := t.setTeller b (mapEntry (t.teller b) e.id (fun e =>
      { e with progress := e.progress + 1, granted := true, state := .active }))
    if segReads x.seg then
      let r := bankRead s b off 128
      let y := noteAns x e.progress r r.st
      let t := (step s).setFlight e.id { y with
        sent := x.sent + 1, seg := { x.seg with data := x.seg.data ++ [(granuleOf r.data, 0#128)] },
        state := if last then .returning else .sending }
      if last then freeEntry t b e.id else t
    else
      let d := nth (0#1024, 0#128) x.seg.data e.progress
      let wb := granuleWBytes d.1 d.2
      if segSpace x.seg = 0 then
        match bankWrite s 0 b off wb with
        | (t, r) =>
          let y := noteAns x e.progress r r.st
          let t := (step t).setFlight e.id y
          if last then bankWritten t b y else t
      else
        match aliasValue s b off (segSpace x.seg) wb with
        | (_, r, st) =>
          let t := readHalf s b off (segSpace x.seg) x.seg.src x.seg.ctx (some e.id) wb
          (t.setTeller b (mapEntry (t.teller b) e.id (fun e => { e with granted := true, state := .active }))).setFlight e.id
            (noteAns x e.progress r st)

/-- The write half of an alias (R61, R89): stored, unless its read half failed (R63) or an access between the halves has
stored it already. -/
def writeHalf (s : State) (b : Nat) (h : AliasHalf) : State :=
  let t := bankCycle (finishHalf s b) b (s.teller b).holder
  let t := t.setTeller b { t.teller b with half := none }
  let ctx := h.ctx.map (fun c => (c, (s.ctx c).cls))
  match h.entry with
  | none =>
    let t := t.emit (.owner b h.src (if h.ue then .eccUncorr else .ok) 0#1024)
    if h.ue then t else rangeRecs t h.src ctx (diePPA s.pwr.dieId 0 (b * 2 ^ 21 + h.addr)) 128
  | some id =>
    match t.flight id with
    | none => t
    | some x =>
      let p := match ((t.teller b).entries.find? (fun e => e.id == id)) with
        | some e => e.progress + 1
        | none => x.seg.count
      let t := t.setTeller b (mapEntry (t.teller b) id (fun e => { e with progress := p, granted := true }))
      if p = x.seg.count then bankWritten t b x else t

/-! ### Owner requests (R88 to R90) -/

/-- The kind of a write through a space code. -/
def spaceKind (space : Nat) : AccessKind := nth .write [.write, .set, .clr, .addF32, .addBF16, .addI32, .addI64] space

/-- The one-granule segments of owner ports that stand before a bank's teller as owner requests (R88), with their flights'
ids. -/
def ownerClaims (s : State) (b : Nat) : List (Option Nat × OwnerReq) :=
  (s.mesh.hdrs.filter (fun h => h.kind == .request && h.node == h.dest && h.inp != 5)).filterMap (fun h =>
    match s.flight h.id with
    | some x =>
      if x.path = 0 ∧ bankOf x.seg = b ∧ x.state = .header ∧ ownerSeg s x.seg then
        some (some h.id,
          { src := x.seg.src, ctx := x.seg.ctx, kind := if segReads x.seg then .read else spaceKind (segSpace x.seg),
            row := ppaOff x.seg.target % 2 ^ 21 / 128, data := (nth (0#1024, 0#128) x.seg.data 0).1,
            be := (nth (0#1024, 0#128) x.seg.data 0).2, dl := x.seg.dl, arrival := h.order })
      else none
    | none => none)

/-- The note of an owner request that stands at a teller: a request that is new gets its stamp, pulled in for its class at
its issue point (R122); the stamp of a segment was. -/
def reqNote (s : State) (t : Teller) (c : Option Nat × OwnerReq) : ReqNote :=
  let q := c.2
  let n : ReqNote := match t.reqs.find? (fun n => n.src == q.src && n.arrival == q.arrival) with
    | some n => n
    | none =>
      { src := q.src, arrival := q.arrival, overdue := false,
        dl := if c.1.isSome then q.dl else match q.ctx with
          | some x => pullIn s (s.ctx x).cls q.dl
          | none => q.dl }
  { n with overdue := n.overdue || decide (remaining s.now n.dl < 0) }

/-- The rank of an owner request: overdue ones are latched (R40, R90). -/
def reqRank (s : State) (t : Teller) (c : Option Nat × OwnerReq) : Rank :=
  let n := reqNote s t c
  stampRank s n.overdue n.arrival n.dl n.src

/-- The status of an owner request before its bank answers: the sealed mark of its context (R70), the bank's state. -/
def ownerSt (s : State) (b : Nat) (q : OwnerReq) : Status :=
  let mark := match q.ctx with
    | some c => ctxMark s c
    | none => false
  if bankSlc s b then .ok else bankSt s b mark

/-- The answer to an owner request: at the port, or in its segment's flight. -/
def ownerReply (s : State) (b : Nat) (c : Option Nat × OwnerReq) (r : BankAns) (st : Status) : State :=
  let q := c.2
  let rd := q.kind == .read
  let ctx := q.ctx.map (fun c => (c, (s.ctx c).cls))
  match c.1 with
  | none =>
    let t := (takeBank s { src := q.src, ctx := ctx } b (q.row % 16384 * 128) r).emit
      (.owner b q.src st (if rd then granuleOf r.data else 0#1024))
    if rd || st != .ok then t else rangeRecs t q.src ctx (diePPA s.pwr.dieId 0 (b * 2 ^ 21 + q.row % 16384 * 128)) 128
  | some id =>
    match s.flight id with
    | none => s
    | some x =>
      let y := noteAns x 0 r st
      if rd then s.setFlight id { y with sent := 1, state := .returning,
                                         seg := { x.seg with data := [(granuleOf r.data, 0#128)] } }
      else bankWritten s b y

/-- An owner request served (R89, step 2). -/
def serveOwner (s : State) (b : Nat) (c : Option Nat × OwnerReq) : State :=
  let q := c.2
  let off := q.row % 16384 * 128
  let t := finishHalf (bankCycle s b (parkSide s b)) b
  let t := t.setTeller b { t.teller b with
    ownerTc := some s.clk.tc, reqs := (t.teller b).reqs.filter (fun n => !(n.src == q.src && n.arrival == q.arrival)) }
  let t := match c.1 with
    | some id => takeHdr t .request id
    | none => t
  let none_ : BankAns := { st := .ok, ue := 0, ce := 0, data := List.replicate 128 0#8 }
  match ownerSt t b q with
  | .ok =>
    let sp := kindSpace q.kind
    let wb := granuleWBytes q.data q.be
    if q.kind = .read then ownerReply t b c (bankRead t b off 128) (bankRead t b off 128).st
    else if sp = 0 then
      (match bankWrite t 0 b off wb with
       | (u, r) => ownerReply u b c r r.st)
    else
      (match aliasValue t b off sp wb with
       | (_, r, .ok) =>
         let u := match c.1 with
           | none => takeBank t { src := q.src, ctx := none } b off r
           | some id => (match t.flight id with
             | some x => t.setFlight id (noteAns x 0 r .ok)
             | none => t)
         readHalf u b off sp q.src q.ctx c.1 wb
       | (_, r, st) => ownerReply t b c r st)
  | st => ownerReply t b c none_ st

/-! ### The decision of a tc (R89) -/

/-- The active or preempted entry of a teller; a called one whose first granule is in becomes active (R97). -/
def activeEntry (s : State) (t : Teller) : Option TEntry :=
  match t.entries.find? (fun e => e.state == .active || e.state == .preempted) with
  | some e => some e
  | none => t.entries.find? (fun e => e.state == .called && entryReady s e)

/-- The next queue entry a teller may select: only reads while a call is outstanding (R97). -/
def selectable (s : State) (t : Teller) : Option TEntry :=
  let called := t.entries.any (fun e => e.state == .called)
  firstRanked (entryRank s) (t.entries.filter (fun e => e.state == .waiting && (!called || entryReads s e)))

/-- A teller selects a write: the call goes to its source (R97), in a turn cycle to the entry. -/
def callEntry (s : State) (b : Nat) (e : TEntry) (x : Flight) : State :=
  let t := s.setTeller b (mapEntry (s.teller b) e.id (fun e => { e with state := .called }))
  turnTo (putHdr (t.setFlight e.id { x with state := .called }) .call e.id (bankNode s b) (srcNode s x.seg)) b (.entry e.id)

/-- Step 5 of R89: the teller selects an entry, or the bank stands idle. -/
def tellerSelect (s : State) (b : Nat) : State :=
  let t := s.teller b
  match selectable s t with
  | none => s
  | some e =>
    let s := moved s (siteKey 0 b)
    match s.flight e.id with
    | none => s
    | some x =>
      if segReads x.seg then
        let h := holderNow s b
        let s := (s.setTeller b (mapEntry t e.id (fun e => { e with state := .active }))).setFlight e.id
          { x with state := .sending }
        if h = .entry e.id ∧ entryReady s e then serveEntry s b { e with state := .active } else turnTo s b (.entry e.id)
      else callEntry s b e x

/-- Steps 4 and 5 of R89. -/
def tellerNonOwner (s : State) (b : Nat) : State :=
  match activeEntry s (s.teller b) with
  | some e =>
    if entryReady s e then
      if holderNow s b = .entry e.id then serveEntry s b e
      else turnTo (s.setTeller b (mapEntry (s.teller b) e.id (fun e => { e with state := .active }))) b (.entry e.id)
    else s
  | none => tellerSelect s b

/-- The owner takes the bank from a non-owner (R89 step 3, R100): a turn cycle, the segment preempted. -/
def preempt (s : State) (b : Nat) : State :=
  let t := s.teller b
  let n := (t.entries.filter (fun e => e.state == .active)).length
  let t := { t with ownerTc := some s.clk.tc,
                    entries := t.entries.map (fun e => if e.state == .active then { e with state := .preempted } else e) }
  countEvent (turnTo (s.setTeller b t) b (parkSide s b)) 0x04 b n

/-- The start of a teller's tc: no entry is granted yet, the requests that stand are noted, with their overdue bits
(R40, R101). -/
def tellerTc (s : State) (b : Nat) (claims : List (Option Nat × OwnerReq)) : State :=
  let t := s.teller b
  s.setTeller b { t with acted := some s.clk.tc, reqs := claims.map (reqNote s t),
                         entries := t.entries.map (fun e => { e with granted := false }) }

/-- A look-ahead of this tc gives way to the decision of the tc (R87). -/
def undoLook (s : State) (b : Nat) : State :=
  match (s.teller b).look with
  | some l => if l.tc = s.clk.tc then s.setTeller b { s.teller b with holder := l.holder, busy := l.busy } else s
  | none => s

/-- A look-ahead of this tc turns the bank where the decision left it idle (R87). -/
def redoLook (s : State) (b : Nat) : State :=
  match (s.teller b).look with
  | some l =>
    if l.tc = s.clk.tc ∧ (s.teller b).busy ≠ some s.clk.tc then
      (if holderNow s b = .entry l.id then holdBank s b (.entry l.id) else turnTo s b (.entry l.id))
    else s
  | none => s

/-- The decision of R89. -/
def tellerDecide (s : State) (b : Nat) (claims : List (Option Nat × OwnerReq)) : State :=
  match (s.teller b).half with
  | some h => writeHalf s b h
  | none =>
    match firstRanked (reqRank s (s.teller b)) claims with
    | some q => if holderNow s b = parkSide s b then serveOwner s b q else preempt s b
    | none => tellerNonOwner s b

/-- One tc of a teller (R85, R89): it decides once in a tc. A bank in RETENTION holds its requests (R342). At a bank of the
SLC the requests are the tag logic's (R88). -/
def tellerGrant (s : State) (b : Nat) (reqs : List OwnerReq) : State :=
  if (s.teller b).acted = some s.clk.tc ∨ bankRun s b ≠ 0 then s
  else
    let claims := reqs.map (fun q => (none, q)) ++ ownerClaims s b
    redoLook (tellerDecide (tellerTc (undoLook s b) b claims) b claims) b

/-- TELLER_GRANT (R89). -/
def execTellerGrant (bank : Nat) (reqs : List OwnerReq) (s : State) : Res :=
  gate (dHome (bank / 8)) 1 (s.src (4 * (bank / 8))) (.tellerGrant bank reqs) s (fun s => tellerGrant s bank reqs)

/-- A look-ahead turns a bank that is idle in its tc, and is kept for a decision of the tc that may still come (R87). Owner
ports send none. -/
def lookAheadOp (s : State) (b id : Nat) : State :=
  let t := s.teller b
  match s.flight id with
  | some x =>
    if x.path = 0 ∧ bankOf x.seg = b ∧ !ownerSeg s x.seg ∧ t.busy ≠ some s.clk.tc ∧
        (x.state = .header ∨ x.state = .called ∨ x.state = .sending) then
      let u := s.setTeller b { t with look := some { tc := s.clk.tc, id := id, holder := t.holder, busy := t.busy } }
      if holderNow s b = .entry id then holdBank u b (.entry id) else turnTo u b (.entry id)
    else s
  | none => s

/-- LOOK_AHEAD (R87). -/
def execLookAhead (bank id : Nat) (s : State) : Res :=
  gate (dHome (bank / 8)) 2 0 (.lookAhead bank id) s (fun s => lookAheadOp s bank id)

/-- The granules a write's supplier can offer now: those its source has, two before its first rail (R105). -/
def offerTo (s : State) (x : Flight) : Nat :=
  min (min x.seg.count x.seg.data.length) (stageOut x (stages s x).length 0 + 2)

/-- A call reaches its source, which opens the segment and sends its next granule (R97, R98). -/
def callOp (s : State) (id : Nat) : State :=
  match s.flight id, hdrHere s .call id with
  | some x, some _ =>
    let t := answer1 (takeHdr s .call id) x
    t.setFlight id { x with state := .sending, answered := true, headAt := t.mesh.order,
                            sent := max x.sent (min (x.sent + 1) (offerTo s x)) }
  | _, _ => s

/-- CALL_RECEIVE (R97). -/
def execCallReceive (id : Nat) (s : State) : Res := gateIn dFAB s (fun s => callOp s id)

end Sys2Proof.Machine
end

