-- ==== Sys2Proof/Machine/Rails.lean ====
section
/-! DEFINITION. Rails and the way of granules through the mesh (R103 to R106), quarantine (R110), the hold limit and
cut-offs (R108, R109). -/

namespace Sys2Proof.Machine

/-! ## Rails (R105, R106) -/

/-- A flight takes a rail of a stage; its hold runs from the first (R108). -/
def giveRail (s : State) (x : Flight) (k : Nat) : State :=
  let t := { s with mesh := { s.mesh with rails := tput s.mesh.rails k (x.seg.id + 1) } }
  t.setFlight x.seg.id { x with
    rails := x.rails ++ [k],
    holdStart := match x.holdStart with
      | some h => some h
      | none => some s.clk.tc }

/-- The heads that wait at a router output and can have a rail now. -/
def headsAt (s : State) (node out : Nat) : List Flight :=
  (s.mesh.flights.map (·.2)).filter (fun x => waitsAt s node out x && (freeRail s node out x).isSome)

/-- A router output gives its lowest free rail to the first-ranked waiting head (R106). -/
def railGrant (s : State) (node out : Nat) : State :=
  match firstRanked (flightRank s) (headsAt s node out) with
  | none => s
  | some x =>
    match freeRail s node out x with
    | none => s
    | some r => giveRail (moved s (siteKey 1 (node * 8 + out))) x (railKey node out r)

/-- MESH_RAIL_GRANT (R106) at the router of a row and a column of the mesh (R13). -/
def execMeshRailGrant (row col out : Nat) (s : State) : Res := gateIn dFAB s (fun s => railGrant s (row * 8 + col) out)

/-- Whether a granule passes stage i of n in a tc: its rail is taken, a granule stands before it, and the next router's
input for that rail has one of its 2 places free (R105). -/
def canPass (x : Flight) (n i : Nat) : Bool :=
  decide (i < x.rails.length) && decide (stageOut x n i < stageIn x i) && decide (stageOut x n i < stageOut x n (i + 1) + 2)

/-- Whether the granule that passes stage i is the head, which comes to the next router now. -/
def headPasses (x : Flight) (n i : Nat) : Bool :=
  canPass x n i && decide (i + 1 = x.rails.length) && decide (stageOut x n i = delivered x)

/-- The rails behind the last granule are free (R105). -/
def freePassed (x : Flight) (t : Table Nat) : Table Nat :=
  (x.rails.zip x.pos).foldl (fun t p => if p.2 = x.seg.count then freeRail1 x.seg.id t p.1 else t) t

/-- One tc of a flight's granules: each stage but the last passes one where it can; the last is the sink's. -/
def passGranules (s : State) (x : Flight) : State :=
  let st := stages s x
  let n := st.length
  let can := (List.range (n - 1)).filter (canPass x n)
  if can.isEmpty then s
  else
    let y := { x with pos := x.pos.zipIdx.map (fun p => if p.2 ∈ can then p.1 + 1 else p.1),
                      headAt := if can.any (headPasses x n) then s.mesh.order else x.headAt }
    let t := (can.map (fun i => nth (0, 5) st i)).foldl (fun t p =>
      if p.2 < 5 then moved (countEvent t 0x06 (p.1 * 8 + p.2) 1) (siteKey 1 (p.1 * 8 + p.2)) else t) s
    { t.setFlight x.seg.id y with mesh := { (t.setFlight x.seg.id y).mesh with
        rails := freePassed y t.mesh.rails, order := s.mesh.order + 1 } }

/-- A bank's read takes its teller's rail into the router once a granule is read (R103). -/
def tellerRailTake (s : State) (x : Flight) : State :=
  if x.path = 0 ∧ segReads x.seg ∧ x.rails.isEmpty ∧ nth 0 x.pos 0 < x.sent then
    match freeRail s (flightNode s x) 5 x with
    | some r => giveRail s x (railKey (flightNode s x) 5 r)
    | none => s
  else s

/-- A write's supplier offers its next granule (R97, R105). -/
def supplierOffer (s : State) (x : Flight) : State :=
  if !segReads x.seg ∧ x.state = .sending ∧ x.sent < offerTo s x then s.setFlight x.seg.id { x with sent := x.sent + 1 }
  else s

/-- One tc of a flight: its overdue bit latches (R40), its granules pass, its supplier offers. -/
def flightTc (id : Nat) (s : State) : State :=
  let step (f : State → Flight → State) (s : State) : State := match s.flight id with
    | some x => f s x
    | none => s
  let latch (s : State) (x : Flight) : State :=
    if !x.overdue ∧ remaining s.now x.seg.dl < 0 then s.setFlight id { x with overdue := true } else s
  let pass (s : State) (x : Flight) : State := if flows x then passGranules s x else s
  let rail (s : State) (x : Flight) : State := if flows x then tellerRailTake s x else s
  step supplierOffer (step rail (step pass (step latch s)))

/-- The overdue bits at a teller latch (R40). -/
def tellerLatch (s : State) (t : Teller) : Teller :=
  { t with entries := t.entries.map (fun e => { e with overdue := (entryRank s e).overdue }),
           reqs := t.reqs.map (fun n => { n with overdue := n.overdue || decide (remaining s.now n.dl < 0) }) }

/-- One tc of the mesh: the overdue bits at the tellers, the header network, the granules. -/
def meshTc (s : State) : State :=
  let t := { s with mesh := { s.mesh with tellers := s.mesh.tellers.map (fun c => (c.1, tellerLatch s c.2)) } }
  (hdrTc t).mesh.flights.foldl (fun t f => flightTc f.1 t) (hdrTc t)

/-! ## Quarantine (R110) -/

/-- Whether a unit can be quarantined: engine ports, movers, die-link ports. -/
def canQuarantine (u : Nat) : Bool := u < 160 || (162 ≤ u && u < 166)

/-- The flights of a unit, or that came in or go out through a die-link port. -/
def unitFlights (s : State) (u : Nat) : List Nat :=
  (s.mesh.flights.filter (fun f => entryUnit s f.2.seg == u ||
    (162 ≤ u && 2 ≤ f.2.path && 162 + extPort s f.2.seg.target == u))).map (·.1)

/-- The segments of a unit that wait at their issue point end with QUARANTINED. -/
def quarWaiting (s : State) (u : Nat) : State :=
  let mine (w : IssueWait) : Bool := match w.who with
    | .seg g => entryUnit s g == u
    | _ => w.unit == u
  let t := { s with regu := { s.regu with waiting := s.regu.waiting.filter (fun w => !mine w) } }
  (s.regu.waiting.filter mine).foldl (fun t w => match w.who with
    | .seg g => replySeg t g true .quarantined 0#1024
    | _ => t) t

/-- The program context of what stands at a slot ring. -/
def Standing.pctx : Standing → Option Nat
  | .front k _ => some k
  | .relay k _ => some k
  | .back k _ => some k
  | .put _ _ _ (.pctx k) => some k
  | _ => none

/-- The engine port of what stands at a slot ring or a cheque queue. -/
def Standing.port : Standing → Option Nat
  | .acquire q _ => some q.port
  | .take q => some q.port
  | .put _ _ _ (.port p _ _ _) => some p
  | _ => none

/-- What passes a test stands at slot rings and cheque queues no more. -/
def unstand (s : State) (p : Standing → Bool) : State :=
  { s with float := { s.float with
    slots := s.float.slots.map (fun r => (r.1, { r.2 with standing := r.2.standing.filter (fun w => !p w.who) })),
    queues := s.float.queues.map (fun r => (r.1, { r.2 with standing := r.2.standing.filter (fun w => !p w.who) })) } }

/-- Every program context of a mover ends with QUARANTINED (R110). -/
def quarMover (s : State) (m : Nat) : State :=
  let end1 (p : PCtx) : PCtx :=
    { p.err s.clk.tc .quarantined with done := true, wait := none, stream := none, relay := none }
  let ps := s.work.pctxs.map (fun c => if c.1 / 8 = m ∧ !c.2.record then (c.1, end1 c.2) else c)
  let mine (w : Who) : Bool := match w with
    | .pctx k => k / 8 == m
    | _ => false
  let own (o : Owner) : Bool := match o with
    | .pctx k => k / 8 == m
    | _ => false
  let drop (a : Arrival) : Arrival := match a.who with
    | some w => if mine w then { a with who := none } else a
    | none => a
  let bar (b : Nat × Bar) : Nat × Bar :=
    (b.1, { b.2 with arrivals := b.2.arrivals.map drop, heldBy := b.2.heldBy.map drop,
                     waiting := b.2.waiting.map drop })
  let sy := { s.sync with waiters := s.sync.waiters.filter (fun w => !mine w.who),
                          releases := s.sync.releases.filter (fun r => !own r.2.owner), bars := s.sync.bars.map bar }
  let who (w : IssueWait) : Bool := match w.who with
    | .pctx k _ => k / 8 == m
    | _ => false
  unstand { s with work := { s.work with pctxs := ps }, sync := sy,
                   regu := { s.regu with waiting := s.regu.waiting.filter (fun w => !who w) } }
    (fun w => w.pctx.any (fun k => k / 8 == m))

/-- Every request an engine port has not seen answered ends with QUARANTINED (R110, R385). -/
def quarPort (s : State) (u : Nat) : State :=
  match tfind s.ports u with
  | none => s
  | some p =>
    let t := { s with ports := terase s.ports u, sync := { s.sync with
      waiters := s.sync.waiters.filter (fun w => match w.who with
        | .engine _ port _ _ => port != u
        | _ => true),
      releases := s.sync.releases.filter (fun r => match r.2.owner with
        | .port port _ _ _ => port != u
        | _ => true) } }
    let t := unstand (p.queue.foldl (fun t w => unwait t (.port u w.q.tag)) t) (fun w => w.port == some u)
    p.tags.foldl (fun v g => v.emit (.beat u g.1 1 .quarantined 0 true [])) t

/-- Quarantines a unit (R110). -/
def quarantine (s : State) (u : Nat) : State :=
  let t := (unitFlights s u).foldl (fun t id => killFlight t id .quarantined) (quarWaiting s u)
  let t := if 128 ≤ u ∧ u < 160 then quarMover t (u - 128) else if u < 128 then quarPort t u else t
  let t := t.setRgBit (Reg.meshQuar (u / 32)) (u % 32) true
  event t t.srcClerk none 0x21 3 u 0

/-- A SUPPLIER cut-off of a unit: its window opens, and the 16th within it quarantines the unit (R110). -/
def supplierCut (s : State) (u : Nat) : State :=
  if !canQuarantine u then s
  else
    let (n, t0) := tget (0, 0) s.mesh.quarCount u
    let w := if n = 0 ∨ t0 + 1000000 ≤ s.now then (1, s.now) else (n + 1, t0)
    let t := { s with mesh := { s.mesh with quarCount := tset (0, 0) s.mesh.quarCount u w } }
    if 16 ≤ w.1 ∧ !quarantined t u then quarantine t u else t

/-- QUARANTINE_WINDOW_END (R110): a window of 1,000,000 ns ends with fewer than 16 cut-offs. -/
def execQuarantineWindowEnd (unit : Nat) (s : State) : Res :=
  gateIn dFAB s (fun s =>
    let (n, t0) := tget (0, 0) s.mesh.quarCount unit
    if n ≠ 0 ∧ n < 16 ∧ t0 + 1000000 ≤ s.now then
      { s with mesh := { s.mesh with quarCount := terase s.mesh.quarCount unit } }
    else s)

/-- Starts the training of an active die-link port (R305). -/
def trainLink (s : State) (p : Nat) : State :=
  let l := s.link p
  if l.state = .inactive then s else s.setLink p { l with state := .training, since := s.now }

/-- Releases a unit from quarantine (R110, R305). -/
def quarRelease1 (s : State) (u : Nat) : State :=
  if quarantined s u then
    let t := s.setRgBit (Reg.meshQuar (u / 32)) (u % 32) false
    let t := { t with mesh := { t.mesh with quarCount := terase t.mesh.quarCount u } }
    if 162 ≤ u ∧ u < 166 then trainLink t (u - 162) else t
  else s

/-- A write to MESH_QUARn releases every unit whose bit is 1. -/
def quarWrite (s : State) (n v : Nat) : State :=
  upTo 32 (fun i t => if bit v i then quarRelease1 t (32 * n + i) else t) s

/-- QUARANTINE_RELEASE (R110). -/
def execQuarantineRelease (n : Nat) (v : Word) (s : State) : Res := gate dFAB 7 0 (.quarantineRelease n v) s (fun s => quarWrite s (n % 6) v.toNat)

/-! ## Cut-offs (R108, R109) -/

/-- The hold limit in tc (Table 4.12). -/
def holdLimit (s : State) : Nat := max 48 (s.rgField Reg.meshCfg 0 10)

/-- The entry of a flight at its bank's teller. -/
def flightEntry (s : State) (x : Flight) : Option TEntry :=
  if x.path = 0 then (s.teller (bankOf x.seg)).entries.find? (fun e => e.id == x.seg.id) else none

/-- The progress count of a flight (R108): a bank sink's is at its teller, another's at the receiving unit. -/
def flightProgress (s : State) (x : Flight) : Nat :=
  if segReads x.seg then x.back
  else match flightEntry s x with
    | some e => e.progress
    | none => x.arrived

/-- Whether the owner has the bank of a flight: it took it in this tc or the one before, or preempted the segment. -/
def ownerHas (s : State) (x : Flight) : Bool :=
  match flightEntry s x with
  | some e => e.state == .preempted || (match (s.teller (bankOf x.seg)).ownerTc with
    | some k => decide (s.clk.tc ≤ k + 1)
    | none => false)
  | none => false

/-- The cause of a cut-off (R109), from the next granule not delivered: 0 SUPPLIER, 1 PREEMPTED, 2 BLOCKED. A bank's read
is never charged to a supplier; a granule on its way waits for a rail, or for its sink. -/
def cutCause (s : State) (x : Flight) : Nat :=
  let p := flightProgress s x
  if segReads x.seg && x.path == 0 then (if x.sent ≤ p && ownerHas s x then 1 else 2)
  else if x.sent ≤ p then 0
  else if decide (p < x.arrived) && ownerHas s x then 1 else 2

/-- Whether a flight is cut off now: its hold has reached the limit, and its supplier still owes a granule (R108). -/
def cutDue (s : State) (x : Flight) : Bool :=
  (match x.holdStart with
   | some h => h + holdLimit s ≤ s.clk.tc
   | none => false) && x.sent < x.seg.count && (x.state == .accepted || x.state == .sending || x.state == .called)

/-- MESH_CUTOFF_LAST of a cut-off (Table 4.15). -/
def cutWord (s : State) (x : Flight) : Nat :=
  2 ^ 31 + b2n (segReads x.seg && x.path == 0) * 2 ^ 30 + cutCause s x * 2 ^ 28 + supplierSrc s x.seg * 2 ^ 16 +
    sinkNode s x * 2 ^ 8 + flightProgress s x % 16

/-- A flight after its cut-off: what was not delivered is its supplier's again (R108). A bank read's granules that the bank
has read already stay with its teller. -/
def cutFlight (s : State) (x : Flight) : Flight :=
  let p := flightProgress s x
  let rd := segReads x.seg
  { x with rails := [], holdStart := none, pos := x.pos.map (fun _ => p), sent := if rd then x.sent else p,
           arrived := if rd then x.arrived else p,
           state := if x.path = 1 ∧ !rd then .called else if 2 ≤ x.path ∧ !rd then .sending else .accepted }

/-- A cut-off: rails released, the entry waiting again with its progress, a gateway's write called again, the cause
recorded (R108, R109). -/
def cutOffOp (s : State) (id : Nat) : State :=
  match s.flight id with
  | none => s
  | some x =>
    if cutDue s x then
      let t := freeRails s x
      let b := bankOf x.seg
      let t := if x.path = 0 then t.setTeller b (mapEntry (t.teller b) id (fun e => { e with state := .waiting })) else t
      let t := t.setFlight id (cutFlight s x)
      let t := if x.path = 1 ∧ !segReads x.seg then putHdr t .call id (flightNode t x) (srcNode t x.seg) else t
      let t := countEvent (t.driveField Reg.meshCutoffLast 0 32 (cutWord s x)) 0x05 (cutCause s x) 1
      if cutCause s x = 0 then supplierCut t (supplierUnit s x.seg) else t
    else s

/-- CUT_OFF (R108). -/
def execCutOff (id : Nat) (s : State) : Res := gateIn dFAB s (fun s => cutOffOp s id)

end Sys2Proof.Machine
end

