-- ==== Sys2Proof/Machine/Gateway.lean ====
section
/-! DEFINITION. The stack gateways: channel queues, reports, retraining, repair and withdrawal (Chapter 12). -/

namespace Sys2Proof.Machine

/-! ## Events and the clerk's items -/

/-- The frames in RETIRED or WITHDRAWN. -/
def framesLost (s : State) : Nat :=
  (s.xl.frames.filter (fun f => f.2.state == .retired || f.2.state == .withdrawn)).length

/-- The number of set bits of a word. -/
def ones (x : Nat) : Nat := ((List.range 64).filter (fun i => bit x i)).length

/-- The number of logical banks withdrawn. -/
def banksLost (s : State) : Nat := ((List.range 256).filter (fun b => bankWd s b)).length

/-- A CAPACITY event (R319, Table 13.4): line 2, RAS_CAUSE bit 1. -/
def capacity (s : State) (u kind obj other : Nat) (otherV relinked : Bool) : State :=
  event (s.setRgBit Reg.rasCause 1 true) (s.src u) none 0x11 2
    (kind + obj * 2 ^ 8 + other * 2 ^ 32 + b2n otherV * 2 ^ 49 + b2n relinked * 2 ^ 50)
    (ones (s.rg Reg.bankSpareOk) + banksLost s * 2 ^ 8 +
      (ones (s.rg Reg.gwWithdrawnLo) + ones (s.rg Reg.gwWithdrawnHi)) * 2 ^ 17 + framesLost s * 2 ^ 32)

/-- A report of a stack controller as a work item of the clerk (R328): the manual gives the item no layout, so it
holds the report's code, local channel and argument in ARG0 and ARG1 (log 12). -/
def reportItem (s : State) (st code c arg : Nat) : State :=
  clerkPut s { stamp := s.now, src := s.src (160 + st), seq := 0, type := 0, line := 2,
               unlocked := !s.rgBit Reg.ptStatus 0, ctx := none, arg0 := BitVec.ofNat 64 (code + c * 16),
               arg1 := BitVec.ofNat 64 arg }

/-! ## Frames under a failed row (R321) -/

/-- A SPARE_ROW_FAILED report, or a copy read that found an uncorrectable piece, in a frame (R321). -/
def rowFailed (s : State) (st c f off : Nat) : State :=
  let x := s.frame f
  match x.state with
  | .mapped =>
    reportItem (capacity (s.setFrame f { x with state := .retiring }) 167 2 f 0 false false) st 8 c off
  | .unmapping => s.setFrame f { x with failing := true }
  | .free => capacity (s.setFrame f { x with state := .retired }) 167 3 f 0 false false
  | _ => s

/-! ## Channel queues (R278 to R281) -/

/-- The die channel to which a flight toward a stack was issued, and the local channel that carries it (R71). -/
def flightChan (s : State) (x : Flight) : Nat × Option Nat := (x.chan, chanOfDie s x.chan)

/-- The lowest entry number that no entry of a queue holds. -/
def freeTag (x : Chan) : Nat := ((List.range 512).find? (fun t => x.entries.all (fun e => e.tag != t))).getD 0

/-- Accepts a header into a channel queue: a write is called at once (R279). -/
def gatewayAccept (s : State) (st c : Nat) (h : Hdr) (x : Flight) : State :=
  match meterTake (takeHdr s .request x.seg.id) st x.seg.cls (128 * x.seg.count) with
  | (reserved, s) =>
    let q := s.chan st c
    let e : GEntry := { id := x.seg.id, tag := freeTag q, reserved := reserved, order := q.order,
                        overdue := h.overdue || decide (remaining s.now x.seg.dl < 0), taken := false, mirrored := false }
    let q' := { q with entries := q.entries ++ [e], order := q.order + 1, headTc := some s.clk.tc }
    let t := (s.setChan st c q').setFlight x.seg.id
      { x with state := if segReads x.seg then .accepted else .called }
    if segReads x.seg then t else putHdr t .call x.seg.id (flightNode t x) (srcNode t x.seg)

/-- Whether a header is the one that its channel takes in this tc (R279): the channel has taken none, and it is the
first-ranked of the headers that stand before it; the others wait on the header network. -/
def gatewayTurn (s : State) (x : Flight) (c : Nat) : Bool :=
  let hs := s.mesh.hdrs.filter (fun h => h.kind == .request && h.node == h.dest && (match s.flight h.id with
    | some y => y.path == 1 && y.chan == x.chan
    | none => false))
  (s.chan (x.chan / 32) c).headTc != some s.clk.tc && (firstRanked (hdrRank s) hs).map (fun h => h.id) == some x.seg.id

/-- A header reaches its channel (R279): withdrawn, full or accepted. -/
def gatewayHeader (s : State) (id : Nat) : State :=
  match s.flight id, hdrHere s .request id with
  | some x, some h =>
    if x.path = 1 then
      match stackSt s (ppaOff x.seg.target / 2 ^ 21), flightChan s x with
      | .ok, (g, some c) =>
        if 512 ≤ (s.chan (g / 32) c).entries.length then refuse s x
        else if gatewayTurn s x c then gatewayAccept s (g / 32) c h x
        else s
      | .ok, (_, none) => killFlight s id .frameWithdrawn
      | st, _ => killFlight s id st
    else s
  | _, _ => s

/-- The gateway of a flight toward a stack. -/
def flightStack (s : State) (id : Nat) : Nat :=
  match s.flight id with
  | some x => (flightChan s x).1 / 32
  | none => 0

/-- GATEWAY_HEADER (R279). -/
def execGatewayHeader (id : Nat) (s : State) : Res := gate (dSG (flightStack s id)) 2 0 (.gatewayHeader id) s (fun s => gatewayHeader s id)

/-- Whether an entry's segment reads. -/
def gReads (s : State) (e : GEntry) : Bool :=
  match s.flight e.id with
  | some x => segReads x.seg
  | none => true

/-- Whether two flights share a granule. -/
def overlap (s : State) (a b : Nat) : Bool :=
  match s.flight a, s.flight b with
  | some x, some y =>
    let p := segGranule x.seg 0
    let q := segGranule y.seg 0
    p < q + 128 * y.seg.count && q < p + 128 * x.seg.count
  | _, _ => false

/-- Whether an entry is eligible (R280): no earlier overlapping entry unless both read, a write's data all there. -/
def gEligible (s : State) (x : Chan) (e : GEntry) : Bool :=
  (gReads s e || (match s.flight e.id with
    | some f => f.arrived == f.seg.count
    | none => false)) &&
  x.entries.all (fun d => !(decide (d.order < e.order) && overlap s d.id e.id && !(gReads s d && gReads s e)))

/-- The drain marks of R280: WR_HI acts as WR_LO + 1 when it is not above WR_LO. -/
def drainHi (s : State) (st : Nat) : Nat :=
  let hi := s.rgField (Reg.gwCfg st) 0 6
  let lo := s.rgField (Reg.gwCfg st) 6 6
  8 * (if lo < hi then hi else lo + 1)

/-- Whether a channel serves writes first (R280). -/
def drainNow (s : State) (st : Nat) (x : Chan) : Bool :=
  let n := (x.entries.filter (fun e => !gReads s e)).length
  drainHi s st < n || (x.draining && decide (8 * s.rgField (Reg.gwCfg st) 6 6 < n))

/-- The group of an entry in the order of R280: reserved first, then overdue, then latency-critical reads. -/
def gGroup (s : State) (e : GEntry) : Nat :=
  let lc := match s.flight e.id with
    | some x => segReads x.seg && s.rgBit (Reg.classCfg x.seg.cls) 20
    | none => false
  (if e.reserved then 0 else 4) + (if e.overdue then 0 else if lc then 1 else 2)

/-- The rank of an entry within its group. -/
def gRank (s : State) (e : GEntry) : Rank :=
  match s.flight e.id with
  | some x => stampRank s e.overdue e.order x.seg.dl x.seg.src
  | none => { overdue := e.overdue, order := e.order, r := 0, src := 4096 }

/-- The entry a channel offers (R280). -/
def gFirst (s : State) (st : Nat) (x : Chan) (ok : GEntry → Bool) : Option GEntry :=
  let es := x.entries.filter (fun e => ok e && gEligible s x e)
  let ws := es.filter (fun e => !gReads s e)
  let es := if drainNow s st x && !ws.isEmpty then ws else es
  match es.map (gGroup s) with
  | [] => none
  | k :: ks =>
    let g := ks.foldl min k
    firstRanked (gRank s) (es.filter (fun e => gGroup s e == g))

/-- One entry of a queue changed. -/
def mapGEntry (x : Chan) (id : Nat) (f : GEntry → GEntry) : Chan :=
  { x with entries := x.entries.map (fun e => if e.id == id then f e else e) }

/-- An entry leaves its queue; a read waits for its data. -/
def gFree (s : State) (st c : Nat) (e : GEntry) : State :=
  let x := s.chan st c
  let y := { x with entries := x.entries.filter (fun d => d.id != e.id), draining := drainNow s st x }
  (moved s (siteKey 2 (x.die.getD 0))).setChan st c (if gReads s e then { y with reads := y.reads ++ [e] } else y)

/-- The channel under repair of a stack. -/
def mirrorOf (s : State) (st : Nat) : Option Nat := (List.range 32).find? (fun c => (s.chan st c).state == .mirror)

/-- The controller accepts an entry of a channel (R279, R290): a mirrored write is freed once both channels took it. -/
def stackAccept (s : State) (st c : Nat) : State :=
  let x := s.chan st c
  match x.state with
  | .active | .noticed =>
    (match gFirst s st x (fun _ => true) with
     | some e => gFree s st c e
     | none => s)
  | .mirror =>
    (match gFirst s st x (fun e => !e.taken) with
     | some e => if gReads s e || e.mirrored then gFree s st c e
                 else s.setChan st c (mapGEntry x e.id (fun e => { e with taken := true }))
     | none => s)
  | .spareMirror =>
    (match mirrorOf s st with
     | none => s
     | some m =>
       let y := s.chan st m
       match gFirst s st y (fun e => !e.mirrored && !gReads s e) with
       | some e => if e.taken then gFree s st m e
                   else s.setChan st m (mapGEntry y e.id (fun e => { e with mirrored := true }))
       | none => s)
  | _ => s

/-- The gate of what a stack controller sends: it wakes its gateway's domain (R345, kind 5). -/
def gateStack (st : Nat) (c : Instr) (s : State) (eff : State → State) : Res :=
  gate (dSG (st % 2)) 5 (s.src (160 + st % 2)) c s eff

/-- STACK_ENTRY_ACCEPT (R279). -/
def execStackEntryAccept (st c : Nat) (s : State) : Res :=
  gateStack st (.stackEntryAccept st c) s (fun s => if clampOn s (32 + st % 2) then s else stackAccept s (st % 2) c)

/-- Reads of a channel that an overlapping later write would change take their data before it (R280, R281). -/
def snapReads (s : State) (x : Flight) (order : Nat) (es : List GEntry) : State :=
  es.foldl (fun t e =>
    match t.flight e.id with
    | some y =>
      if segReads y.seg && decide (e.order < order) && y.seg.data.isEmpty && overlap t e.id x.seg.id then
        t.setFlight e.id { y with seg := { y.seg with
          data := (List.range y.seg.count).map (fun i =>
            (granuleOf (t.stackMem.readN (ppaOff (segGranule y.seg i)) 128), 0#128)) } }
      else t
    | none => t) s

/-- Whether a write must still wait for an earlier entry of its queue (R230, R280): a write whose granules still come, that
shares a granule with it or with a read between them that it overlaps. -/
def gatewayBlocked (s : State) (x : Flight) : Bool :=
  match flightChan s x with
  | (g, some c) =>
    let es := (s.chan (g / 32) c).entries
    let mine : List GEntry := match es.find? (fun e => e.id == x.seg.id) with
      | some e => es.filter (fun (d : GEntry) => decide (d.order < e.order))
      | none => []
    let late (e : GEntry) : Bool := match s.flight e.id with
      | some y => !segReads y.seg && y.state != .acked
      | none => false
    mine.any (fun w => late w && (overlap s w.id x.seg.id ||
      mine.any (fun r => gReads s r && decide (w.order < r.order) && overlap s w.id r.id && overlap s r.id x.seg.id)))
  | _ => false

/-- A gateway write is complete: its last granule is in its entry, its point of coherence (R279, Table 10.2); the
acknowledgement leaves for its source. -/
def gatewayCoherent (s : State) (x : Flight) : State :=
  let s := putHdr s .ack x.seg.id (flightNode s x) (srcNode s x.seg)
  match flightChan s x with
  | (g, some c) =>
    let q := s.chan (g / 32) c
    let order := match q.entries.find? (fun e => e.id == x.seg.id) with
      | some e => e.order
      | none => q.order
    let t := snapReads s x order (q.reads ++ q.entries)
    let t := (List.range x.seg.count).foldl (fun t i =>
      let d := nth (0#1024, 0#128) x.seg.data i
      slcPassing (stackWrite t (ppaOff (segGranule x.seg i)) (granuleWBytes d.1 d.2)) (segGranule x.seg i)) t
    let t := countEvent t 0x08 g (128 * x.seg.count)
    rangeRecs t x.seg.src (segRq x.seg).ctx (segGranule x.seg 0) (128 * x.seg.count)
  | _ => s

/-- Read data of an accepted entry comes back, one granule, with the controller's marks (R281, R310). -/
def stackData (s : State) (st c tag : Nat) (ue : Nat) : State :=
  let q := s.chan st c
  match q.reads.find? (fun e => e.tag == tag) with
  | none => s
  | some e =>
    match s.flight e.id with
    | none => s.setChan st c { q with reads := q.reads.filter (fun d => d.id != e.id) }
    | some x =>
      let a := ppaOff (segGranule x.seg x.sent)
      let d := if x.seg.data.length = x.seg.count then (nth (0#1024, 0#128) x.seg.data x.sent).1
               else granuleOf (s.stackMem.readN a 128)
      let keep := if x.seg.data.length = x.seg.count then x.seg.data.map (·.1)
        else (List.range x.seg.count).map (fun i => granuleOf (s.stackMem.readN (ppaOff (segGranule x.seg i)) 128))
      let got := if ue = 0 then d else 0#1024
      let last := x.sent + 1 == x.seg.count
      let y := { x with
        sent := x.sent + 1, headAt := if x.sent = 0 then s.mesh.order else x.headAt,
        status := if ue ≠ 0 ∧ x.status = .ok then .eccUncorr else x.status,
        ans := if ue = 0 then x.ans else x.ans ++ [(x.sent, ue, 0)],
        seg := { x.seg with data := (setNth keep x.sent got).map (fun g => (g, 0#128)) },
        state := if last then .returning else x.state }
      let t := countEvent (s.setFlight e.id y) 0x07 (stackPlace s a).1 128
      if last then t.setChan st c { q with reads := q.reads.filter (fun d => d.id != e.id) } else t

/-- STACK_READ_DATA (R281). -/
def execStackReadData (st c tag : Nat) (ue : BitVec 2) (s : State) : Res :=
  gateStack st (.stackReadData st c tag ue) s (fun s => stackData s (st % 2) c tag ue.toNat)

/-! ## Levels (R282, R117) -/

/-- Whether the spare of a stack holds no die channel. -/
def spareApart (s : State) (st : Nat) : Bool := (s.chan st 32).die.isNone

/-- A LEVEL report; ignored for a spare that is idle or failed (R414) and for a channel that is out. -/
def levelReport (s : State) (st c level : Nat) : State :=
  let x := s.chan st c
  match x.die with
  | none => s
  | some g =>
    if inService x then
      refreshHold (s.setChan st c { x with level := level % 16, levelAt := s.now }) g
    else s

/-- STACK_LEVEL (R282). -/
def execStackLevel (st c level : Nat) (s : State) : Res := gateStack st (.stackLevel st c level) s (fun s => levelReport s (st % 2) c level)

/-- The level kept of a channel without a report: it acts as 15, and marks that the record is written (R282). -/
def staleLevel : Nat := 31

/-- 4,096 ns pass without a LEVEL report: level 15, and one record (R282, Table 13.3). -/
def levelOld (s : State) (st c : Nat) : State :=
  let x := s.chan st c
  match x.die with
  | none => s
  | some g =>
    if inService x && decide (x.levelAt + 4096 ≤ s.now) && x.level != staleLevel then
      refreshHold (rasError (s.setChan st c { x with level := staleLevel }) (s.src (160 + st)) none 0x09 0 2 g 0 0) g
    else s

/-- LEVEL_STALE (R282). -/
def execLevelStale (st c : Nat) (s : State) : Res := gateIn (dSG (st % 2)) s (fun s => levelOld s (st % 2) c)

/-! ## Retraining (R285 to R288, R414) -/

/-- The offset of GW_RETRAIN_ATc_LO of a die channel. -/
def retrainAtReg (g : Nat) : Nat := 0x7100 + 8 * g

/-- GW_RETRAIN_ATc. -/
def retrainAt (s : State) (g : Nat) : Nat := s.rg64 (retrainAtReg g) (retrainAtReg g + 4)

/-- Sets GW_RETRAIN_ATc. -/
def setRetrainAt (s : State) (g v : Nat) : State := s.setRg64 (retrainAtReg g) (retrainAtReg g + 4) v

/-- The start time of a noticed channel's retrain (R286). -/
def retrainStart (s : State) (g : Nat) (x : Chan) : Nat := if retrainAt s g = 0 then x.e else retrainAt s g

/-- A RETRAIN_NOTICE event (Table 6.6, R285): line 2, RAS_CAUSE bit 2. -/
def noticeEvent (s : State) (st g : Nat) (x : Chan) : State :=
  event (s.setRgBit Reg.rasCause 2 true) (s.src (160 + st)) none 0x12 2 g (retrainStart s g x)

/-- The event that an accepted change of GW_RETRAIN_ATc writes (R286). -/
def retrainAtChanged (s : State) (g : Nat) : State :=
  match chanOfDie s g with
  | some c => noticeEvent s (g / 32) g (s.chan (g / 32) c)
  | none => s

/-- A window, bounded and counted from its notice's arrival (R285). -/
def windowOf (e b at_ : Nat) : Nat × Nat := let e' := max e (at_ + 10000); (e', max b e')

/-- A channel takes a notice's window (R285, R286): a scheduled time outside it returns to 0; an event. -/
def takeNotice (s : State) (st c e b at_ : Nat) : State :=
  let x := s.chan st c
  let w := windowOf e b at_
  let y := { x with state := if x.state = .active then .noticed else x.state, e := w.1, b := w.2, kept := none }
  match x.die with
  | none => s.setChan st c y
  | some g =>
    let t := s.setChan st c y
    let r := retrainAt t g
    let t := if r ≠ 0 ∧ (r < w.1 ∨ w.2 < r) then setRetrainAt t g 0 else t
    noticeEvent t st g y

/-- A RETRAIN_NOTICE report (R285, R414, Table 12.3): a mirroring channel keeps its state and its window. -/
def notice (s : State) (st c e b : Nat) : State :=
  let x := s.chan st c
  match x.state with
  | .active | .noticed | .mirror | .spareMirror => takeNotice s st c e b s.now
  | .retraining => s.setChan st c { x with kept := some (e, b, s.now) }
  | .spareIdle => let w := windowOf e b s.now; s.setChan st c { x with e := w.1, b := w.2 }
  | _ => s

/-- RETRAIN_NOTICE (R285). -/
def execRetrainNotice (st c e b : Nat) (s : State) : Res := gateStack st (.retrainNotice st c e b) s (fun s => notice s (st % 2) c e b)

/-- Channels of a stack that retrain. -/
def retrainCount (s : State) (st : Nat) : Nat :=
  ((List.range 33).filter (fun c => (s.chan st c).state == .retraining)).length

/-- A retrain starts (R287): RETRAIN_GO, RETRAINING, the hold. -/
def retrainBegin (s : State) (st c : Nat) (mirror : Bool) : State :=
  let x := s.chan st c
  let t := (s.setChan st c { x with state := .retraining, went := s.now, e := 0, b := 0, wasMirror := mirror }).emit
    (.stackCmd st 0 c)
  match x.die with
  | some g => refreshHold t g
  | none => t

/-- The start time of a retrain comes (R44, R287): RETRAIN_MAX + 1 at once, or B. An idle spare starts at E and
stays idle (R414). -/
def retrainGo (s : State) (st c : Nat) : State :=
  let x := s.chan st c
  let at_ := match x.die with
    | some g => retrainStart s g x
    | none => x.e
  let room := retrainCount s st < s.rgField (Reg.gwCfg st) 12 2 + 1 || decide (x.b ≤ s.now)
  if x.b = 0 ∨ s.now < at_ then s
  else match x.state with
    | .noticed => if room then retrainBegin s st c false else s
    | .mirror | .spareMirror => if room then retrainBegin s st c true else s
    | .spareIdle => (s.setChan st c { x with e := 0, b := 0, went := s.now }).emit (.stackCmd st 0 c)
    | _ => s

/-- RETRAIN_GO (R287). -/
def execRetrainGo (st c : Nat) (s : State) : Res := gate (dSG (st % 2)) 6 0 (.retrainGo st c) s (fun s => retrainGo s (st % 2) c)

/-- A RETRAIN_DONE report (R285, R287, Table 12.1). -/
def retrainDone (s : State) (st c : Nat) : State :=
  let x := s.chan st c
  match x.state with
  | .spareIdle => s.setChan st c { x with went := 0 }
  | .retraining =>
    let back := if x.wasMirror then (if x.die.isNone then ChanState.spareMirror else .mirror) else .active
    let t := s.setChan st c { x with state := back, went := 0, wasMirror := false, kept := none }
    let t := t.setRg (Reg.gwRetrains st) ((s.rg (Reg.gwRetrains st) + 1) % 2 ^ 32)
    let t := match x.die with
      | some g => refreshHold (setRetrainAt t g 0) g
      | none => t
    (match x.kept with
     | some (e, b, at_) => takeNotice t st c e b at_
     | none => t)
  | _ => s

/-- RETRAIN_DONE (R285). -/
def execRetrainDone (st c : Nat) (s : State) : Res := gateStack st (.retrainDone st c) s (fun s => retrainDone s (st % 2) c)

/-! ## Repair and withdrawal (R289 to R294) -/

/-- No repair yet. -/
def repairIdle : Repair := { state := 0, chan := 0 }

/-- The repair of a stack. -/
def State.repair (s : State) (st : Nat) : Repair := tget repairIdle s.edge.repairs st

/-- The state with a stack's repair replaced. -/
def State.setRepair (s : State) (st : Nat) (x : Repair) : State :=
  { s with edge := { s.edge with repairs := tset repairIdle s.edge.repairs st x } }

/-- Withdraws a channel (R293, R294): CH_OFF, the mask, its entries, D_s, a CAPACITY event. -/
def withdraw (s : State) (st c : Nat) : State :=
  let x := s.chan st c
  match x.die with
  | none => s
  | some g =>
    let ids := (x.entries ++ x.reads).map (·.id)
    let t := (s.setChan st c { x with state := .withdrawn, entries := [], reads := [], kept := none, e := 0, b := 0,
                                      went := 0, wasMirror := false }).emit (.stackCmd st 3 c)
    let t := if g < 32 then t.setRgBit Reg.gwWithdrawnLo g true else t.setRgBit Reg.gwWithdrawnHi (g - 32) true
    let t := ids.foldl (fun t id => killFlight t id .frameWithdrawn) t
    capacity (rescale (refreshHold t g)) (160 + st) 4 g 0 false false

/-- Ends a repair without a switch (R292): STATE ABANDONED. -/
def repairEnd (s : State) (st : Nat) : State :=
  s.setRepair st { s.repair st with state := 3 }

/-- Forgets which writes of a mirror window the spare took. -/
def unmirror (x : Chan) (state : ChanState) : Chan :=
  { x with state := state, entries := x.entries.map (fun e => { e with taken := false, mirrored := false }) }

/-- Whether a channel stands in a mirror window. -/
def mirroring (x : Chan) : Bool := x.state == .mirror || x.state == .spareMirror || (x.state == .retraining && x.wasMirror)

/-- A channel is lost (R292, R293, R414): the spare fails, and c returns to ACTIVE when it mirrored; any other channel
is withdrawn, and a repair of it is abandoned with SPARE_OFF. -/
def chanLost (s : State) (st c : Nat) : State :=
  let x := s.chan st c
  if x.die.isNone then
    if x.state = .spareIdle then s.setChan st c { x with state := .spareFailed, went := 0, e := 0, b := 0 }
    else if mirroring x then
      let m := (s.repair st).chan
      let y := s.chan st m
      let t := s.setChan st c { x with state := .spareFailed, went := 0, e := 0, b := 0 }
      let t := if y.state = .mirror then t.setChan st m (unmirror y (if y.b = 0 then .active else .noticed))
               else t.setChan st m { y with wasMirror := false }
      repairEnd t st
    else s
  else if inService x then
    let sp := s.chan st 32
    let t := if mirroring x && (s.repair st).chan == c then
        repairEnd ((s.setChan st 32 (unmirror { sp with went := 0, e := 0, b := 0, wasMirror := false } .spareIdle)).emit
          (.stackCmd st 2 32)) st
      else s
    withdraw t st c
  else s

/-- A CH_LOST or RETRAIN_FAIL report; for an idle spare it is a work item of the clerk too (R414). -/
def lostReport (s : State) (st c code : Nat) : State :=
  let t := chanLost s st c
  if (s.chan st c).state = .spareIdle then reportItem t st code c 0 else t

/-- RETRAIN_FAIL (R293). -/
def execRetrainFail (st c : Nat) (s : State) : Res := gateStack st (.retrainFail st c) s (fun s => lostReport s (st % 2) c 4)

/-- CH_LOST (R293). -/
def execChLost (st c : Nat) (s : State) : Res := gateStack st (.chLost st c) s (fun s => lostReport s (st % 2) c 5)

/-- No RETRAIN_DONE within GW_RETRAIN_TO of RETRAIN_GO (R288, R414). -/
def retrainLate (s : State) (st c : Nat) : State :=
  let x := s.chan st c
  if x.went ≠ 0 ∧ x.went + s.rgField Reg.gwRetrainTo 0 16 ≤ s.now ∧ (x.state = .retraining ∨ x.state = .spareIdle) then
    chanLost s st c
  else s

/-- RETRAIN_TIMEOUT (R288). -/
def execRetrainTimeout (st c : Nat) (s : State) : Res := gateIn (dSG (st % 2)) s (fun s => retrainLate s (st % 2) c)

/-- A REPAIR_ADVISED report (R282, R293, R414): an item for the clerk; withdrawal when the spare is not idle. -/
def repairAdvised (s : State) (st c : Nat) : State :=
  let x := s.chan st c
  if x.state = .spareIdle then reportItem (chanLost s st c) st 6 c 0
  else if inService x then
    let t := reportItem s st 6 c 0
    if (s.chan st 32).state = .spareIdle then t else chanLost t st c
  else if mirroring x then chanLost (reportItem s st 6 c 0) st c
  else s

/-- REPAIR_ADVISED (R282). -/
def execRepairAdvised (st c : Nat) (s : State) : Res := gateStack st (.repairAdvised st c) s (fun s => repairAdvised s (st % 2) c)

/-- ROW_REPAIRED (R282): counted, but for a failed spare. -/
def execRowRepaired (st c off : Nat) (s : State) : Res :=
  gateStack st (.rowRepaired st c off) s (fun s =>
    let i := st % 2
    if 32 < c ∨ (s.chan i c).state = .spareFailed ∨ off ≥ 2 ^ 32 then s
    else s.setRg (Reg.gwRowrep i) ((s.rg (Reg.gwRowrep i) + 1) % 2 ^ 32))

/-- A SPARE_ROW_FAILED report (R282, R283, R321). -/
def spareRowFailed (s : State) (st c off : Nat) : State :=
  let x := s.chan st c
  match x.die with
  | none => s
  | some g =>
    if inService x then
      let t := { s with edge := { s.edge with badRows := s.edge.badRows ++ [(g, off)] } }
      rowFailed t st c (frameOf s g off) off
    else s

/-- SPARE_ROW_FAILED (R321). -/
def execSpareRowFailed (st c off : Nat) (s : State) : Res := gateStack st (.spareRowFailed st c off) s (fun s => spareRowFailed s (st % 2) c off)

/-- The table unit sets one frame over a withdrawn channel to WITHDRAWN (R294). -/
def frameWithdraw (s : State) (f : Nat) : State :=
  let x := s.frame f
  if frameMasked s (frameMode s f) f then
    match x.state with
    | .mapped | .unmapping | .retiring => s.setFrame f { x with state := .withdrawn }
    | _ => s
  else s

/-- A write to GW_REPAIRs (R289, R292). -/
def repairWrite (s : State) (st v : Nat) : State :=
  let c := bits v 0 5
  let t := s.setRg (Reg.gwRepair st) c
  let x := s.chan st c
  let r := s.repair st
  if !bit v 31 then t
  else if r.state = 1 then t
  else if (s.chan st 32).state = .spareIdle ∧ (x.state = .active ∨ x.state = .noticed) then
    let t := (t.setChan st c { x with state := .mirror }).setChan st 32 { s.chan st 32 with state := .spareMirror }
    (t.setRepair st { state := 1, chan := c }).emit (.stackCmd st 1 32)
  else t.setRepair st { state := 3, chan := c }

/-- GW_REPAIR_GO (R289). -/
def execGwRepairGo (st : Nat) (v : Word) (src : Nat) (s : State) : Res :=
  gate (dSG (st % 2)) 7 src (.gwRepairGo st v src) s (fun s => repairWrite s (st % 2) v.toNat)

/-- The spare takes the die channel of c (R291, R326): CH_OFF for c, GW_SPAREs, STATE SWITCHED, a CAPACITY event. -/
def spareSwitch (s : State) (st c : Nat) : State :=
  let x := s.chan st c
  match x.die with
  | none => s
  | some g =>
    let sp := s.chan st 32
    let moved := x.entries.map (fun e => { e with taken := false, mirrored := false })
    let t := s.setChan st 32 { sp with state := if x.b = 0 ∧ sp.b = 0 then .active else .noticed, die := some g,
                                       entries := moved, order := x.order, draining := x.draining,
                                       e := if sp.b = 0 then x.e else sp.e, b := if sp.b = 0 then x.b else sp.b }
    let t := (t.setChan st c { x with state := .replaced, die := none, entries := [], e := 0, b := 0 }).emit
      (.stackCmd st 3 c)
    let t := (t.setRg (Reg.gwSpare st) (2 ^ 31 + c)).setRepair st { s.repair st with state := 2, chan := c }
    capacity (refreshHold t g) (160 + st) 5 g 0 false false

/-- The pieces of 512 B of a frame that lie on a die channel, by STACK offset. -/
def framePieces (s : State) (f g : Nat) : List Nat :=
  ((List.range 4096).map (fun k => f * 2 ^ 21 + 512 * k)).filter (fun o => (stackPlace s o).1 == g)

/-- A copy piece whose read is uncorrectable is not written: that piece of the copy is undefined, and its frame enters
RETIRING (R290). -/
def copyBad (s : State) (st c g off : Nat) : State :=
  let f := frameOf s g off
  let bad := (framePieces s f g).filter (fun o => (List.range 8).any (fun i => stackBad s (o + 64 * i)))
  let t := bad.foldl (fun t o =>
    { t with stackMem := t.stackMem.markUndef o (o + 512) t.freeCtr, freeCtr := t.freeCtr + 1 }) s
  rowFailed t st c f off

/-- The copy of a repair ends, and the map switches (R290, R291). -/
def repairSwitch (s : State) (st : Nat) : State :=
  let r := s.repair st
  let x := s.chan st r.chan
  match x.die with
  | none => s
  | some g =>
    if r.state = 1 ∧ x.state = .mirror ∧ (s.chan st 32).state = .spareMirror then
      let rows := s.edge.badRows.filter (fun b => b.1 == g)
      let t := rows.foldl (fun t b => copyBad t st r.chan g b.2) s
      let t := { t with edge := { t.edge with badRows := t.edge.badRows.filter (fun b => b.1 != g) } }
      spareSwitch t st r.chan
    else s

/-- REPAIR_SWITCH (R291). -/
def execRepairSwitch (st : Nat) (s : State) : Res := gateIn (dSG (st % 2)) s (fun s => repairSwitch s (st % 2))

/-- A write to GW_BOOTs, access BT (R326). -/
def bootSpare (s : State) (st v : Nat) : State :=
  let c := bits v 0 5
  if isSealedDie s then s
  else if !bit v 31 then s.setRg (Reg.gwBoot st) (v &&& 0x8000001F)
  else if (s.chan st 32).state = .spareIdle ∧ (s.chan st c).state = .active then
    spareSwitch (((s.setRg (Reg.gwBoot st) (v &&& 0x8000001F))).emit (.stackCmd st 1 32)) st c
  else s

/-- GW_BOOT_SPARE (R326). -/
def execGwBootSpare (st : Nat) (v : Word) (s : State) : Res :=
  gate (dSG (st % 2)) 7 0 (.gwBootSpare st v) s (fun s => bootSpare s (st % 2) v.toNat)

/-- A write to GW_BOOT_WDs, access BT (R326): a set bit withdraws its channel and stays set. -/
def bootWd (s : State) (st v : Nat) : State :=
  if isSealedDie s then s
  else
    let old := s.rg (Reg.gwBootWd st)
    upTo 32 (fun c t => if bit v c && !bit old c && inService (t.chan st c) then withdraw t st c else t)
      (s.setRg (Reg.gwBootWd st) (old ||| v))

/-- GW_BOOT_WD (R326). -/
def execGwBootWd (st : Nat) (v : Word) (s : State) : Res :=
  gate (dSG (st % 2)) 7 0 (.gwBootWd st v) s (fun s => bootWd s (st % 2) v.toNat)

/-! ## Overdue entries (R40, R288) -/

/-- An entry of a teller or a channel queue becomes overdue (R40); one held by a retrain counts in GW_LATEs (R288). -/
def overdueEntry (s : State) (id : Nat) : State :=
  match s.flight id with
  | none => s
  | some x =>
    if 0 ≤ remaining s.now x.seg.dl then s
    else if x.path = 0 then
      let t := s.teller (bankOf x.seg)
      s.setTeller (bankOf x.seg) (mapEntry t id (fun e => { e with overdue := true }))
    else
      match s.edge.chans.find? (fun c => c.2.entries.any (fun e => e.id == id && !e.overdue)) with
      | none => s
      | some (k, q) =>
        let t := s.setChan (k / 64) (k % 64) (mapGEntry q id (fun e => { e with overdue := true }))
        if q.state = .retraining then t.countRg (Reg.gwLate (k / 64)) 1 else t

/-- ENTRY_OVERDUE (R40). -/
def execEntryOverdue (id : Nat) (s : State) : Res := gateIn dFAB s (fun s => overdueEntry s id)

end Sys2Proof.Machine
end

