-- ==== Sys2Proof/Machine/Links.lean ====
section
/-! DEFINITION. The arrival of granules, read data and acknowledgements, the far agent and the die links
(Chapter 12, R296 to R305). -/

namespace Sys2Proof.Machine

/-! ## Far agent (R295 to R298) -/

/-- The 64 B pieces of a far granule with an enabled byte, and whether every byte of the piece is enabled (R296). -/
def farPieces (a : Nat) (be : Enables) : List (Nat × Bool) :=
  let half (h : Nat) := bits be.toNat (64 * h) 64
  ((List.range 2).filter (fun h => half h != 0)).map (fun h => (bits a 0 55 / 64 + h, half h == 2 ^ 64 - 1))

/-- Whether the order table of the far agent holds a piece (R297). -/
def farBusy (s : State) (p : Nat) : Bool := s.edge.farTable.any (fun e => e.1 == p)

/-- Granule i of a far write enters the agent's order table and is accepted (R297): none when it waits. -/
def farAccept (s : State) (x : Flight) (i : Nat) : Option State :=
  let d := nth (0#1024, 0#128) x.seg.data i
  let a := segGranule x.seg i
  let ps := farPieces a d.2
  if ps.any (fun p => farBusy s p.1) || decide (1024 < s.edge.farTable.length + ps.length) then none
  else
    let t := { s with edge := { s.edge with farTable := s.edge.farTable ++ ps.map (fun p => (p.1, x.seg.id, p.2)) } }
    let t := countEvent t 0x0B 1 (64 * ps.length)
    some (slcPassing { t with extMem := t.extMem.writeE a (granuleWBytes d.1 d.2) } a)

/-- Whether a flight has pieces that the far tier has not acknowledged. -/
def farOwes (s : State) (id : Nat) : Bool := s.edge.farTable.any (fun e => e.2.1 == id)

/-- The far tier acknowledges a piece (R297): its slot frees; a write with no piece left is acknowledged. -/
def farAck (s : State) (piece : Nat) : State :=
  match s.edge.farTable.find? (fun e => e.1 == piece) with
  | none => s
  | some (_, id, _) =>
    let t := { s with edge := { s.edge with farTable := s.edge.farTable.filter (fun e => e.1 != piece) } }
    match t.flight id with
    | some x => if x.arrived = x.seg.count ∧ x.state = .sending ∧ !farOwes t id then
        putHdr (t.setFlight id { x with state := .acked }) .ack id (flightNode t x) (srcNode t x.seg)
      else t
    | none => t

/-- FAR_WRITE_ACK (R297). -/
def execFarWriteAck (piece : Nat) (s : State) : Res := gate dEDGE 2 0 (.farWriteAck piece) s (fun s => farAck s piece)

/-- One half of the next granule of a far read returns (R296, R298): both halves complete the granule. -/
def farData (s : State) (id half : Nat) (ue : Bool) : State :=
  match s.flight id with
  | none => s
  | some x =>
    let i := x.sent
    let a := segGranule x.seg i
    let h := half % 2
    if x.path = 2 ∧ segReads x.seg ∧ x.state = .accepted ∧ i < x.seg.count ∧ !bit x.halves h ∧ !farBusy s (bits a 0 55 / 64 + h) then
      let halves := x.halves + 2 ^ h + b2n ue * 2 ^ (2 + h)
      let t := countEvent s 0x0B 0 64
      if bits halves 0 2 = 3 then
        let bad := bits halves 2 2
        let got := if bad = 0 then granuleOf (s.extMem.readN a 128) else 0#1024
        t.setFlight id { x with
          sent := i + 1, halves := 0, headAt := if i = 0 then s.mesh.order else x.headAt, status := if bad ≠ 0 ∧ x.status = .ok then .eccUncorr else x.status,
          ans := if bad = 0 then x.ans else x.ans ++ [(i, bad, 0)],
          seg := { x.seg with data := x.seg.data ++ [(got, 0#128)] },
          state := if i + 1 = x.seg.count then .returning else x.state }
      else t.setFlight id { x with halves := halves }
    else s

/-- FAR_READ_DATA (R296). -/
def execFarReadData (id half : Nat) (ue : Bool) (s : State) : Res := gate dEDGE 2 0 (.farReadData id half ue) s (fun s => farData s id half ue)

/-! ## Die-link ports (R300 to R305) -/

/-- The nearest present die beyond a port in its direction (R300), 16 where there is none. -/
def peerOf (s : State) (p : Nat) : Nat :=
  let r := s.pwr.dieId / 4
  let c := s.pwr.dieId % 4
  let cells := (List.range 3).filterMap (fun i =>
    let k := i + 1
    if p = 0 then (if k ≤ r then some ((r - k) * 4 + c) else none)
    else if p = 1 then (if c + k < 4 then some (r * 4 + c + k) else none)
    else if p = 2 then (if r + k < 4 then some ((r + k) * 4 + c) else none)
    else (if k ≤ c then some (r * 4 + c - k) else none))
  (cells.find? (fun d => decide (d ∈ s.build.dies))).getD 16

/-- Granule i of a write toward another die leaves by its port, or waits at the port's node (R303). -/
def linkAccept (s : State) (x : Flight) (i : Nat) : Option State :=
  let d := nth (0#1024, 0#128) x.seg.data i
  let a := segGranule x.seg i
  let p := x.path - 3
  let o := Out.link p (ppaDie a) x.seg.cls x.seg.src true x.seg.dl a d.1 d.2
  if laneWaits s p o then none else linkSend s p o

/-- A read toward another die leaves by its port as one request (R302). -/
def linkRequest (s : State) (x : Flight) : State :=
  let p := x.path - 3
  linkOut s p (.link p (ppaDie x.seg.target) x.seg.cls x.seg.src false x.seg.dl x.seg.target 0#1024 0#128)

/-- The stored effect of a complete write toward another die, as that die performs it (R302). -/
def linkPerform (s : State) (x : Flight) : State :=
  (List.range x.seg.count).foldl (fun t i =>
    let d := nth (0#1024, 0#128) x.seg.data i
    slcPassing (extWrite t (segGranule x.seg i) (granuleWBytes d.1 d.2)).1 (segGranule x.seg i)) s

/-- A flit that fails its CRC is replayed and counted; more than REPLAY_LIMIT within 1,000,000 ns retrain (R305). -/
def replay (s : State) (p : Nat) : State :=
  let l := s.link p
  let t := s.countRg (Reg.linkReplay p) 1
  let l' := if l.replays = 0 ∨ l.replayFrom + 1000000 ≤ s.now then { l with replays := 1, replayFrom := s.now }
            else { l with replays := l.replays + 1 }
  let t := t.setLink p l'
  if s.rgField Reg.linkCfg 0 16 < l'.replays then
    t.setLink p { l' with state := .training, since := s.now, replays := 0, votes := 0#37 }
  else t

/-- A request or response for another die crosses the transit switch (R301), in its lane (R302, R303). -/
def transit (s : State) (f : Flit) : State :=
  let p := routePort s f.dest
  let d := nth (0#1024, 0#128) f.seg.data 0
  let a := f.seg.target
  let memory := ppaFar a || ppaSpace a ≤ 6 || ppaSpace a == 8
  linkOut s p
    (if f.net then .answer p f.dest f.lane f.seg.src f.seg.id f.st d.1
     else if memory then .link p f.dest f.lane f.seg.src (!segReads f.seg) f.seg.dl a d.1 d.2
     else .control p f.dest f.lane f.seg.src (!segReads f.seg) f.seg.id f.seg.dl a (BitVec.ofNat 64 (d.1.toNat / 2 ^ (8 * (a % 128)))))

/-- Whether a flight stands for a write to a control space of another die, which is off already and only waits for its
acknowledgement (R267). -/
def controlFlight (x : Flight) : Bool := !ppaFar x.seg.target && decide (8 < ppaSpace x.seg.target)

/-- A write to a control space of another die leaves by its link (R302), on a lane and with a stamp; what it leaves in flight
ends with its acknowledgement, for which releases wait (R239, R267). -/
def controlOut (s : State) (src : Nat) (ctx : Option (Nat × Nat)) (lane dl a v : Nat) : State :=
  let p := routePort s (ppaDie a)
  let id := 2 ^ 32 + s.sync.nextKey
  let g : Segment := { id := id, src := src, ctx := ctx.map (·.1), cls := lane, kind := .write, target := a, count := 1,
                       dl := dl, sealedMark := false, data := [] }
  let x : Flight :=
    { seg := g, state := .sending, chan := 0, sent := 1, pos := [], arrived := 1, back := 0, sunk := none, rails := [],
      headAt := 0, overdue := false, holdStart := none, firstTry := s.now % 2 ^ 24, issued := s.now, tags := 0,
      path := p + 3, retryAt := 0, answered := true, status := .ok, halves := 0, ans := [] }
  let t := ({ s with sync := { s.sync with nextKey := s.sync.nextKey + 1 } }).setFlight id x
  linkOut t p (.control p (ppaDie a) lane src true id dl a (BitVec.ofNat 64 v))

/-- A response flit answers a segment of this die (R302, Table 10.2): the next granule of a read, or the acknowledgement of a
write, which sends it on to its source. -/
def linkAnswer (s : State) (f : Flit) : State :=
  match s.flight f.seg.id with
  | none => s
  | some x =>
    let st := if x.status = .ok then f.st else x.status
    if x.path < 3 then s
    else if segReads x.seg then
      if x.state = .accepted ∧ x.sent < x.seg.count then
        s.setFlight f.seg.id { x with
          sent := x.sent + 1, status := st, headAt := if x.sent = 0 then s.mesh.order else x.headAt,
          seg := { x.seg with data := x.seg.data ++ [nth (0#1024, 0#128) f.seg.data 0] },
          state := if x.sent + 1 = x.seg.count then .returning else x.state }
      else s
    else if controlFlight x then s.dropFlight f.seg.id
    else if x.arrived = x.seg.count ∧ x.state = .sending then
      putHdr (s.setFlight f.seg.id { x with state := .acked, status := st }) .ack f.seg.id (flightNode s x)
        (srcNode s x.seg)
    else s

/-- The segment that a request flit brings: the class of its lane, and for a request of the host or of an I/O die the
source number of the port at which it enters the die (R18, R299). -/
def flitSeg (s : State) (p : Nat) (f : Flit) : Segment :=
  { f.seg with cls := f.lane, src := if f.io then s.src (162 + p) else f.seg.src, ctx := if f.io then none else f.seg.ctx }

/-- A DATA flit arrives (R301, R302, R305, R391). -/
def linkFlit (s : State) (p : Nat) (f : Flit) : State :=
  if !linkUp s p then s
  else if !f.crcOk then replay s p
  else
    let n := if f.net then b2n (!f.seg.data.isEmpty) else b2n (!segReads f.seg)
    let t := countEvent s 0x0A (p * 16 + f.lane) n
    if f.dest ≠ s.pwr.dieId then transit t f
    else if f.net then linkAnswer t f
    else if quarantined s (162 + p) then replySeg t (flitSeg t p f) true .quarantined 0#1024
    else issueSeg t (flitSeg t p f)

/-- New votes of a peer wake the domains they name and FAB (R336, R340). -/
def voteWakes (s : State) (old new : BitVec 37) (voter : Nat) : State :=
  upTo 37 (fun d t => if d ≠ 0 ∧ bit new.toNat d ∧ !bit old.toNat d then wakeDom t d 0 voter else t) s

/-- A CONTROL flit (R391): the peer's votes, and credit returns. -/
def controlFlit (s : State) (p : Nat) (votes : Option (BitVec 37)) (credits : List (Nat × Bool × Nat)) : State :=
  if !linkUp s p then s
  else
    let l := s.link p
    let cr := credits.foldl (fun t c => tset 0 t (creditKey c.1 c.2.1) (tget 0 t (creditKey c.1 c.2.1) - c.2.2)) l.credits
    let v := votes.getD l.votes
    let t := s.setLink p { l with votes := v, credits := cr }
    voteWakes (drainWaiting t p) l.votes v (34 + p)

/-- LINK_CONTROL_FLIT (R391). -/
def execLinkControlFlit (port : Nat) (votes : Option (BitVec 37)) (credits : List (Nat × Bool × Nat)) (s : State) : Res :=
  gate dEDGE 3 0 (.linkControlFlit port votes credits) s (fun s => controlFlit s (port % 4) votes credits)

/-- A wake pattern that names this die wakes EDGE and FAB, and the domains that PWR_CFG's PAT bits select (R344). -/
def wakePattern (s : State) (die : Nat) : State :=
  if die ≠ s.pwr.dieId then s
  else
    let t := wakeDom (wakeDom s dFAB 4 0) dEDGE 4 0
    let t := if s.rgBit Reg.pwrCfg 26 then wakeDom t (dSG 0) 4 0 else t
    let t := if s.rgBit Reg.pwrCfg 27 then wakeDom t (dSG 1) 4 0 else t
    if s.rgBit Reg.pwrCfg 28 then upTo 32 (fun n u => wakeDom u (dHome n) 4 0) t else t

/-- WAKE_PATTERN (R304); the stop recognises it whatever domain is down. -/
def execWakePattern (die : Nat) (s : State) : Res := if frozen s then .next s else .next (wakePattern s die)

/-- LINK_RETRAIN (R305): the port trains, and a peer vote is withdrawn as the link leaves UP (R336). -/
def execLinkRetrain (port : Nat) (s : State) : Res :=
  gateIn dEDGE s (fun s =>
    let l := s.link (port % 4)
    if l.state = .up then
      s.setLink (port % 4) { l with state := .training, since := s.now, replays := 0, votes := 0#37 }
    else s)

/-- LINK_UP (R300). -/
def execLinkUp (port : Nat) (s : State) : Res :=
  gateIn dEDGE s (fun s =>
    let l := s.link (port % 4)
    if l.state = .training ∨ l.state = .down then
      votesOut (drainWaiting (s.setLink (port % 4) { l with state := .up, since := s.now, replays := 0 }) (port % 4)) (port % 4)
    else s)

/-- A link not UP within TRAIN_US fails (R305): quarantine of its port, a LINK_FAIL record. -/
def linkFail (s : State) (p : Nat) : State :=
  let l := s.link p
  if l.state = .training ∧ l.since + 1000 * max 1 (s.rgField Reg.linkCfg 16 8) ≤ s.now then
    let t := s.setLink p { l with state := .failed, waiting := [], votes := 0#37 }
    let t := if quarantined t (162 + p) then t else quarantine t (162 + p)
    rasError t (s.src (162 + p)) none 0x0A 0 4 p 0 0
  else s

/-- LINK_FAILED (R305). -/
def execLinkFailed (port : Nat) (s : State) : Res := gateIn dEDGE s (fun s => linkFail s (port % 4))

/-- The partner die resets or drops EDGE (R353): DOWN; its unanswered requests end with QUARANTINED. -/
def linkDown (s : State) (p : Nat) : State :=
  let l := s.link p
  if l.state = .inactive then s
  else
    let d := peerOf s p
    let ids := (s.mesh.flights.filter (fun f => f.2.path == p + 3 && ppaDie f.2.seg.target == d)).map (·.1)
    ids.foldl (fun t id => killFlight t id .quarantined)
      (s.setLink p { l with state := .down, since := s.now, votes := 0#37, credits := [] })

/-- LINK_DOWN (R353). -/
def execLinkDown (port : Nat) (s : State) : Res := gateIn dEDGE s (fun s => linkDown s (port % 4))

/-! ## Granules, data and acknowledgements (R97, R200, R120) -/

/-- A granule of a write has arrived, in this tc. -/
def granuleIn (s : State) (x : Flight) : State :=
  s.setFlight x.seg.id { x with arrived := x.arrived + 1, sunk := some s.clk.tc }

/-- Performs a gateway write whose granules are all in, once the order of its queue lets it (R230, R279). -/
def gatewayPerform (s : State) (id : Nat) : State :=
  match s.flight id with
  | some x =>
    if x.path = 1 ∧ !segReads x.seg ∧ x.state = .sending ∧ x.arrived = x.seg.count ∧ !gatewayBlocked s x then
      gatewayCoherent (s.setFlight id { x with state := .acked }) { x with state := .acked }
    else s
  | none => s

/-- A far write whose pieces the far tier has all acknowledged is acknowledged to its source (R297, Table 10.2). -/
def farDone (s : State) (id : Nat) : State :=
  match s.flight id with
  | some x =>
    if x.path = 2 ∧ !segReads x.seg ∧ x.state = .sending ∧ x.arrived = x.seg.count ∧ !farOwes s id then
      putHdr (s.setFlight id { x with state := .acked }) .ack id (flightNode s x) (srcNode s x.seg)
    else s
  | none => s

/-- The last granule of a write is where its path takes it (Table 10.2): its rails are free. A write toward another die waits
for that die's acknowledgement. -/
def lastGranule (s : State) (id : Nat) : State :=
  match s.flight id with
  | none => s
  | some x =>
    if x.path = 0 ∨ x.arrived < x.seg.count then s
    else
      let t := freeRails (s.setFlight id { x with rails := [], holdStart := none }) x
      if x.path = 1 then gatewayPerform t id
      else
        let t := if x.path = 2 then farDone t id else linkPerform t x
        rangeRecs t x.seg.src (segRq x.seg).ctx (segGranule x.seg 0) (128 * x.seg.count)

/-- Whether the last stage of a flight's way has a granule for the sink, in a tc that has brought it none (R105). -/
def sinkReady (s : State) (x : Flight) : Bool :=
  let n := (stages s x).length
  decide (x.rails.length = n) && decide (delivered x < stageIn x (n - 1)) && x.sunk != some s.clk.tc

/-- Whether a write's sink has a place for its next granule: a teller holds two beyond those written (log 32). -/
def sinkRoom (s : State) (x : Flight) : Bool :=
  match flightEntry s x with
  | some e => decide (x.arrived < e.progress + 2)
  | none => true

/-- A write granule reaches its teller, gateway entry, far agent or port. -/
def granuleArrive (s : State) (id : Nat) : State :=
  match s.flight id with
  | none => s
  | some x =>
    if segReads x.seg ∨ x.state ≠ .sending ∨ x.seg.count ≤ x.arrived ∨ !sinkReady s x ∨ !sinkRoom s x then s
    else
      let at_ : Option State :=
        if x.path ≤ 1 then some s else if x.path = 2 then farAccept s x x.arrived else linkAccept s x x.arrived
      match at_ with
      | none => s
      | some t => lastGranule (countEvent (granuleIn t x) 0x06 (flightNode s x * 8 + 4) 1) id

/-- The domain where the granules of a flight arrive. -/
def sinkDom (s : State) (id : Nat) : Nat :=
  match s.flight id with
  | some x =>
    if x.path = 0 then dHome (bankOf x.seg / 8) else if x.path = 1 then dSG ((flightChan s x).1 / 32) else dEDGE
  | none => dFAB

/-- SEGMENT_GRANULE_ARRIVE (R97). -/
def execSegmentGranuleArrive (id : Nat) (s : State) : Res :=
  gate (sinkDom s id) 2 0 (.segmentGranuleArrive id) s (fun s => granuleArrive s id)

/-- The latency sample of a read segment that left the banks, when its first data reaches its source (R120): not of one
that came in by a die link, whose source is on another die. -/
def latSample (s : State) (x : Flight) : State :=
  if x.path = 0 ∨ x.seg.src / 256 ≠ s.pwr.dieId ∨ (162 ≤ x.seg.src % 256 ∧ x.seg.src % 256 < 166) then s
  else latencySample s x.seg.cls (s.now - x.issued)

/-- Whether a granule of a read can reach its source now. -/
def dataReady (s : State) (x : Flight) : Bool :=
  segReads x.seg && decide (x.back < x.seg.count) && sinkReady s x && flows x

/-- The next read granule reaches its source (R98, R120, R200). -/
def dataArrive (s : State) (id : Nat) : State :=
  match s.flight id with
  | none => s
  | some x =>
    if !dataReady s x then s
    else
      let d := (nth (0#1024, 0#128) x.seg.data x.back).1
      let t := if x.back = 0 then latSample s x else s
      let t := countEvent (answer1 t x) 0x06 (srcNode s x.seg * 8 + 4) 1
      let bad := x.ans.any (fun a => a.1 == x.back && a.2.1 != 0)
      let st := if bad then Status.eccUncorr else .ok
      if x.back + 1 = x.seg.count then endFlight (takeAns (freeRails t x) x x.ans) x x.status d
      else replySeg (t.setFlight id { x with back := x.back + 1, sunk := some s.clk.tc, answered := true }) x.seg false st d

/-- READ_DATA_ARRIVE (R200). -/
def execReadDataArrive (id : Nat) (s : State) : Res := gate dFAB 2 0 (.readDataArrive id) s (fun s => dataArrive s id)

/-- A write's acknowledgement reaches its source (R98, R200, R311). -/
def ackArrive (s : State) (id : Nat) : State :=
  match s.flight id, hdrHere s .ack id with
  | some x, some _ => endFlight (takeAns (answer1 s x) x x.ans) x x.status 0#1024
  | _, _ => s

/-- WRITE_ACK_ARRIVE (R200). -/
def execWriteAckArrive (id : Nat) (s : State) : Res := gate dFAB 2 0 (.writeAckArrive id) s (fun s => ackArrive s id)

/-! ## One tc at the edge units -/

/-- The request header of a read toward the far agent or a die-link port reaches its unit, which takes it at once. -/
def edgeRequest (s : State) (id : Nat) : State :=
  match s.flight id, hdrHere s .request id with
  | some x, some _ =>
    if x.path < 2 then s
    else
      let t := (takeHdr s .request id).setFlight id { x with state := .accepted }
      if x.path = 2 then t else linkRequest t x
  | _, _ => s

/-- One tc: the mesh, then the edge units; a segment that waits at its issue point is decided again (R116). -/
def segmentsTc (s : State) : State :=
  let t := meshTc s
  let t := t.mesh.flights.foldl (fun t f => gatewayPerform (edgeRequest t f.1) f.1) t
  t.regu.waiting.foldl (fun t w => match w.who with
    | .seg g => if quarantined t (entryUnit t g) then replySeg (unwait t w.who) g true .quarantined 0#1024 else issueChecked t g
    | _ => t) t

end Sys2Proof.Machine
end

