-- ==== Sys2Proof/Machine/Frames.lean ====
section
/-! DEFINITION. The table unit: mapping, group modes, unmapping and shootdowns (R71, R80 to R82, R416). -/

namespace Sys2Proof.Machine

/-- What a ledger operation answers: done with a status, or it waits. -/
inductive LedgerAns where
  | done (st : Status)
  | waits
  deriving DecidableEq, Repr

/-! ## Program contexts (R131, R144) -/

/-- A program context of a mover, by mover × 8 + p. -/
def State.pctx (s : State) (k : Nat) : Option PCtx := tfind s.work.pctxs k

/-- The state with a program context put. -/
def State.setPctx (s : State) (k : Nat) (x : PCtx) : State :=
  { s with work := { s.work with pctxs := tput s.work.pctxs k x } }

/-- The state without a program context. -/
def State.dropPctx (s : State) (k : Nat) : State :=
  { s with work := { s.work with pctxs := terase s.work.pctxs k } }

/-- The command of a program context has all its requests done, with a status (R144, R146). -/
def pctxDone (s : State) (k : Nat) (st : Status) : State :=
  match s.pctx k with
  | some x =>
    (unwait (unwait s (.pctx k false)) (.pctx k true)).setPctx k { x.err s.clk.tc st with done := true, wait := none }
  | none => s

/-! ## Group modes (R71, R72) -/

/-- Whether a segment in flight toward a frame group has not reached its gateway (R71). -/
def groupBusy (s : State) (g : Nat) : Bool :=
  s.mesh.flights.any (fun f => f.2.path == 1 && ppaOff f.2.seg.target / 2 ^ 27 == g &&
    (f.2.state == .header || f.2.state == .refused || f.2.state == .backoff))

/-- A group takes its new mode (R71). -/
def setMode (s : State) (g m : Nat) : State :=
  let t := s.setRgField (Reg.fgrpMode (g / 16)) (2 * (g % 16)) 2 m
  { t with xl := { t.xl with modeSwitch := terase t.xl.modeSwitch g } }

/-- The data a group held before its mode changes is undefined (R71). -/
def groupUndef (s : State) (g : Nat) : State :=
  { s with stackMem := s.stackMem.markUndef (g * 2 ^ 27) ((g + 1) * 2 ^ 27) s.freeCtr, freeCtr := s.freeCtr + 1 }

/-- The mode of a group, or the one it is about to take (R71). -/
def groupMode (s : State) (g : Nat) : Nat := frameMode s (64 * g)

/-- A group's mode changes, at once or when its earlier accesses have reached their gateways (R71). -/
def changeMode (s : State) (g m : Nat) : State :=
  if groupMode s g = m then s
  else
    let t := groupUndef s g
    if groupBusy t g then { t with xl := { t.xl with modeSwitch := tput t.xl.modeSwitch g m } } else setMode t g m

/-- Whether the mode rule of R71 lets a group take a mode. -/
def modeOk (s : State) (g m : Nat) : Bool :=
  groupMode s g == m || (List.range 64).all (fun j => (s.frame (64 * g + j)).state == .free)

/-- GROUP_MODE_SWITCH (R71). -/
def execGroupModeSwitch (g : Nat) (s : State) : Res :=
  gateIn dFAB s (fun s =>
    match tfind s.xl.modeSwitch g with
    | some m => if groupBusy s g then s else setMode s g m
    | none => s)

/-! ## Mapping (R80, R82) -/

/-- The groups a span of frames touches. -/
def opGroups (o : MapOp) : List Nat :=
  let a := o.first / 64
  (List.range ((o.first + o.count - 1) / 64 + 1 - a)).map (· + a)

/-- The frames of an operation. -/
def opFrames (o : MapOp) : List Nat := (List.range o.count).map (· + o.first)

/-- The VPNs of a map. -/
def opVpns (o : MapOp) : List Nat := if o.unmap || o.modeOnly then [] else (List.range o.count).map (· + o.vpn)

/-- Whether the range of an operation is one of R80 and R81 over present frames. -/
def opRange (s : State) (o : MapOp) : Bool :=
  1 ≤ o.count && o.count ≤ 64 && framePresent s o.first && framePresent s (o.first + o.count - 1)

/-- Whether a key's old frame is UNMAPPING (Table 3.9). -/
def keyUnmapping (s : State) (asid vpn : Nat) : Bool :=
  s.xl.shoots.any (fun h => h.asid == asid && h.vpn == vpn && (s.frame h.frame).state == .unmapping)

/-- Whether two operations name a frame or a key in common. -/
def opMeet (a b : MapOp) : Bool :=
  (decide (a.first < b.first + b.count) && decide (b.first < a.first + a.count)) ||
  (a.asid == b.asid && (opVpns a).any (fun v => decide (v ∈ opVpns b)))

/-- Whether an operation waits: its key unmaps, or it meets an earlier one that waits (Table 3.9). -/
def opWaits (s : State) (o : MapOp) (earlier : List MapOp) : Bool :=
  (!o.modeOnly && !o.unmap && (opVpns o).any (fun v => keyUnmapping s o.asid v)) || earlier.any (fun e => opMeet e o)

/-- Whether R71, R80 and R294 let a map through. -/
def mapOk (s : State) (o : MapOp) : Bool :=
  opRange s o && decide (o.mode < 3) && (opGroups o).all (fun g => modeOk s g o.mode) &&
  (o.modeOnly || (decide (o.vpn + o.count ≤ 2 ^ 27) &&
    (opFrames o).all (fun f => (s.frame f).state == .free && !frameMasked s o.mode f) &&
    (opVpns o).all (fun v => (keyFrame s o.asid v).isNone)))

/-- The entry of frame first + i written MAPPED and linked at the head of its chain (R80). -/
def mapOne (s : State) (o : MapOp) (i : Nat) : State :=
  let f := o.first + i
  linkFrame ((tableWrite s .frame f).setFrame f
    { s.frame f with asid := o.asid, vpn := o.vpn + i, state := .mapped, w := o.w, a := o.a }) f

/-- A FRAME_MAP performed (R80). -/
def mapPerform (s : State) (o : MapOp) : Status × State :=
  if mapOk s o then
    let t := (opGroups o).foldl (fun t g => changeMode t g o.mode) s
    (.ok, if o.modeOnly then t else upTo o.count (fun i t => mapOne t o i) t)
  else (.faultProt, s)

/-! ## Unmapping (R81) -/

/-- Sends the shootdowns of a frame and its key to all 32 tally caches (R81). -/
def shootFrame (s : State) (group f : Nat) (retire : Bool) (rescue : Option (Nat × Bool)) (owner : Option Nat) : State :=
  let x := s.frame f
  let h : Shoot := { key := s.xl.nextKey, group := group, frame := f, asid := x.asid, vpn := x.vpn,
                     nodes := List.range 32, retire := retire, rescue := rescue, owner := owner }
  { s with xl := { s.xl with shoots := s.xl.shoots ++ [h], nextKey := s.xl.nextKey + 1 } }

/-- Phase 1 for one frame: unlinked, a MAPPED frame UNMAPPING (R81). -/
def unmapOne (s : State) (group f : Nat) (owner : Option Nat) : State :=
  let t := unlinkFrame s f
  let x := t.frame f
  let t := if x.state = .mapped then t.setFrame f { x with state := .unmapping, failing := false } else t
  shootFrame t group f false none owner

/-- Whether R81 lets an unmap through. -/
def unmapOk (s : State) (o : MapOp) : Bool :=
  opRange s o && (opFrames o).all (fun f =>
    (s.frame f).state == .mapped || (s.frame f).state == .retiring || (s.frame f).state == .withdrawn)

/-- Phase 1 of a FRAME_UNMAP (R81): done when it is refused, else its shootdowns are on the way. -/
def unmapPerform (s : State) (o : MapOp) : LedgerAns × State :=
  if unmapOk s o then
    let g := s.xl.nextKey
    (.waits, (opFrames o).foldl (fun t f => unmapOne t g f (some o.owner)) s)
  else (.done .faultProt, s)

/-- The words of the frame ledger and the bucket array that an operation reads (R77, R309). -/
def opWords (o : MapOp) : List (Tab × Nat) :=
  (opFrames o).map (fun f => (.frame, f)) ++ (opVpns o).map (fun v => (.bucket, ledgerHash o.asid v))

/-- A ledger operation performed now; an uncorrectable word that it reads fails it (R309). -/
def opPerform (s : State) (o : MapOp) : LedgerAns × State :=
  match tableReads s (s.src (128 + o.owner / 8)) none (opWords o) with
  | (false, t) => (.done .eccUncorr, t)
  | (true, s) =>
    if o.unmap then unmapPerform s o
    else match mapPerform s o with
      | (st, t) => (.done st, t)

/-- The command of an operation gets its answer. -/
def opAnswer (s : State) (owner : Nat) : LedgerAns → State
  | .done st => pctxDone s owner st
  | .waits => s

/-- An operation that waited is performed once nothing it waits for is left (R82). -/
def opDeferred (s : State) (key : Nat) : State :=
  match tfind s.xl.waitMaps key with
  | none => s
  | some o =>
    if opWaits s o ((s.xl.waitMaps.filter (fun e => decide (e.1 < key))).map (·.2)) then s
    else
      let t := { s with xl := { s.xl with waitMaps := terase s.xl.waitMaps key } }
      match opPerform t o with
      | (a, u) => opAnswer u o.owner a

/-- The operations that waited and can go on are performed, in the order of their arrival: each goes ahead of every
operation that arrived after it (R82). -/
def flushMaps (s : State) : State := (s.xl.waitMaps.map (·.1)).foldl opDeferred s

/-- A ledger operation of a command, in arrival order (R82, R416). -/
def opSubmit (s : State) (o : MapOp) : LedgerAns × State :=
  let s := flushMaps s
  if opWaits s o (s.xl.waitMaps.map (·.2)) then
    (.waits, { s with xl := { s.xl with waitMaps := tput s.xl.waitMaps s.xl.nextKey o, nextKey := s.xl.nextKey + 1 } })
  else opPerform s o

/-- A ledger operation of a register write on a frame (R82, R416): it comes after the operations that waited before it,
and stands behind one that still waits and names its frame. -/
def ledgerTurn (s : State) (f : Nat) (c : Instr) (eff : State → State) : State :=
  let t := flushMaps s
  if frameHeld t f then edgeWait t dFAB (some (frameGroup f)) c else eff t

/-- FRAME_SET_WITHDRAWN (R294): it comes after the operations that waited before it, and is not due while one that still
waits names the frame (R82). -/
def execFrameSetWithdrawn (f : Nat) (s : State) : Res :=
  gateIn dFAB s (fun s =>
    let t := flushMaps s
    if frameHeld t f then t else frameWithdraw t f)

/-- FRAME_MAP_DEFERRED (R82). -/
def execFrameMapDeferred (key : Nat) (s : State) : Res := gateIn dFAB s (fun s => opDeferred s key)

/-! ## Acknowledgements (R81, R82, R325) -/

/-- Whether a node has requests toward a frame that have not reached their gateway, or wait on a retraining channel
(R81, Table 3.9). -/
def frameBusy (s : State) (node f : Nat) : Bool :=
  s.mesh.flights.any (fun x => x.2.path == 1 && ppaOff x.2.seg.target / 2 ^ 21 == f && srcNode s x.2.seg == node &&
    (x.2.state == .header || x.2.state == .refused || x.2.state == .backoff ||
     (match flightChan s x.2 with
      | (g, some c) => (s.chan (g / 32) c).state == .retraining
      | _ => false)))

/-- A frame whose shootdowns are all acknowledged (R81, R82, R325). One that was withdrawn meanwhile stays WITHDRAWN
(R76). -/
def shootDone (s : State) (h : Shoot) : State :=
  let x := s.frame h.frame
  if h.retire then
    let t := if x.state = .withdrawn then s else s.setFrame h.frame { x with state := .retired }
    let t := { t with ras := { t.ras with rescue := none, rescueState := 2 } }
    match h.rescue with
    | some (r, re) => capacity t 167 3 h.frame r true re
    | none => capacity t 167 3 h.frame 0 false false
  else if x.state = .unmapping then
    if x.failing then
      reportItem (capacity (s.setFrame h.frame { x with state := .retiring, failing := false }) 167 2 h.frame 0 false
        false) 0 8 0 h.frame
    else s.setFrame h.frame { x with state := .free, w := false, a := false }
  else s

/-- The last acknowledgement of an unmap moves all its frames and completes its command (R81). -/
def groupDone (s : State) (group : Nat) : State :=
  let hs := s.xl.shoots.filter (fun h => h.group == group)
  if hs.all (fun h => h.nodes.isEmpty) then
    let t := { s with xl := { s.xl with shoots := s.xl.shoots.filter (fun h => h.group != group) } }
    let t := hs.foldl shootDone t
    match hs.head? with
    | some h => (match h.owner with
      | some k => pctxDone t k .ok
      | none => t)
    | none => t
  else s

/-- The shootdowns in flight: the oldest 16 that are not acknowledged by every node (R416). -/
def shootsOut (s : State) : List Shoot := (s.xl.shoots.filter (fun h => !h.nodes.isEmpty)).take 16

/-- A tally cache drops the entry of a shootdown in flight and acknowledges (R81). -/
def shootAck (s : State) (node key : Nat) : State :=
  match (shootsOut s).find? (fun h => h.key == key) with
  | none => s
  | some h =>
    let t := { s with xl := { s.xl with
      tally := s.xl.tally.filter (fun e => !(e.node == node && e.asid == h.asid && e.vpn == h.vpn && e.frame == h.frame)) } }
    if !decide (node ∈ h.nodes) || frameBusy t node h.frame then t
    else
      let hs := t.xl.shoots.map (fun g => if g.key == key then { g with nodes := delMem node g.nodes } else g)
      groupDone { t with xl := { t.xl with shoots := hs } } h.group

/-- SHOOTDOWN_ACK (R81). -/
def execShootdownAck (node key : Nat) (s : State) : Res := gateIn dFAB s (fun s => shootAck s node key)

end Sys2Proof.Machine
end

