-- ==== Sys2Proof/Machine/Slc.lean ====
section
/-! DEFINITION. The shared line cache (R20 to R22, R234 to R238, R246): loads, stores and atomics of the VXP and SCP
ports, dirty records, acquire marks, cleaning. -/

namespace Sys2Proof.Machine

/-- The line of a granule, by its PPA div 128. -/
def State.line (s : State) (k : Nat) : Option Line := tfind s.slc.lines k

/-- The state with a line put. -/
def State.setLine (s : State) (k : Nat) (l : Line) : State :=
  { s with slc := { s.slc with lines := tput s.slc.lines k l } }

/-- The state without a line. -/
def State.dropLine (s : State) (k : Nat) : State :=
  { s with slc := { s.slc with lines := terase s.slc.lines k,
                               dirty := s.slc.dirty.map (fun d => (d.1, delMem k d.2)) } }

/-- The acquire mark of a port (R236). -/
def acquireMark (s : State) (port : Nat) : Nat := tget 0 s.slc.marks port

/-- An acquire of scope CORE or wider through a VXP or SCP port sets its mark (R236, R240). -/
def acquire (s : State) (port scope : Nat) : State :=
  if scope = 0 ∨ port % 4 < 2 ∨ 128 ≤ port then s
  else { s with slc := { s.slc with marks := tset 0 s.slc.marks port s.now } }

/-- The dirty record of a port (R235). -/
def dirtyRecord (s : State) (port : Nat) : List Nat := tget [] s.slc.dirty port

/-- The request of the SLC's own accesses (R312). -/
def slcRq (s : State) : Rq := { src := s.srcClerk, ctx := none }

/-- Writes a dirty line back and leaves it clean; cleaning it for one port cleans it for all (R235). -/
def cleanLine (s : State) (k : Nat) : State :=
  match s.line k with
  | none => s
  | some l =>
    if l.dirty then
      let t := (memWrite s (slcRq s) (k * 128) (granuleWBytes l.data (BitVec.allOnes 128))).1
      let t := runRecs t (slcRq s) [k * 128]
      let t := t.setLine k { l with dirty := false }
      { t with slc := { t.slc with dirty := t.slc.dirty.map (fun d => (d.1, delMem k d.2)) } }
    else s

/-- Writes back and drops a line. -/
def evictLine (s : State) (k : Nat) : State := (cleanLine s k).dropLine k

/-- Cleans every line of a port's dirty record (Table 10.3). -/
def cleanPort (s : State) (port : Nat) : State := (dirtyRecord s port).foldl cleanLine s

/-- The set of a line: one of the 1,024 that each bank in service holds (R20); the index is a free value (log 4). -/
def slcIndex (s : State) (k : Nat) : Nat := Config.slcSet (slcBanks s) k % (1024 * slcBanks s)

/-- Room for a line in its set (R20): a full set of 16 ways gives up one line, chosen by pseudo-LRU (log 4). -/
def slcRoom (s : State) (k : Nat) : State :=
  if s.slc.lines.length < 16 then s
  else
    let ways := (s.slc.lines.filter (fun l => slcIndex s l.1 == slcIndex s k)).map (·.1)
    if ways.length < 16 then s
    else { evictLine s (nth k ways (Config.victim s.freeCtr 16 % 16)) with freeCtr := s.freeCtr + 1 }

/-- Whether an address is one that the SLC caches, while it has banks in service (R234). -/
def slcCaches (s : State) (a : Nat) : Bool :=
  0 < slcBanks s && (ppaFar a ||
    (if ppaDie a = s.pwr.dieId then ppaSpace a == 8 else ppaSpace a == 0 || ppaSpace a == 8))

/-- Whether the stack frame behind an own STACK address may be accessed now. -/
def lineSt (s : State) (a : Nat) : Status :=
  if !ppaFar a && ppaDie a == s.pwr.dieId && ppaSpace a == 8 then stackSt s (ppaOff a / 2 ^ 21) else .ok

/-- The line of an access through a port, filled or refetched where the port may not use it as it stands (R236). An
uncorrectable fill allocates no line (R310). -/
def slcFetch (s : State) (rq : Rq) (port a : Nat) : State × Status × Granule :=
  let k := a / 128
  let hit := match s.line k with
    | some l => l.dirty || decide (acquireMark s port < l.fill)
    | none => false
  match lineSt s a with
  | .ok =>
    (match s.line k, hit with
     | some l, true => (countEvent s 0x0E port 1, .ok, l.data)
     | _, _ =>
       let t := slcRoom ((countEvent s 0x0F port 1).dropLine k) k
       match memRead t rq (k * 128) 128 with
       | (u, .ok, bytes) =>
         (u.setLine k { data := granuleOf bytes, dirty := false, fill := s.now, stale := false }, .ok, granuleOf bytes)
       | (u, st, _) => (u, st, 0#1024))
  | st => (s, st, 0#1024)

/-- A load of n bytes of one granule through the SLC. -/
def slcLoad (s : State) (rq : Rq) (port a n : Nat) : State × Status × List Byte :=
  match slcFetch s rq port a with
  | (t, .ok, g) => (t, .ok, ((granuleBytes g).drop (a % 128)).take n)
  | (t, st, _) => (t, st, List.replicate n 0#8)

/-- Enters a line in a port's dirty record: a 65th line cleans the oldest first (R235). -/
def recordDirty (s : State) (port k : Nat) : State :=
  let r := dirtyRecord s port
  if k ∈ r then s
  else
    let t := if 64 ≤ r.length then cleanLine s (nth k r 0) else s
    { t with slc := { t.slc with dirty := tput t.slc.dirty port (delMem (if 64 ≤ r.length then nth k r 0 else k) r ++ [k]) } }

/-- A line changed through a port: dirty, in the port's record. Changing a stale line leaves any bit pattern (R238). -/
def slcPut (s : State) (port k : Nat) (g : Granule) : State :=
  match s.line k with
  | none => s
  | some l =>
    if l.stale then
      recordDirty ({ s with freeCtr := s.freeCtr + 1 }.setLine k
        { l with data := freeGranule s.freeCtr, dirty := true }) port k
    else recordDirty (s.setLine k { l with data := g, dirty := true }) port k

/-- The bytes of a granule with a write of enabled bytes at an offset. -/
def mergeGranule (g : Granule) (off : Nat) (data : List WByte) : Granule :=
  granuleOf ((List.range 128).map (fun i =>
    let d := nth (0#8, false) data (i - off)
    if off ≤ i ∧ d.2 then d.1 else nth 0#8 (granuleBytes g) i))

/-- A store of enabled bytes of one granule through the SLC (R235). -/
def slcStore (s : State) (rq : Rq) (port a : Nat) (data : List WByte) : State × Status :=
  match slcFetch s rq port a with
  | (t, .ok, g) => (slcPut t port (a / 128) (mergeGranule g (a % 128) data), .ok)
  | (t, st, _) => (t, st)

/-- An SLC atomic of one granule: the read-modify-write of an alias space on the line (R22, R246). -/
def slcAtomic (s : State) (rq : Rq) (port a space : Nat) (data : List WByte) : State × Status :=
  if !slcCaches s a then (s, .faultProt)
  else if a % laneBytes space ≠ 0 ∨ data.length % laneBytes space ≠ 0 ∨ !lanesWhole space data then (s, .faultAlign)
  else
    match slcFetch s rq port a with
    | (t, .ok, g) =>
      let old := ((granuleBytes g).drop (a % 128)).take data.length
      (slcPut t port (a / 128) (mergeGranule g (a % 128) (aliasBytes space old data)), .ok)
    | (t, st, _) => (t, st)

/-- A volatile read of a VXP or SCP port (R237). -/
def slcVolatile (s : State) (rq : Rq) (a n : Nat) : State × Status × List Byte :=
  let k := a / 128
  match s.line k with
  | none => memRead s rq a n
  | some l =>
    if l.dirty then memRead (cleanLine s k) rq a n
    else
      match memRead s rq (k * 128) 128 with
      | (t, .ok, bytes) =>
        (t.setLine k { data := granuleOf bytes, dirty := false, fill := s.now, stale := false }, .ok,
         (bytes.drop (a % 128)).take n)
      | (t, st, _) => (t, st, List.replicate n 0#8)

/-- A store that passes the SLC from a VXP or SCP port: a clean copy is dropped (R237). -/
def slcBypassStore (s : State) (rq : Rq) (a : Nat) (data : List WByte) : State × Status :=
  let t := match s.line (a / 128) with
    | some l => if l.dirty then s else s.dropLine (a / 128)
    | none => s
  passWrite t rq a data

/-- The lines of a range, or of the whole SLC. -/
def slcRange (s : State) (a n : Nat) (all : Bool) : List Nat :=
  (s.slc.lines.map (·.1)).filter (fun k => all || (decide (a < (k + 1) * 128) && decide (k * 128 < a + n)))

/-- INVALIDATE (drop) and FLUSH of lines (R140). -/
def slcSweep (s : State) (ks : List Nat) (drop : Bool) : State :=
  ks.foldl (fun t k => if drop then evictLine t k else cleanLine t k) s

/-- Writes back every dirty line and drops every line (R406). -/
def slcEmpty (s : State) : State := slcSweep s (s.slc.lines.map (·.1)) true

/-- The SLC is set to zero banks (R318, R411): its banks return to their home sets with undefined contents. -/
def slcOff (s : State) : State :=
  let bs := (List.range 256).filter (fun b => bankSlc s b)
  let t := slcEmpty s
  let t := bs.foldl (fun t b =>
    let p := bankPhys t b * 2 ^ 21
    { t with bankMem := t.bankMem.markUndef p (p + 2 ^ 21) t.freeCtr, freeCtr := t.freeCtr + 1,
             bankMark := t.bankMark.filter (fun m => !(p / 8 ≤ m.1 && m.1 < (p + 2 ^ 21) / 8)) }) t
  upTo 8 (fun n t => t.setRg (Reg.slcSel n) 0) t

end Sys2Proof.Machine
end

