-- ==== Sys2Proof/Machine/Sync.lean ====
section
/-! DEFINITION. The flag store, waits, budget lending and barrier channels (Chapter 11). -/

namespace Sys2Proof.Machine

/-! ## Records (R84, R259) -/

/-- A trace record is dropped (R374): TRACE_DROPS counts it, and the next LOSS record too. -/
def traceDrop (s : State) : State :=
  let t := s.countRg Reg.traceDrops 1
  { t with obs := { t.obs with traceLost := t.obs.traceLost + 1 } }

/-- A record enters the trace buffer, after a LOSS record where records were dropped, or is dropped (R374). -/
def tracePush (s : State) (r : TraceRec) : State :=
  let n := s.obs.traceBuf.length
  let lost := min s.obs.traceLost (2 ^ 26 - 1)
  if lost = 0 ∧ n < 64 then { s with obs := { s.obs with traceBuf := s.obs.traceBuf ++ [r] } }
  else if lost ≠ 0 ∧ n < 63 then
    match takeSeq s s.srcClerk with
    | (_, false, t) => traceDrop t
    | (q, true, t) =>
      let l : TraceRec := { stamp := t.now, src := t.srcClerk, seq := q, op := 15, other := lost % 4096,
                            object := lost / 4096 }
      { t with obs := { t.obs with traceBuf := t.obs.traceBuf ++ [l, r], traceLost := 0 } }
  else traceDrop s

/-- A trace record of a sync event, while its operation is selected (R373); a 33rd record of its source in one tc is
dropped (R35). -/
def traceEv (s : State) (src op other obj : Nat) : State :=
  let node := if src / 256 = s.pwr.dieId then unitNode (src % 256) else 32
  if s.rgBit Reg.traceCtl 0 && s.rgBit Reg.traceCtl (8 + op) &&
     (!s.rgBit Reg.traceCtl 31 || s.rgField Reg.traceCtl 24 5 == node) then
    match takeSeq s src with
    | (q, fits, t) =>
      if fits then tracePush t { stamp := t.now, src := src, seq := q, op := op, other := other % 4096, object := obj }
      else traceDrop t
  else s

/-- A SYNC record (Table 2.2), while SYNC_EN is set, and the trace record of the same event (R375). -/
def syncRec (s : State) (src : Nat) (ctx : Option (Nat × Nat)) (obj op last : Nat) : State :=
  traceEv (if s.rgBit Reg.evlCtl 2 then ledgerSrc s src 0x06 ctx (obj + op * 2 ^ 16) last else s) src op
    (if 2 ≤ op ∧ op ≤ 4 then last else 0) obj

/-- A FAULT record of a command (R84): the address, whether it is a CVA, whether it is a host address. -/
def faultRec (s : State) (u : Nat) (ctx : Option (Nat × Nat)) (st : Status) (addr : Nat) (isCva isHost : Bool) : State :=
  ledgerRec s u 0x03 ctx addr (stCode st + b2n isCva * 2 ^ 8 + b2n isHost * 2 ^ 9)

/-! ## Quiescence (R265, R266) -/

/-- Node n's quiescence ends: its lend signal is withdrawn (R266). -/
def lendOff (s : State) (n : Nat) : State :=
  let t := if s.rgBit Reg.syncLendStatus n then s.setRgBit Reg.syncLendStatus n false else s
  { t with sync := { t.sync with quietSince := tset 0 t.sync.quietSince n t.now } }

/-- Something that counts for node n's quiescence changed: the time without a break starts again (R265). -/
def lendMark (s : State) (n : Nat) : State :=
  { s with sync := { s.sync with quietSince := tset 0 s.sync.quietSince n s.now } }

/-- A wake for a node is queued (R388); its lend signal is withdrawn (R266), and its domain wakes (R340). -/
def wakePush (s : State) (w : NodeWake) : State :=
  let t := wakeDom (lendOff s w.node) (dHome w.node) 2 s.srcClerk
  { t with sync := { t.sync with wakes := t.sync.wakes ++ [w] } }

/-- A wake to a node that completes no acquire (R388). -/
def nodeWake (s : State) (n kind id : Nat) (st : Status) : State :=
  wakePush s { node := n, kind := kind, id := id, status := st, acq := none }

/-! ## Program contexts that wait (R261) -/

/-- The back's fault of an error without an address. -/
def bareFault (st : Status) : BackOp := .fault st 0#64 false false

/-- An item of the back for the instruction at a front's PC. -/
def itemAt (f : Front) (op : BackOp) : BackItem :=
  { op := op, pc := f.pc, prog := f.prog, got := none, readSegs := 0, writeSegs := 0 }

/-- The first item of a list that passes a test is dropped (none) or takes another operation, with nothing read for it. -/
def dropFirst (p : BackItem → Bool) (op : Option BackOp) : List BackItem → List BackItem
  | [] => []
  | b :: l =>
    if p b then (match op with
      | none => l
      | some o => { b with op := o, got := none } :: l)
    else b :: dropFirst p op l

/-- Whether an item of the back is a WAITF. -/
def isWaitf (b : BackItem) : Bool := match b.op with
  | .waitf _ _ _ _ => true
  | _ => false

/-- The wait of a program context's back ends well: the waiting instruction is performed, a waiting command is done. -/
def pctxWake (s : State) (k : Nat) : State :=
  match s.pctx k with
  | none => s
  | some x =>
    let t := lendOff s (k / 8)
    match x.stream with
    | some m => t.setPctx k { x with wait := none, stream := some { m with back := m.back.drop 1 } }
    | none => t.setPctx k { x with wait := none, done := true }

/-- The wait of a program context's back ends with an error: the back takes it at that instruction (R181, R256). -/
def pctxFault (s : State) (k : Nat) (st : Status) : State :=
  match s.pctx k with
  | none => s
  | some x =>
    let t := lendOff s (k / 8)
    match x.stream with
    | some m => t.setPctx k { x with wait := none, stream := some { m with
        halted := true, back := dropFirst (fun _ => true) (some (bareFault st)) m.back } }
    | none => t.setPctx k { x.err s.clk.tc st with wait := none, done := true }

/-- The front's wait for a slot or a cheque ends with an error, which is pending at its instruction (R181). -/
def frontFault (s : State) (k : Nat) (st : Status) : State :=
  match s.pctx k with
  | none => s
  | some x =>
    match x.stream with
    | none => s
    | some m => (lendOff s (k / 8)).setPctx k { x with stream := some { m with
        halted := true, fwait := none, back := m.back ++ [itemAt m.front (bareFault st)] } }

/-- A flag wait of a program context ends: of the oldest WAITF that a program's front recorded (R172, R178), or of a waiting
command. -/
def pctxTold (s : State) (k : Nat) (st : Status) : State :=
  match s.pctx k with
  | none => s
  | some x =>
    match x.stream with
    | none => if st = .ok then pctxWake s k else pctxFault s k st
    | some m => (lendOff s (k / 8)).setPctx k { x with stream := some { m with
        fwait := none, halted := m.halted || st != .ok,
        back := dropFirst isWaitf (if st = .ok then none else some (bareFault st)) m.back } }

/-! ## Flags (R251 to R260) -/

/-- A clear flag that never changed. -/
def flagReset : Flag := { value := false, last := 0, changes := 0 }

/-- A physical flag. -/
def State.flag (s : State) (p : Nat) : Flag := tget flagReset s.sync.flags p

/-- The value of a flag changes, with LAST and CHANGES (R259). -/
def flagPut (s : State) (p : Nat) (v : Bool) (src : Nat) : State :=
  let f := s.flag p
  if f.value = v then s
  else { s with sync := { s.sync with
    flags := tset flagReset s.sync.flags p { value := v, last := src % 4096, changes := (f.changes + 1) % 2 ^ 32 } } }

/-- The flag word as FLAGS space shows it (Table 11.1). -/
def flagWord (s : State) (p : Nat) : DWord :=
  let f := s.flag p
  BitVec.ofNat 64 (b2n f.value + b2n (s.sync.waiters.any (fun w => w.flag == p)) * 2 + f.last * 2 ^ 16 +
    f.changes * 2 ^ 32)

/-- Engine waiter entries in use (R262): one whose wake has not been sent is not free yet (R388). -/
def poolUsed (s : State) : Nat :=
  let eng (w : Who) : Bool := match w with
    | .engine _ _ _ _ => true
    | _ => false
  (s.sync.waiters.filter (fun w => eng w.who)).length + (s.sync.wakes.filter (fun w => w.kind == 0)).length +
  (s.sync.bars.flatMap (fun b => (b.2.arrivals ++ b.2.heldBy ++ b.2.waiting).filter (fun a =>
    match a.who with
    | some w => eng w
    | none => false))).length

/-- Entries are free again: every node whose bit is set gets a pool wake (R262). -/
def poolFreed (s : State) : State :=
  if poolUsed s < 4096 ∧ s.rg Reg.flagPoolWait ≠ 0 then
    upTo 32 (fun n t => if s.rgBit Reg.flagPoolWait n then nodeWake t n 3 0 .ok else t) (s.setRg Reg.flagPoolWait 0)
  else s

/-- Tells a waiter that its wait ended with a status (R261, R262). -/
def tell (s : State) (w : Who) (st : Status) (acq : Bool) (scope : Nat) : State :=
  match w with
  | .pctx k => pctxTold s k st
  | .ring r =>
    { s with work := { s.work with rings := s.work.rings.map (fun x =>
      if x.1 = r then (x.1, { x.2 with fetched := match x.2.fetched with
        | c :: l => { c with wflag := some true } :: l
        | [] => [] }) else x) } }
  | .engine token port _ node =>
    wakePush s { node := node, kind := 0, id := token, status := st,
                 acq := if acq ∧ st = .ok then some (port, scope) else none }

/-- No acquire of a token holds later requests any more (R240). -/
def acquireEnds (s : State) (token : Nat) : State :=
  { s with ports := s.ports.map (fun p => (p.1, { p.2 with acquires := p.2.acquires.filter (fun a => a.1 != token) })) }

/-- A wake is sent (R388): its acquire is satisfied, and its token is free. -/
def wakeSend (s : State) (w : NodeWake) : State :=
  let t := s.emit (.wake w.node w.kind w.id w.status)
  let t := match w.acq with
    | some a => acquire t a.1 a.2
    | none => t
  if w.kind = 0 then poolFreed (acquireEnds t w.id) else t

/-- The wakes of one tc: each node's oldest, while its domain is up and its outputs are not latched (R382, R388); the others
wait on. `sent` lists the nodes that have had theirs. -/
def wakesGo : List NodeWake → List Nat → State → State
  | [], _, s => s
  | w :: l, sent, s =>
    if w.node ∈ sent ∨ clampOn s w.node ∨ !isUp s (dHome w.node) then
      wakesGo l (w.node :: sent) { s with sync := { s.sync with wakes := s.sync.wakes ++ [w] } }
    else wakesGo l (w.node :: sent) (wakeSend s w)

/-- One tc of the wake outputs (R388). -/
def wakesTc (s : State) : State := wakesGo s.sync.wakes [] { s with sync := { s.sync with wakes := [] } }

/-- The rank of a waiter (R91), its overdue bit latched (R40). -/
def waiterRank (s : State) (w : Waiter) : Rank := stampRank s w.overdue w.order w.dl w.src

/-- The overdue bits of the waiters latch (R40). -/
def waitersLatch (s : State) : State :=
  { s with sync := { s.sync with waiters := s.sync.waiters.map (fun w => { w with overdue := (waiterRank s w).overdue }) } }

/-- A waiter leaves the flag store satisfied, with its SYNC record (R259). -/
def satisfy (s : State) (w : Waiter) : State :=
  let t := { s with sync := { s.sync with waiters := s.sync.waiters.filter (· != w) } }
  tell (syncRec t w.src w.ctx w.flag (2 + w.mode) (t.flag w.flag).last) w.who .ok w.acq w.scope

/-- Steps 3 and 4 of R258 at a flag. -/
def flagEval (s : State) (p : Nat) : State :=
  let mine (t : State) (m : Nat) := t.sync.waiters.filter (fun w => w.flag == p && w.mode == m)
  let s := if (s.flag p).value then
      let t := (mine s 0).foldl satisfy s
      match firstRanked (waiterRank t) (mine t 2) with
      | some w => flagPut (satisfy t w) p false w.src
      | none => t
    else s
  if (s.flag p).value then s else (mine s 1).foldl satisfy s

/-- The status that the flag store gives an operation or a wait on a flag (R309). -/
def flagSt (s : State) (p : Nat) : Status := if tableBad s .flag p then .eccUncorr else .ok

/-- A read of a flag's word that fails or is corrected is counted, and a failing one leaves its record (R309). -/
def flagRead (s : State) (p src : Nat) (ctx : Option (Nat × Nat)) : State := (tableReads s src ctx [(.flag, p)]).2

/-- One SET or CLR at the flag store (R257, R258, R259): of a flag whose word is uncorrectable it changes nothing (R309). -/
def flagOp (s : State) (p : Nat) (v : Bool) (src : Nat) (ctx : Option (Nat × Nat)) : State :=
  let last := (s.flag p).last
  let t := flagRead s p src ctx
  if flagSt s p ≠ .ok then t
  else
    let t := flagPut (tableWrite t .flag p) p v src
    let last := if (s.flag p).value = v then last else (t.flag p).last
    let t := syncRec (countEvent t 0x14 (if v then 0 else 1) 1) src ctx p (if v then 0 else 1) last
    flagEval t p

/-- A window clear: each flag cleared with no record (R255), but one whose word is uncorrectable (R309). -/
def windowClear (s : State) (base n src : Nat) : State :=
  upTo n (fun i t => let p := base + i
                     if flagSt t p ≠ .ok then flagRead t p src none
                     else if (t.flag p).value then flagEval (flagPut t p false src) p else t) s

/-- The physical flag of an index through a context's window (R253). -/
def flagOfIndex (s : State) (c v : Nat) : Option Nat :=
  if v < (s.ctx c).flagCount then some ((s.ctx c).flagBase + v) else none

/-- Whether a wait of a mode holds at a flag now. -/
def waitHolds (s : State) (p mode : Nat) : Bool := (s.flag p).value == (mode != 1)

/-- A wait that holds on arrival is satisfied there: its record and consumption (R258, R259). -/
def waitNow (s : State) (p mode src : Nat) (ctx : Option (Nat × Nat)) : State :=
  let t := syncRec (countEvent s 0x14 (2 + mode) 1) src ctx p (2 + mode) (s.flag p).last
  if mode = 2 then flagEval (flagPut t p false src) p else t

/-- A wait registers at the flag store (R258, R261). -/
def waitAdd (s : State) (w : Waiter) : State :=
  let t := countEvent s 0x14 (2 + w.mode) 1
  { t with sync := { t.sync with waiters := t.sync.waiters ++ [{ w with order := t.sync.order }],
                                 order := t.sync.order + 1 } }

/-- A read of FLAGS space (R252, R309). -/
def flagsRead (s : State) (p src : Nat) : Status × DWord × State :=
  if flagSt s p = .ok then (.ok, flagWord s p, flagRead s p src none) else (flagSt s p, 0#64, flagRead s p src none)

/-- A write to FLAGS space (R252): bit 0 decides. During a stop the value changes and the waits are evaluated after it
(R276). -/
def flagsWrite (s : State) (p : Nat) (v : DWord) (src : Nat) : State :=
  if 16384 ≤ p then s
  else if s.obs.holds then
    let t := flagPut s p (bit v.toNat 0) src
    { t with sync := { t.sync with stopFlags := addMem p t.sync.stopFlags } }
  else flagOp s p (bit v.toNat 0) src none

/-- A write of bytes at an offset of FLAGS space, and its answer (R60, R252, Table 3.2). -/
def flagsAccess (s : State) (off : Nat) (data : List Byte) (src : Nat) : State :=
  if 0x20000 ≤ off then s.emit (.reply .faultProt 0#64)
  else match widthSt off data.length 8 with
    | .ok => (flagsWrite s (off / 8) (BitVec.ofNat 64 (ofBytes data)) src).emit (.reply (flagSt s (off / 8)) 0#64)
    | st => s.emit (.reply st 0#64)

/-- FLAGS_WRITE (R252, R276): during a global stop only the debug unit reaches the flag store. -/
def execFlagsWrite (off : Nat) (data : List Byte) (src : Nat) (s : State) : Res :=
  if s.obs.holds && !s.pwr.asserted && src % 256 == 168 then .next (flagsAccess s off data src)
  else gate dFAB 7 src (.flagsWrite off data src) s (fun s => flagsAccess s off data src)

/-- The operations that reached a flag in one tc, lower source first (R258). -/
def insertOp (o : Nat × Bool) : List (Nat × Bool) → List (Nat × Bool)
  | [] => [o]
  | x :: l => if o.1 < x.1 then o :: x :: l else x :: insertOp o l

/-- FLAG_OPERATION_PERFORM (R258): the operations of one tc on a flag, one after another, waiters after each. -/
def execFlagOperationPerform (flag : Nat) (ops : List (Nat × Bool)) (s : State) : Res :=
  gate dFAB 2 0 (.flagOperationPerform flag ops) s (fun s =>
    if flag < 16384 then (ops.foldl (fun l o => insertOp o l) []).foldl (fun t o => flagOp t flag o.2 o.1 none) s else s)

/-- Whether a segment came in by a die link: from another die, or from the host or an I/O die (R18). -/
def foreignSeg (s : State) (g : Segment) : Bool :=
  g.src / 256 != s.pwr.dieId || (decide (162 ≤ g.src % 256) && decide (g.src % 256 < 166))

/-- Whether an earlier write of the same lane that came in by a link has not reached its point of coherence (R249): in
flight, or waiting at its issue point. -/
def laneBusy (s : State) (lane : Nat) : Bool :=
  s.mesh.flights.any (fun f => foreignSeg s f.2.seg && f.2.seg.cls == lane && !segReads f.2.seg && f.2.state != .acked) ||
  s.regu.waiting.any (fun w => match w.who with
    | .seg g => foreignSeg s g && g.cls == lane && !segReads g
    | _ => false)

/-- REMOTE_FLAG_WRITE (R249, R267): in lane order, behind the data of its lane; the sender gets its answer. -/
def execRemoteFlagWrite (flag : Nat) (v : DWord) (src lane : Nat) (s : State) : Res :=
  gate dFAB 3 src (.remoteFlagWrite flag v src lane) s (fun s =>
    if laneBusy s lane ∨ 16384 ≤ flag then s
    else (flagOp s flag (bit v.toNat 0) src none).emit (.reply (flagSt s flag) 0#64))

/-! ## Spin waits (R264) -/

/-- The flag wait of a program context in spin mode: the flag, the mode it polls, when the wait began. -/
def spinWait (x : PCtx) : Option (Nat × Nat × Nat) :=
  match x.spin, x.stream, x.wait with
  | true, some m, _ =>
    (match m.fwait, m.back.find? isWaitf with
     | some (.flag p), some { op := .waitf _ mode _ _, .. } => some (p, mode, m.fsince)
     | _, _ => none)
  | true, none, some (.flag p) => some (p, bits (dAux0 x.desc) 14 2, x.since)
  | _, _, _ => none

/-- The program contexts whose spin poll of a flag is due: a program context polls once every 8 tc (R264). -/
def pollsDue (s : State) (p : Nat) : List (Nat × PCtx) :=
  s.work.pctxs.filter (fun c => (spinWait c.2).map (·.1) == some p && decide (c.2.polled + 8 ≤ s.clk.tc))

/-- The rank of a spin poll: its source's, by its command's deadline (R91, R258). -/
def pollRank (s : State) (c : Nat × PCtx) : Rank :=
  let since := ((spinWait c.2).map (·.2.2)).getD 0
  let d := dDeadline c.2.desc
  let far := since + 8388607
  let r : Int := ((if d = 0 then far else min d far : Nat) : Int) - (s.now : Int)
  { overdue := decide (r < 0), order := since, r := r, src := s.src (128 + c.1 / 8) }

/-- One poll of a spinning program context (R258 step 5, R264): due, and the first-ranked of those that are due at its
flag. -/
def spinPoll (s : State) (k : Nat) : State :=
  match s.pctx k with
  | none => s
  | some x =>
    match spinWait x with
    | none => s
    | some (p, mode, _) =>
      if (firstRanked (pollRank s) (pollsDue s p)).map (·.1) = some k then
        let t := s.setPctx k { x with polled := s.clk.tc }
        if flagSt t p ≠ .ok then pctxTold (flagRead t p (t.src (128 + k / 8)) (dTag x.desc)) k (flagSt t p)
        else if waitHolds t p mode then pctxTold (waitNow t p mode (t.src (128 + k / 8)) (dTag x.desc)) k .ok else t
      else s

/-- SPIN_POLL (R264). -/
def execSpinPoll (m p : Nat) (s : State) : Res := gateIn dFAB s (fun s => spinPoll s (m * 8 + p))

/-! ## Budget lending (R265, R266) -/

/-- NODE_ALL_WAIT (R265, R389): the scheduler's signal of node n. -/
def execNodeAllWait (n : Nat) (w : Bool) (s : State) : Res :=
  gate (dHome (n % 32)) 1 (s.src (4 * (n % 32))) (.nodeAllWait n w) s (fun s =>
    lendMark { s with sync := { s.sync with
      allWait := if w then addMem (n % 32) s.sync.allWait else delMem (n % 32) s.sync.allWait } } (n % 32))

/-! ## Barriers (R269 to R277) -/

/-- A barrier channel at reset (R269): EN is 0, the bits and counts 0. -/
def barReset : Bar :=
  { toggle := false, expect := false, arrived := 0, held := 0, round := 0, arrivals := [], heldBy := [], waiting := [],
    quiet := .off, wire := false }

/-- A barrier channel. -/
def State.bar (s : State) (c : Nat) : Bar := tget barReset s.sync.bars c

/-- The state with a barrier channel replaced. -/
def State.setBar (s : State) (c : Nat) (x : Bar) : State :=
  { s with sync := { s.sync with bars := tset barReset s.sync.bars c x } }

/-- EN of a channel. -/
def barEn (s : State) (c : Nat) : Bool := s.rgBit (Reg.barCfg c) 0

/-- COUNT of a channel, 1 to 256. -/
def barCount (s : State) (c : Nat) : Nat := s.rgField (Reg.barCfg c) 1 8 + 1

/-- Whether FORCE holds a channel's output (R277). -/
def barForced (s : State) (c : Nat) : Bool := s.rgBit Reg.barCtl 9 && s.rgField Reg.barCtl 0 5 == c

/-- This die's output on a channel (R269, R270, R271, R277, R353). -/
def barOut (s : State) (c : Nat) : Bool :=
  s.pwr.asserted || !barEn s c || barForced s c ||
  (match (s.bar c).quiet with
   | .high _ => true
   | .low _ => false
   | .off => (s.bar c).toggle == (s.bar c).expect)

/-- Records an error of a synchronisation operation (Tables 11.11 and 11.12). -/
def syncErr (s : State) (b src : Nat) (st : Status) : State :=
  (s.setRgBit Reg.syncErrStatus b true).driveField Reg.syncErrLast 0 32 (2 ^ 31 + src % 4096 * 2 ^ 8 + stCode st)

/-- A SYNC_ERROR event (Table 6.6). -/
def syncErrEvent (s : State) (src : Nat) (ctx : Option (Nat × Nat)) (st : Status) (obj : Nat) : State :=
  event s src ctx 0x40 5 (stCode st) obj

/-- What the unit of an arrival is told. -/
def tellArrival (s : State) (a : Arrival) (st : Status) : State :=
  match a.who with
  | none => s
  | some w => tell s w st true a.scope

/-- One arrival is counted on a channel (R270, R273). -/
def barCountArrival (s : State) (c : Nat) (a : Arrival) : State :=
  let b := s.bar c
  let n := barCount s c
  if !barEn s c then tellArrival s a .faultProt
  else if b.arrived < n then
    syncRec (s.setBar c { b with arrived := b.arrived + 1, arrivals := b.arrivals ++ [a],
                                 toggle := if b.arrived + 1 = n then !b.toggle else b.toggle }) a.src a.ctx c 5 0
  else if b.held < n then
    syncRec (s.setBar c { b with held := b.held + 1, heldBy := b.heldBy ++ [a] }) a.src a.ctx c 5 0
  else
    tellArrival (syncErrEvent (syncErr s 0 a.src .barrierOverrun) a.src a.ctx .barrierOverrun c) a .barrierOverrun

/-- A release is seen (R271, R272). -/
def barRelease (s : State) (c : Nat) : State :=
  let b := s.bar c
  let n := barCount s c
  let flip := b.held = n
  let t := s.setBar c { b with
    expect := !b.expect, round := (b.round + 1) % 2 ^ 32, arrived := b.held, held := 0, arrivals := b.heldBy,
    heldBy := [], toggle := if flip then !b.toggle else b.toggle, quiet := .high s.now, wire := true }
  let t := t.setRg64 (Reg.barRelease (2 * c)) (Reg.barRelease (2 * c + 1)) s.now
  b.arrivals.foldl (fun t a => tellArrival (syncRec t a.src a.ctx c 6 0) a .ok) t

/-- BARRIER_RELEASE_SEEN (R271): the wire is sampled true; a release is seen while TOGGLE = EXPECT outside the quiet
time. -/
def execBarrierReleaseSeen (c : Nat) (s : State) : Res :=
  gateAO s (fun s =>
    if frozen s then s
    else
      let b := s.bar (c % 32)
      if b.quiet = .off then
        if barEn s (c % 32) && b.toggle == b.expect then barRelease s (c % 32)
        else s.setBar (c % 32) { b with wire := true }
      else s)

/-- QUIET_PHASE_END (R271): 64 ns true, then 128 ns false. -/
def execQuietPhaseEnd (c : Nat) (s : State) : Res :=
  gateAO s (fun s =>
    let b := s.bar (c % 32)
    match b.quiet with
    | .off => s
    | .high t => if t + 64 ≤ s.now then s.setBar (c % 32) { b with quiet := .low (t + 64) } else s
    | .low t => if t + 128 ≤ s.now then s.setBar (c % 32) { b with quiet := .off, wire := false } else s)

/-- EN goes from 0 to 1 (R269). -/
def barEnable (s : State) (c v : Nat) : State :=
  (s.setRg (Reg.barCfg c) (v % 512)).setBar c
    { s.bar c with toggle := false, expect := true, arrived := 0, held := 0, round := 0, arrivals := [], heldBy := [],
                   quiet := .off }

/-- EN goes from 1 to 0 (R274): arrivals that wait end with FAULT_PROT, and MEMBER_LEFT is set. -/
def barDisable (s : State) (c v : Nat) : State :=
  let b := s.bar c
  let ws := b.arrivals ++ b.heldBy
  let keep := s.rgField (Reg.barCfg c) 1 8
  let t := (s.setRg (Reg.barCfg c) (putBits (v % 512) 1 8 keep)).setBar c
    { b with arrived := 0, held := 0, arrivals := [], heldBy := [], quiet := .off }
  let t := match ws with
    | a :: _ => syncErr t 2 a.src .faultProt
    | [] => t
  ws.foldl (fun t a => tellArrival t a .faultProt) t

/-- Any write to BAR_CFGc (R269, R274): COUNT is fixed while EN = 1. -/
def barCfgWrite (s : State) (c v : Nat) : State :=
  if barEn s c then (if bit v 0 then s else barDisable s c v)
  else if bit v 0 then barEnable s c v else s.setRg (Reg.barCfg c) (v % 512)

/-- BAR_ENABLE (R269). -/
def execBarEnable (c : Nat) (v : Word) (s : State) : Res :=
  gateAO s (fun s => if bit v.toNat 0 then barCfgWrite s (c % 32) v.toNat else s)

/-- BAR_DISABLE (R274). -/
def execBarDisable (c : Nat) (v : Word) (s : State) : Res :=
  gateAO s (fun s => if bit v.toNat 0 then s else barCfgWrite s (c % 32) v.toNat)

/-- A write to BAR_CTL (R277): CHANNEL and FORCE; ARRIVE counts one arrival that releases nothing. -/
def barCtlWrite (s : State) (v : Nat) : State :=
  let t := s.setRg Reg.barCtl (v &&& 0x21F)
  if bit v 8 && barEn t (bits v 0 5) then
    barCountArrival t (bits v 0 5) { src := t.src 168, scope := 0, ctx := none, who := none }
  else t

/-- BAR_ARRIVE (R277). -/
def execBarArrive (v : Word) (s : State) : Res := gateAO s (fun s => barCtlWrite s v.toNat)

/-- BAR_FORCE (R277). -/
def execBarForce (v : Word) (s : State) : Res := gateAO s (fun s => barCtlWrite s v.toNat)

/-! ## Release waits (R239, Table 10.3) -/

/-- Whether a flight keeps a release at a scope waiting (Table 10.3). -/
def holdsRelease (x : Flight) (scope : Nat) : Bool :=
  if segReads x.seg then true
  else if x.path = 2 then (if scope ≤ 2 then x.arrived != x.seg.count else x.state != .acked)
  else x.state != .acked

/-- Whether segments of a source wait at their issue point. -/
def issueWaits (s : State) (src : Nat) : Bool :=
  s.regu.waiting.any (fun w => match w.who with
    | .seg g => g.src == src
    | _ => false)

/-- Whether a port of this die has a request, accepted before an order number, that waits for its data beats or in its issue
queue. -/
def beatsDue (s : State) (src before : Nat) : Bool :=
  match tfind s.ports (src % 256) with
  | some p =>
    src / 256 == s.pwr.dieId &&
    (p.writes.any (fun w => decide (w.order < before)) || p.queue.any (fun w => decide (w.order < before)))
  | none => false

/-- Whether the waits of Table 10.3 for a source and scope are done, but for the dirty record: ENGINE waits until the
earlier accesses are issued. Of an engine port, those count that it accepted before an order number. -/
def releaseReady (s : State) (src scope : Nat) (before : Nat := 2 ^ 64) : Bool :=
  !issueWaits s src && !beatsDue s src before &&
  (scope == 0 || s.mesh.flights.all (fun f => f.2.seg.src != src || !holdsRelease f.2 scope))

/-- Whether a source's earlier writes toward a die are on their lane (R248): sent by its port, before a flag that follows
them. -/
def laneOrdered (s : State) (src die lane before : Nat) : Bool :=
  !beatsDue s src before &&
  s.mesh.flights.all (fun f => f.2.seg.src != src || f.2.path != routePort s die + 3 || ppaDie f.2.seg.target != die ||
    f.2.seg.cls != lane || segReads f.2.seg || f.2.arrived == f.2.seg.count) &&
  s.regu.waiting.all (fun w => match w.who with
    | .seg g => g.src != src || segReads g || ppaFar g.target || ppaDie g.target != die
    | _ => true)

/-- Whether an earlier release of the same engine port still waits: releases of a port take effect in order (R239). -/
def portReleases (s : State) (src key : Nat) : Bool :=
  s.sync.releases.any (fun r => decide (r.1 < key) && r.2.src == src && (match r.2.owner with
    | .port _ _ _ _ => true
    | _ => false))

/-- The accesses that count for a release's owner: of an engine port, those that it accepted before. -/
def Owner.before : Owner → Nat
  | .port _ _ _ order => order
  | _ => 2 ^ 64

/-- Whether a release may take effect (R239, R248): its waits are done, and no earlier release of its port waits. -/
def mayRelease (s : State) (key : Nat) (x : Release) : Bool :=
  (match x.owner with
   | .port _ _ _ _ => !portReleases s x.src key
   | _ => true) &&
  (match x.scope, x.effect with
   | 5, .farFlag die _ _ lane => laneOrdered s x.src die lane x.owner.before
   | sc, _ => releaseReady s x.src sc x.owner.before)

/-- The dirty record of the releaser's port is cleaned at CORE and wider (Table 10.3). -/
def releaseClean (s : State) (src scope : Nat) : State :=
  if scope = 0 ∨ scope = 5 ∨ src / 256 ≠ s.pwr.dieId then s else cleanPort s (src % 256)

/-- BARRIER_ARRIVAL_COUNT (R270): the first arrival whose release waits are done is counted. -/
def execBarrierArrivalCount (c : Nat) (s : State) : Res :=
  gateIn dFAB s (fun s =>
    let b := s.bar (c % 32)
    match b.waiting.find? (fun a => releaseReady s a.src a.scope) with
    | none => s
    | some a => barCountArrival (releaseClean (s.setBar (c % 32) { b with waiting := b.waiting.erase a }) a.src a.scope)
        (c % 32) a)

/-- An arrival is made (R270): counted at once when its release waits are done, else it waits for them. -/
def barArrive (s : State) (c : Nat) (a : Arrival) : State :=
  if !barEn s c then tellArrival s a .faultProt
  else if releaseReady s a.src a.scope then barCountArrival (releaseClean s a.src a.scope) c a
  else let b := s.bar c; s.setBar c { b with waiting := b.waiting ++ [a] }

end Sys2Proof.Machine
end

