-- ==== Sys2Proof/Machine/Desc.lean ====
section
/-! DEFINITION. What the requests of a command carry, the waits of a program context, what an engine port and other owners of
a request are told. -/

namespace Sys2Proof.Machine

/-- The remaining time of a command's deadline; 0 counts as the horizon (R38, R39, R142). -/
def dRemaining (now : Nat) (d : Desc) : Int :=
  if dDeadline d = 0 then 8388607 else min 8388607 ((dDeadline d : Int) - (now : Int))

/-- The source number of a program context's mover (R18, R131). -/
def pctxSrc (s : State) (k : Nat) : Nat := s.src (128 + k / 8)

/-- What the requests of a command carry (R38, R139). -/
def pctxRq (s : State) (k : Nat) (x : PCtx) : Rq :=
  { src := pctxSrc s k, ctx := dTag x.desc, cls := some (dClass x.desc), dl := some (shortStamp s.now (dDeadline x.desc)) }

/-- A program context begins a wait. -/
def PCtx.waits (x : PCtx) (now : Nat) (w : PWait) : PCtx := { x with wait := some w, since := now }

/-- When the deadline of a wait of a command is, as stamped when the wait began (R38). -/
def waitDue (d : Desc) (since : Nat) : Int :=
  let far : Int := (since : Int) + 8388607
  if dDeadline d = 0 then far else min far (dDeadline d : Int)

/-- When the deadline of a short stamp is (R39). -/
def stampDue (s : State) (dl : Nat) : Int := (s.now : Int) + remaining s.now dl

/-- The rank of what stands at an arbitration point until its deadline (R91). -/
def dueRank (s : State) (due : Int) (since src : Nat) : Rank :=
  let r := due - (s.now : Int)
  { overdue := decide (r < 0), order := since, r := r, src := src }

/-- The front goes on at the next instruction. -/
def Front.stepped (f : Front) : Front := { f with pc := f.pc + 1 }

/-- An a register loaded, modulo 2^48. -/
def Front.setA (f : Front) (i v : Nat) : Front := { f with a := tset 0 f.a i (v % 2 ^ 48) }

/-- An n register loaded, modulo 2^32. -/
def Front.setN (f : Front) (i v : Nat) : Front := { f with n := tset 0 f.n i (v % 2 ^ 32) }

/-- The waiting A instruction of a front is done: its register change, then the next instruction. -/
def frontDone (s : State) (k : Nat) (f : Front → Front) : State :=
  match s.pctx k with
  | none => s
  | some x =>
    match x.stream with
    | none => s
    | some m => (lendOff s (k / 8)).setPctx k { x with stream := some { m with fwait := none, front := (f m.front).stepped } }

/-! ## Engine ports, and who made a request -/

/-- A port of this die at reset. -/
def portReset : Port :=
  { tags := [], writes := [], queue := [], count := 0, stands := none, took := none, full := false, acquires := [] }

/-- An engine port. -/
def State.port (s : State) (u : Nat) : Port := tget portReset s.ports u

/-- The state with an engine port replaced. -/
def State.setPort (s : State) (u : Nat) (x : Port) : State := { s with ports := tset portReset s.ports u x }

/-- The last beat of a request: the tag is free again. -/
def portEnd (s : State) (port tag kind : Nat) (st : Status) (gv : Nat) (data : List Byte) : State :=
  let x := s.port port
  (s.setPort port { x with tags := x.tags.filter (fun t => t.1 != tag) }).emit (.beat port tag kind st gv true data)

/-- DONE with a status. -/
def portDone (s : State) (port tag : Nat) (st : Status) : State := portEnd s port tag 1 st 0 []

/-- NOT_AVAIL with a reason (R387). -/
def portNotAvail (s : State) (port tag reason : Nat) : State := portEnd s port tag 3 .ok 0 (toBytes 1 reason)

/-- OBJECT of a SYNC request. -/
def syncObj (q : PortReq) : Nat := bits q.addr 12 12

/-- The HOME_NODE of a request's context. -/
def portHomeNode (s : State) (q : PortReq) : Nat := (s.ctx q.ctx).homeNode

/-- The domain of a request's context. -/
def portDom (s : State) (q : PortReq) : Nat := (s.ctx q.ctx).domain

/-- The owner of a request gets its answer. -/
def ownerAnswer (s : State) (o : Owner) (st : Status) : State :=
  match o with
  | .pctx k => if st = .ok then pctxWake s k else pctxFault s k st
  | .port p tag _ _ => portDone s p tag st
  | .source => s

/-- The domain of a command's context. -/
def dDomain (s : State) (d : Desc) : Nat := (s.ctx (dCtx d)).domain

/-- What the front of a program context waits for, and since when. -/
def PCtx.frontWait (x : PCtx) : Option (PWait × Nat) :=
  match x.stream with
  | some m => m.fwait.map (fun w => (w, m.fsince))
  | none => none

/-- Whether a wait of a program context, in its front or its back, passes a test. -/
def PCtx.waitsFor (x : PCtx) (p : PWait → Bool) : Bool :=
  x.wait.any p || x.frontWait.any (fun w => p w.1)

/-- The program contexts that wait for what passes a test, rising. -/
def pctxWaiting (s : State) (p : PWait → Bool) : List (Nat × PCtx) := s.work.pctxs.filter (fun e => e.2.waitsFor p)

end Sys2Proof.Machine
end

