-- ==== Sys2Proof/Machine/Slots.lean ====
section
/-! DEFINITION. Slot rings and cheques (R183 to R199). -/

namespace Sys2Proof.Machine

/-! ## Slot ring blocks (Table 8.1) -/

/-- A slot ring block at reset: every field 0 (log 9). -/
def ringEmpty : Slots :=
  { cfg := 0#64, base := 0#64, cva := 0#64, pa := 0, pr := 0, ca := 0, cr := 0, heldP := 0, full := 0, heldC := 0,
    fills := 0, pdone := [], cdone := [], creads := [], engP := [], engC := [], standing := [], holders := [],
    filler := [], tookP := none, tookC := none, freed := (0, 0), cfgErr := false, opErr := false }

/-- A slot ring. -/
def State.slotRing (s : State) (r : Nat) : Slots := tget ringEmpty s.float.slots r

/-- The state with a slot ring replaced. -/
def State.setSlotRing (s : State) (r : Nat) (x : Slots) : State :=
  { s with float := { s.float with slots := tset ringEmpty s.float.slots r x } }

/-- EN. -/
def Slots.en (x : Slots) : Bool := bit x.cfg.toNat 0
/-- ANYDOM. -/
def Slots.anyDom (x : Slots) : Bool := bit x.cfg.toNat 1
/-- DOMAIN. -/
def Slots.domain (x : Slots) : Nat := bits x.cfg.toNat 2 6
/-- SLOTS. -/
def Slots.count (x : Slots) : Nat := bits x.cfg.toNat 8 7
/-- SIZE + 1, in granules. -/
def Slots.size (x : Slots) : Nat := bits x.cfg.toNat 16 13 + 1
/-- SCOPE. -/
def Slots.scope (x : Slots) : Nat := bits x.cfg.toNat 32 3
/-- STRIDE + 1, in granules. -/
def Slots.stride (x : Slots) : Nat := bits x.cfg.toNat 48 15 + 1
/-- The bits of word 0x00 that Table 8.1 names, without EN. -/
def slotCfgMask : Nat := 0x7FFF00071FFF7FFE
/-- Free slots (R184). -/
def Slots.free (x : Slots) : Nat := x.count - x.heldP - x.full - x.heldC
/-- The PPA of slot i (R185). -/
def Slots.ppa (x : Slots) (i : Nat) : Nat := x.base.toNat + i * x.stride * 128
/-- The CVA of slot i (R185). -/
def Slots.cvaOf (x : Slots) (i : Nat) : Nat := (x.cva.toNat + i * x.stride * 128) % 2 ^ 48
/-- Whether an acquire of a side (1 consumer) can succeed (R186). -/
def Slots.avail (x : Slots) (side : Nat) : Bool := if side = 0 then 0 < x.free else 0 < x.full

/-- The holder number of a program context. -/
def holdPctx (k : Nat) : Nat := k
/-- The holder number of an engine context at a port. -/
def holdEng (port ctx : Nat) : Nat := (port + 1) * 65536 + ctx
/-- The holder number of a relay of another die. -/
def holdFar (die k : Nat) : Nat := 2 ^ 24 * (die + 1) + k

/-- Whether DOM_CTL.V of a domain is set. -/
def domValid (s : State) (d : Nat) : Bool := s.rgBit (Reg.domCtl d) 0

/-- Whether a block passes the check of R184. -/
def slotSetupOk (s : State) (x : Slots) : Bool :=
  let b := x.base.toNat
  let last := ppaOff b + ((x.count - 1) * x.stride + x.size) * 128
  decide (3 ≤ x.count) && decide (x.count ≤ 64) && decide (x.size ≤ x.stride) && decide (b < 2 ^ 55) &&
  ppaDie b == s.pwr.dieId && ppaSpace b == 0 && b % 128 == 0 && decide (last ≤ 2 ^ 29) &&
  (List.range 256).all (fun k => !(decide (ppaOff b / 2 ^ 21 ≤ k) && decide (k * 2 ^ 21 < last) &&
    (bankWd s k || bankSlc s k || bankSealed s k))) &&
  x.cva.toNat % 128 == 0 && (x.anyDom || domValid s x.domain)

/-- OP_ERR is set (R189). -/
def slotOpErr (s : State) (r : Nat) : State := s.setSlotRing r { s.slotRing r with opErr := true }

/-! ## Acquire and release (R186, R187) -/

/-- An acquire whose condition holds, in a tc: the slot and the ring after it. -/
def slotTake (x : Slots) (tc side holder : Nat) : Nat × Slots :=
  if side = 0 then
    (x.pa, { x with pa := (x.pa + 1) % x.count, heldP := x.heldP + 1, holders := x.holders ++ [(holder, 0, x.pa)],
                    tookP := some tc })
  else
    (x.ca, { x with ca := (x.ca + 1) % x.count, full := x.full - 1, heldC := x.heldC + 1,
                    holders := x.holders ++ [(holder, 1, x.ca)], tookC := some tc })

/-- Whether an acquire of a side can succeed in this tc (R186, R191): none of the side took place in it, and a producer does
not take a slot that was freed in it. -/
def Slots.open (x : Slots) (tc side : Nat) : Bool :=
  if side = 0 then x.tookP != some tc && decide ((if x.freed.1 = tc then x.freed.2 else 0) < x.free)
  else x.tookC != some tc && decide (0 < x.full)

/-- Engine contexts that wait on a side whose condition holds are woken, and the bits cleared (R188). -/
def slotWake (s : State) (r : Nat) : State :=
  let x := s.slotRing r
  let ps := if x.avail 0 then x.engP else []
  let cs := if x.avail 1 then x.engC else []
  let t := s.setSlotRing r { x with engP := if x.avail 0 then [] else x.engP,
                                    engC := if x.avail 1 then [] else x.engC }
  (ps ++ cs).foldl (fun t n => nodeWake t n 1 r .ok) t

/-- The in-order advance of producers (R187): at most 64 slots. -/
def advanceP : Nat → Slots → Slots
  | 0, x => x
  | n + 1, x =>
    if 0 < x.heldP ∧ x.pr ∈ x.pdone then
      advanceP n { x with pdone := delMem x.pr x.pdone, pr := (x.pr + 1) % x.count, heldP := x.heldP - 1,
                          full := x.full + 1, fills := (x.fills + 1) % 2 ^ 32 }
    else x

/-- The in-order advance of consumers in a tc (R187, R191). -/
def advanceC (tc : Nat) : Nat → Slots → Slots
  | 0, x => x
  | n + 1, x =>
    if 0 < x.heldC ∧ x.cr ∈ x.cdone then
      advanceC tc n { x with cdone := delMem x.cr x.cdone, cr := (x.cr + 1) % x.count, heldC := x.heldC - 1,
                             freed := (tc, (if x.freed.1 = tc then x.freed.2 else 0) + 1) }
    else x

/-- A producer release of a source takes effect: PDONE of the slot, then the advance (R187). -/
def slotFull (s : State) (r i src : Nat) : State :=
  let x := s.slotRing r
  if x.en then
    slotWake (s.setSlotRing r (advanceP 64 { x with pdone := addMem i x.pdone, filler := tput x.filler i src })) r
  else s

/-- A consumer release takes effect: CDONE of the slot, then the advance (R187). -/
def slotFreed (s : State) (r i : Nat) : State :=
  let x := s.slotRing r
  if x.en then slotWake (s.setSlotRing r (advanceC s.clk.tc 64 { x with cdone := addMem i x.cdone })) r else s

/-- The oldest slot that a holder holds on a side. -/
def Slots.oldest (x : Slots) (side holder : Nat) : Option Nat :=
  (x.holders.find? (fun h => h.1 == holder && h.2.1 == side)).map (fun h => h.2.2)

/-- Whether a ring refuses an operation: it is not enabled, or the domain of the operation is not permitted (R189). -/
def relayDenied (x : Slots) (dom : Option Nat) : Bool :=
  !x.en || (match dom with
    | some d => !x.anyDom && d != x.domain
    | none => false)

/-- The checks of an operation at a ring: its state can be read (R309), and the ring does not refuse it (R189). -/
def ringCheck (s : State) (r src : Nat) (ctx : Option (Nat × Nat)) (dom : Option Nat) : Status × State :=
  match tableReads s src ctx [(.slot, r)] with
  | (false, t) => (.eccUncorr, t)
  | (true, t) => if relayDenied (s.slotRing r) dom then (.faultProt, slotOpErr t r) else (.ok, t)

/-- A release begins (R172, R187, R189): the holder gives up its oldest slot of a side, or its error. -/
def slotGive (s : State) (r side holder src : Nat) (ctx : Option (Nat × Nat)) (dom : Nat) : Except Status Nat × State :=
  match ringCheck s r src ctx (some dom) with
  | (.ok, t) => (match (t.slotRing r).oldest side holder with
    | none => (.error .faultProt, slotOpErr t r)
    | some i => (.ok i, t.setSlotRing r { t.slotRing r with holders := (t.slotRing r).holders.erase (holder, side, i) }))
  | (st, t) => (.error st, t)

/-- The segments of a holder's reads that are in flight: of its source and its context. -/
def readsDue (s : State) (src : Nat) (ctx : Option Nat) : List Nat :=
  (s.mesh.flights.filter (fun f => f.2.seg.src == src && f.2.seg.ctx == ctx && segReads f.2.seg)).map (·.1)

/-- A consumer release of a slot by a holder: CDONE once the reads issued before have returned (R187). -/
def slotGiveC (s : State) (r i src : Nat) (ctx : Option Nat) : State :=
  let ids := readsDue s src ctx
  if ids.isEmpty then slotFreed s r i
  else s.setSlotRing r { s.slotRing r with creads := (s.slotRing r).creads ++ [(i, ids)] }

/-- Whether none of the reads that a consumer release waits for is in flight any more. -/
def readsDone (s : State) (ids : List Nat) : Bool := ids.all (fun id => (s.flight id).isNone)

/-- SLOT_CONSUMER_RELEASE_DONE (R187). -/
def execSlotConsumerReleaseDone (ring slot : Nat) (s : State) : Res :=
  gateIn dFAB s (fun s =>
    match (s.slotRing (ring % 4096)).creads.find? (fun c => c.1 == slot) with
    | none => s
    | some c =>
      if readsDone s c.2 then
        let x := s.slotRing (ring % 4096)
        slotFreed (s.setSlotRing (ring % 4096) { x with creads := x.creads.erase c }) (ring % 4096) slot
      else s)

/-! ## Relays at a ring (R205, R207) -/

/-- A link of a relay's reservation holds a slot: the header goes on; or its source ring gave it a full slot (R205). -/
def relayGot (s : State) (k link slot : Nat) : State :=
  match s.pctx k with
  | none => s
  | some x =>
    match x.relay with
    | none => s
    | some y => s.setPctx k { x with relay := some (
        if link = 512 then { y with srcSlot := some slot }
        else { y with slots := y.slots ++ [(y.resv, link, slot)], resvAt := link + 1 }) }

/-- Whether a piece in transfer has links that have not released it. -/
def Relay.busy (y : Relay) : Bool := y.slots.any (fun e => decide (e.1 < y.sent))

/-- A relay detects an error (R207): no new piece starts, its reservation leaves the ring where it stands, and its
command is done once no piece in transfer is left. -/
def relayStop (s : State) (k : Nat) (st : Status) : State :=
  match s.pctx k with
  | none => s
  | some x =>
    match x.relay with
    | none => s
    | some y =>
      let t := s.setPctx k { x.err s.clk.tc st with
        relay := some { y with failed := true }, done := x.done || !y.busy, wait := none }
      unstand (unwait t (.pctx k false)) (fun w => match w with
        | .relay j _ => j == k
        | _ => false)

/-- A relay detects an error that no address goes with: its FAULT record carries 0 (R84); quarantine writes none. -/
def relayFault (s : State) (k : Nat) (st : Status) : State :=
  let tag := match s.pctx k with
    | some x => dTag x.desc
    | none => none
  relayStop (if st = .quarantined then s else faultRec s (128 + k / 8) tag st 0 false false) k st

/-- A message of a relay leaves toward another die on the lane of its class (R206, R304). -/
def relayOut (s : State) (die lane key : Nat) (m : RelayMsg) : State :=
  linkOut s (routePort s die) (.relay (routePort s die) die lane key m)

/-- The slot ring of the link that a relay of another die has reached. -/
def hopRing (h : RelayHop) : Nat := (h.chain.headD (0, 0, 0)).2.2 % 4096

/-- A link of a relay of another die reports an error to its source (R207). -/
def hopFails (s : State) (key : Nat) (h : RelayHop) (st : Status) : State :=
  relayOut s h.die h.lane key (.failed h.link st)

/-- What a relay carries at the links behind its first. -/
def hopNext (h : RelayHop) : RelayHop := { h with link := h.link + 1, chain := h.chain.drop 1 }

/-- The header of a relay of another die reaches a link of this die: checked at the link's ring, where it stands (R189,
R205). -/
def hopArrive (s : State) (key : Nat) (h : RelayHop) : State :=
  let src := h.die * 256 + 128 + key / 8
  match ringCheck s (hopRing h) src none h.dom with
  | (.ok, t) =>
    let x := t.slotRing (hopRing h)
    if h.piece = 0 ∧ x.size < h.size then hopFails t key h .faultProt
    else t.setSlotRing (hopRing h) { x with standing := x.standing ++
      [{ who := .hop key h, src := src, since := t.now, due := stampDue t h.dl }] }
  | (st, t) => hopFails t key h st

/-- A link of a relay of another die holds a slot: the header goes on to the next link, on this die or another, or the grant
returns to the source (R205). -/
def hopGot (s : State) (key : Nat) (h : RelayHop) : State :=
  match (hopNext h).chain with
  | [] => relayOut s h.die h.lane key (.grant h.piece)
  | e :: _ =>
    if e.1 = s.pwr.dieId then hopArrive s key (hopNext h) else relayOut s e.1 h.lane key (.header (hopNext h))

/-! ## The decision of a side (R186, R188, R191) -/

/-- What stands at a side of a ring: the waiting program contexts, then relays and engine ports. -/
def slotWaiters (s : State) (r side : Nat) : List Stand :=
  (s.work.pctxs.filterMap (fun e => match e.2.frontWait with
    | some (.slot r' sd ad, since) =>
      if r' = r ∧ sd = side then
        some { who := .front e.1 ad, src := pctxSrc s e.1, since := since, due := waitDue e.2.desc since } else none
    | _ => none)) ++
  (s.slotRing r).standing.filter (fun w => match w.who with
    | .acquire _ sd => sd == side
    | .relay _ link => (side == 1) == (link == 512)
    | .hop _ _ => side == 0
    | _ => false)

/-- The rank of what stands (R91). -/
def standRank (s : State) (w : Stand) : Rank := dueRank s w.due w.since w.src

/-- The holder number that what stands gets its slot under. -/
def Standing.holder : Standing → Nat
  | .front k _ => holdPctx k
  | .relay k _ => holdPctx k
  | .hop key h => holdFar h.die key
  | .acquire q _ => holdEng q.port q.ctx
  | _ => 0

/-- What stands gets slot i (R186, R188): a front goes on, a header goes on, an engine port gets its slot's CVA, and an
acquire of a consumer side is one at the ring's SCOPE (R387). -/
def slotServe (s : State) (r i : Nat) (w : Standing) : State :=
  let x := s.slotRing r
  match w with
  | .front k ad => frontDone s k (fun f => f.setA ad (x.cvaOf i))
  | .relay k link => relayGot s k link i
  | .hop key h => hopGot s key h
  | .acquire q side =>
    let t := portEnd s q.port q.tag 0 .ok 0 (toBytes 6 (x.cvaOf i))
    if side = 1 then acquire t q.port x.scope else t
  | _ => s

/-- An engine port's acquire whose condition fails: NOT_AVAIL, and its node waits in ENG_P or ENG_C (R188). -/
def slotEngWait (s : State) (r : Nat) (q : PortReq) (side : Nat) : State :=
  let n := portHomeNode s q
  let x := s.slotRing r
  let t := s.setSlotRing r (if side = 0 then { x with engP := addMem n x.engP } else { x with engC := addMem n x.engC })
  portNotAvail t q.port q.tag 1

/-- The engine ports' acquires that stand at a side whose condition fails are answered (R186, R188). -/
def slotEngWaits (s : State) (r side : Nat) : State :=
  let mine (w : Stand) : Bool := match w.who with
    | .acquire _ sd => sd == side
    | _ => false
  let x := s.slotRing r
  (x.standing.filter mine).foldl (fun t w => match w.who with
    | .acquire q sd => slotEngWait t r q sd
    | _ => t) (s.setSlotRing r { x with standing := x.standing.filter (fun w => !mine w) })

/-- The decision of a side in a tc (R186): the first-ranked of what stands gets a slot; the others stand on. An acquire that
was not decided before has not waited, and leaves no trace record (Table 15.5). -/
def slotDecide (s : State) (r side : Nat) (fresh : Option Standing) : State :=
  let x := s.slotRing r
  if !x.en then s
  else if !x.avail side then slotEngWaits s r side
  else if !x.open s.clk.tc side then s
  else
    match firstRanked (standRank s) (slotWaiters s r side) with
    | none => s
    | some w =>
      match slotTake x s.clk.tc side w.who.holder with
      | (i, y) =>
        let t := s.setSlotRing r { y with standing := y.standing.erase w }
        let t := if fresh = some w.who then t else traceEv t w.src 7 (if side = 1 then tget 0 x.filler i else 0) r
        slotServe t r i w.who

/-- SLOT_ACQUIRE_RETRY (R186). -/
def execSlotAcquireRetry (ring side : Nat) (s : State) : Res :=
  gateIn dFAB s (fun s => slotDecide s (ring % 4096) (side % 2) none)

/-- An acquire reaches a ring whose checks it passed, and its side is decided (R186). -/
def slotStand (s : State) (r side : Nat) (w : Stand) : State :=
  let x := s.slotRing r
  slotDecide (s.setSlotRing r { x with standing := x.standing ++ [w] }) r side (some w.who)

/-! ## The block's words (R183, R184, R190) -/

/-- A release of a slot of ring r that still waits changes nothing once the ring was disabled: it ends without effect
(DESIGN CHOICE, log 77). -/
def slotReleaseEnds (s : State) (r : Nat) : State :=
  { s with sync := { s.sync with releases := s.sync.releases.map (fun e => (e.1, match e.2.effect with
    | .slotFull r' _ => if r' = r then { e.2 with effect := .nothing } else e.2
    | _ => e.2)) } }

/-- EN written to 0 (R190): every waiter fails, engine waiters are woken, reports of relays of other dies leave. -/
def slotDisable (s : State) (r : Nat) : State :=
  let x := s.slotRing r
  let ws := slotWaiters s r 0 ++ slotWaiters s r 1
  let t := s.setSlotRing r { x with cfg := BitVec.ofNat 64 (putBits x.cfg.toNat 0 1 0), engP := [], engC := [],
                                    standing := [], holders := [], creads := [], opErr := x.opErr || !ws.isEmpty }
  let t := ws.foldl (fun t w => match w.who with
    | .front k _ => frontFault t k .faultProt
    | .relay k _ => relayFault t k .faultProt
    | .hop key h => hopFails t key h .faultProt
    | .acquire q _ => portDone t q.port q.tag .faultProt
    | _ => t) (slotReleaseEnds t r)
  (x.engP ++ x.engC).foldl (fun t n => nodeWake t n 1 r .faultProt) t

/-- EN written from 0 to 1 with the other fields of the word (R184). -/
def slotEnable (s : State) (r v : Nat) : State :=
  let y := { s.slotRing r with cfg := BitVec.ofNat 64 (v &&& slotCfgMask) }
  if slotSetupOk s y then
    let t := tableWrite s .slot r
    t.setSlotRing r { y with cfg := BitVec.ofNat 64 ((v &&& slotCfgMask) + 1), pa := 0, pr := 0, ca := 0, cr := 0,
                             heldP := 0, full := 0, heldC := 0, pdone := [], cdone := [], fills := 0, holders := [],
                             creads := [], freed := (0, 0) }
  else s.setSlotRing r { y with cfgErr := true }

/-- A write to word 0x00 of a slot ring block (R183). -/
def slotCfgWrite (s : State) (r v : Nat) : State :=
  let x := s.slotRing r
  if x.en then (if bit v 0 then s else slotDisable s r)
  else if bit v 0 then slotEnable s r v
  else s.setSlotRing r { x with cfg := BitVec.ofNat 64 (v &&& slotCfgMask) }

/-- A write to word w of a slot ring block (R183). -/
def slotWordWrite (s : State) (r w v : Nat) : State :=
  let x := s.slotRing r
  if w = 0 then slotCfgWrite s r v
  else if w = 8 then (if x.en then s else s.setSlotRing r { x with base := BitVec.ofNat 64 (v % 2 ^ 56) })
  else if w = 0x10 then (if x.en then s else s.setSlotRing r { x with cva := BitVec.ofNat 64 (v % 2 ^ 48) })
  else if w = 0x20 then
    s.setSlotRing r { x with cfgErr := x.cfgErr && !bit v 16, opErr := x.opErr && !bit v 17 }
  else s

/-- A list of bit numbers as a word. -/
def bitWord (l : List Nat) : Nat := l.foldl (fun w i => w ||| 2 ^ i) 0

/-- A read of word w of a slot ring block (Table 8.1). PWAIT and CWAIT have 8 bits, and a die has 256 program contexts: they
show 255 at most (DESIGN CHOICE, log 74). -/
def slotWordRead (s : State) (r w : Nat) : Nat :=
  let x := s.slotRing r
  if w = 0 then x.cfg.toNat
  else if w = 8 then x.base.toNat
  else if w = 0x10 then x.cva.toNat
  else if w = 0x18 then
    x.pa + x.pr * 2 ^ 8 + x.ca * 2 ^ 16 + x.cr * 2 ^ 24 + x.heldP * 2 ^ 32 + x.full * 2 ^ 40 + x.heldC * 2 ^ 48
  else if w = 0x20 then
    let n (side : Nat) : Nat := (pctxWaiting s (fun p => match p with
      | .slot r' sd _ => r' == r && sd == side
      | _ => false)).length
    min (n 0) 255 + min (n 1) 255 * 2 ^ 8 + b2n x.cfgErr * 2 ^ 16 + b2n x.opErr * 2 ^ 17 + x.fills * 2 ^ 32
  else if w = 0x28 then bitWord x.pdone
  else if w = 0x30 then bitWord x.cdone
  else bitWord x.engP + bitWord x.engC * 2 ^ 32

/-- SLOT_RING_ENABLE (R184). -/
def execSlotRingEnable (ring : Nat) (v : DWord) (s : State) : Res :=
  gate dFAB 7 0 (.slotRingEnable ring v) s (fun s => if bit v.toNat 0 then slotCfgWrite s (ring % 4096) v.toNat else s)

/-- SLOT_RING_DISABLE (R190). -/
def execSlotRingDisable (ring : Nat) (v : DWord) (s : State) : Res :=
  gate dFAB 7 0 (.slotRingDisable ring v) s (fun s => if bit v.toNat 0 then s else slotCfgWrite s (ring % 4096) v.toNat)

/-! ## Cheques (R192, R194) -/

/-- A cheque pool block at reset. -/
def poolEmpty : Pool := { cfg := 0#64, cva := 0#64, size := 0#64, gbase := 0, cfgErr := false, stale := 0 }

/-- A cheque pool. -/
def State.pool (s : State) (p : Nat) : Pool := tget poolEmpty s.float.pools p

/-- The state with a cheque pool replaced. -/
def State.setPool (s : State) (p : Nat) (x : Pool) : State :=
  { s with float := { s.float with pools := tset poolEmpty s.float.pools p x } }

/-- EN. -/
def Pool.en (x : Pool) : Bool := bit x.cfg.toNat 0
/-- SEED. -/
def Pool.seed (x : Pool) : Bool := bit x.cfg.toNat 1
/-- FREEQ. -/
def Pool.freeq (x : Pool) : Nat := bits x.cfg.toNat 9 10
/-- BUF_SIZE. -/
def Pool.buf (x : Pool) : Nat := bits x.size.toNat 0 32
/-- COUNT. -/
def Pool.count (x : Pool) : Nat := bits x.size.toNat 32 21
/-- Whether a domain may take the pool's cheques. -/
def Pool.permits (x : Pool) (dom : Nat) : Bool := bit x.cfg.toNat 2 || bits x.cfg.toNat 3 6 == dom

/-- POOL of a cheque. -/
def chqPool (c : Nat) : Nat := bits c 20 8
/-- INDEX of a cheque. -/
def chqIndex (c : Nat) : Nat := bits c 0 20
/-- GEN of a cheque. -/
def chqGen (c : Nat) : Nat := bits c 28 4

/-- An entry of the generation store. -/
def State.gen (s : State) (e : Nat) : Nat := tget 0 s.float.gens e

/-- The state with a generation replaced. -/
def State.setGen (s : State) (e g : Nat) : State :=
  { s with float := { s.float with gens := tset 0 s.float.gens e (g % 16) } }

/-- The generation entry of a cheque's buffer. -/
def chqEntry (s : State) (c : Nat) : Nat := (s.pool (chqPool c)).gbase + chqIndex c

/-- Whether a cheque is current (R192). -/
def chqCurrent (s : State) (c : Nat) : Bool :=
  let p := s.pool (chqPool c)
  p.en && decide (chqIndex c < p.count) && chqGen c == s.gen (chqEntry s c)

/-- The CVA of a cheque's buffer (R197). -/
def chqCva (s : State) (c : Nat) : Nat :=
  let p := s.pool (chqPool c)
  (p.cva.toNat + chqIndex c * p.buf) % 2 ^ 48

/-- A stale cheque is caught (R197, Table 11.11). -/
def chqStale (s : State) (c src : Nat) (ctx : Option (Nat × Nat)) : State :=
  let p := s.pool (chqPool c)
  syncErrEvent (syncErr (s.setPool (chqPool c) { p with stale := min (p.stale + 1) 0xFFFFFFFF }) 1 src .chequeStale)
    src ctx .chequeStale c

/-! ## Cheque queues (R195 to R197, R199) -/

/-- A cheque queue block at reset. -/
def queueEmpty : Queue :=
  { cfg := 0#64, cheques := [], puts := 0, cfgErr := false, putDrop := false, putStale := false, engT := [], engP := [],
    standing := [], putTc := none, takeTc := none }

/-- A cheque queue. -/
def State.queue (s : State) (q : Nat) : Queue := tget queueEmpty s.float.queues q

/-- The state with a cheque queue replaced. -/
def State.setQueue (s : State) (q : Nat) (x : Queue) : State :=
  { s with float := { s.float with queues := tset queueEmpty s.float.queues q x } }

/-- EN. -/
def Queue.en (x : Queue) : Bool := bit x.cfg.toNat 0
/-- DEPTH. -/
def Queue.depth (x : Queue) : Nat := bits x.cfg.toNat 8 9
/-- SCOPE. -/
def Queue.scope (x : Queue) : Nat := bits x.cfg.toNat 17 3
/-- Whether the checks of R196 step 1 fail; a PPA source has no domain. -/
def Queue.denied (x : Queue) (dom : Option Nat) : Bool :=
  !x.en || (match dom with
    | some d => !bit x.cfg.toNat 1 && bits x.cfg.toNat 2 6 != d
    | none => false)

/-- Engine contexts whose wait at a queue can end are woken (R188, R199). -/
def queueWake (s : State) (q : Nat) : State :=
  let x := s.queue q
  let ts := if x.cheques.isEmpty then [] else x.engT
  let ps := if x.cheques.length < x.depth then x.engP else []
  let t := s.setQueue q { x with engT := if x.cheques.isEmpty then x.engT else [],
                                 engP := if x.cheques.length < x.depth then [] else x.engP }
  (ts ++ ps).foldl (fun t n => nodeWake t n 2 q .ok) t

/-- Stores a cheque in a queue that has room, with a new generation in its pool's free queue (R196). -/
def chqStore (s : State) (q c src : Nat) : State :=
  let e := chqEntry s c
  let back := (s.pool (chqPool c)).en && (s.pool (chqPool c)).freeq == q
  let t := if back then s.setGen e (s.gen e + 1) else s
  let c' := if back then putBits c 28 4 (t.gen e) else c
  let x := t.queue q
  queueWake (t.setQueue q { x with cheques := x.cheques ++ [(c', src)], puts := (x.puts + 1) % 2 ^ 32 }) q

/-- Whether a RECALL of a cheque's buffer stands in this tc behind what is decided now (R198): the commands that wait act in
the tc of the one in front of them (log 5). -/
def recalled (s : State) (c : Nat) : Bool :=
  let hits (p v : Nat) : Bool := p == chqPool c && v % 2 ^ 20 == chqIndex c
  s.pending.any (fun i => match i with
    | .recall pool v => hits (pool % 256) v.toNat
    | .slotChequeControlWrite off v _ =>
      decide (0x50000 ≤ off) && decide (off < 0x54000) && off % 64 == 0x20 && hits ((off - 0x50000) / 64) v.toNat
    | _ => false)

/-- The words of the queue state and the generation store that a put or a take of a cheque reads. -/
def chqWords (s : State) (q c : Nat) : List (Tab × Nat) := [(.cheque, q), (.generation, chqEntry s c)]

/-- The checks of a put (R196 steps 1 and 2, R198, R309). -/
def putCheck (s : State) (q c : Nat) (dom : Option Nat) : Status :=
  if tableBad s .cheque q then .eccUncorr
  else if (s.queue q).denied dom then .faultProt
  else if tableBad s .generation (chqEntry s c) then .eccUncorr
  else if !chqCurrent s c || recalled s c then .chequeStale
  else .ok

/-- A put whose checks fail (R196, R197, R309). -/
def putFails (s : State) (q c src : Nat) (ctx : Option (Nat × Nat)) (st : Status) : State :=
  if st = .chequeStale then chqStale s c src ctx
  else if st = .eccUncorr then (tableReads s src ctx (chqWords s q c)).2
  else s

/-- A put that finds its queue full (R196): a program context waits, an engine port gets NOT_AVAIL and its node waits in
ENG_P, a PUT write is dropped. -/
def putFull (s : State) (q : Nat) (o : Owner) : State :=
  match o with
  | .pctx k => (match s.pctx k with
    | some x => s.setPctx k (x.waits s.now (.put q))
    | none => s)
  | .port p tag node _ =>
    portNotAvail (s.setQueue q { s.queue q with engP := addMem node (s.queue q).engP }) p tag 1
  | .source => s.setQueue q { s.queue q with putDrop := true }

/-- The answer of a put that failed: a PUT write with a stale cheque sets PUT_STALE (R196). -/
def putAnswer (s : State) (q : Nat) (o : Owner) (st : Status) : State :=
  match o, st with
  | .source, .chequeStale => s.setQueue q { s.queue q with putStale := true }
  | _, _ => ownerAnswer s o st

/-- The first-ranked put of a queue with room takes effect: checked again, then stored (R196). -/
def putServe (s : State) (q : Nat) (w : Stand) : State :=
  let go (c : Nat) (dom : Option Nat) (ctx : Option (Nat × Nat)) (o : Owner) : State :=
    match putCheck s q c dom with
    | .ok =>
      let t := (tableReads s w.src ctx (chqWords s q c)).2
      ownerAnswer (chqStore (t.setQueue q { t.queue q with putTc := some t.clk.tc }) q c w.src) o .ok
    | st => putAnswer (putFails s q c w.src ctx st) q o st
  match w.who with
  | .back k c => (match s.pctx k with
    | some x => go c (some (dDomain s x.desc)) (dTag x.desc) (.pctx k)
    | none => s)
  | .put c dom ctx o => go c dom ctx o
  | _ => s

/-- What a take gives (R197): the status, the cheque, the state. -/
def chqTake (s : State) (q dom src : Nat) (ctx : Option (Nat × Nat)) : Status × Nat × State :=
  let x := s.queue q
  match x.cheques with
  | [] => (.ok, 0, s)
  | (c, _) :: l =>
    let t := queueWake (s.setQueue q { x with cheques := l, takeTc := some s.clk.tc }) q
    let (good, t) := tableReads t src ctx (chqWords s q c)
    if !good then (.eccUncorr, c, t)
    else if !chqCurrent t c then (.chequeStale, c, chqStale t c src ctx)
    else if !(t.pool (chqPool c)).permits dom then (.faultProt, c, t)
    else (.ok, c, t)

/-- The checks of a take as it arrives (R197, R309). -/
def takeCheck (s : State) (q src : Nat) (ctx : Option (Nat × Nat)) (dom : Nat) : Status × State :=
  match tableReads s src ctx [(.cheque, q)] with
  | (false, t) => (.eccUncorr, t)
  | (true, t) => (if (s.queue q).denied (some dom) then .faultProt else .ok, t)

/-- The first-ranked take of a queue that holds a cheque takes effect (R197, R199): an engine port's take is an acquire at
the queue's SCOPE (R387). A take that was not decided before leaves no trace record (Table 15.5). -/
def takeServe (s : State) (q : Nat) (w : Stand) (fresh : Bool) : State :=
  let putter := ((s.queue q).cheques.headD (0, 0)).2
  let tr (t : State) : State := if fresh then t else traceEv t w.src 8 putter q
  match w.who with
  | .front k _ => (match s.pctx k with
    | some x => (match x.frontWait, chqTake s q (dDomain s x.desc) w.src (dTag x.desc) with
      | some (.take _ nd ad, _), (.ok, c, t) => frontDone (tr t) k (fun f => (f.setN nd c).setA ad (chqCva t c))
      | some (.take _ _ _, _), (st, _, t) => frontFault t k st
      | _, _ => s)
    | none => s)
  | .take p => (match chqTake s q (portDom s p) w.src (ctxTag s p.ctx) with
    | (.ok, c, t) =>
      acquire (portEnd (tr t) p.port p.tag 0 .ok 0 (toBytes 4 c ++ toBytes 6 (chqCva t c))) p.port (s.queue q).scope
    | (st, _, t) => portDone t p.port p.tag st)
  | _ => s

/-- What stands at a queue to put or to take: the waiting program contexts, then what is kept there. -/
def queueWaiters (s : State) (q : Nat) (isPut : Bool) : List Stand :=
  (s.work.pctxs.filterMap (fun e =>
    let w (y : Standing) (since : Nat) : Option Stand :=
      some { who := y, src := pctxSrc s e.1, since := since, due := waitDue e.2.desc since }
    if isPut then (match e.2.wait, e.2.stream with
      | some (.put q'), some { back := { op := .chqout _ c, .. } :: _, .. } =>
        if q' == q then w (.back e.1 c) e.2.since else none
      | _, _ => none)
    else match e.2.frontWait with
      | some (.take q' _ ad, since) => if q' == q then w (.front e.1 ad) since else none
      | _ => none)) ++
  (s.queue q).standing.filter (fun w => match w.who with
    | .take _ => !isPut
    | _ => isPut)

/-- The puts of engine ports and of PUT writes that stand at a full queue are answered (R196). -/
def putFulls (s : State) (q : Nat) : State :=
  let x := s.queue q
  let mine (w : Stand) : Bool := match w.who with
    | .put _ _ _ _ => true
    | _ => false
  (x.standing.filter mine).foldl (fun t w => match w.who with
    | .put _ _ _ o => putFull t q o
    | _ => t) (s.setQueue q { x with standing := x.standing.filter (fun w => !mine w) })

/-- An engine port's take that finds no cheque: NOT_AVAIL, and its node waits in ENG_T (R197). -/
def takeEngWait (s : State) (q : Nat) (p : PortReq) : State :=
  portNotAvail (s.setQueue q { s.queue q with engT := addMem (portHomeNode s p) (s.queue q).engT }) p.port p.tag 1

/-- The takes of engine ports that stand at an empty queue are answered (R197). -/
def takeEngWaits (s : State) (q : Nat) : State :=
  let x := s.queue q
  let mine (w : Stand) : Bool := match w.who with
    | .take _ => true
    | _ => false
  (x.standing.filter mine).foldl (fun t w => match w.who with
    | .take p => takeEngWait t q p
    | _ => t) (s.setQueue q { x with standing := x.standing.filter (fun w => !mine w) })

/-- The decision of the puts of a queue in a tc (R199): at most one, the first-ranked. -/
def putDecide (s : State) (q : Nat) : State :=
  let x := s.queue q
  if !x.en then s
  else if x.depth ≤ x.cheques.length then putFulls s q
  else if x.putTc = some s.clk.tc then s
  else match firstRanked (standRank s) (queueWaiters s q true) with
    | none => s
    | some w => putServe (s.setQueue q { x with standing := x.standing.erase w }) q w

/-- The decision of the takes of a queue in a tc (R199): at most one, the first-ranked. -/
def takeDecide (s : State) (q : Nat) (fresh : Option Standing) : State :=
  let x := s.queue q
  if !x.en then s
  else if x.cheques.isEmpty then takeEngWaits s q
  else if x.takeTc = some s.clk.tc then s
  else match firstRanked (standRank s) (queueWaiters s q false) with
    | none => s
    | some w => takeServe (s.setQueue q { x with standing := x.standing.erase w }) q w (fresh == some w.who)

/-- A put whose release waits are done reaches its queue (R196, R199): it fails, waits for room, or stands and the queue
decides. -/
def putArrive (s : State) (q c : Nat) (dom : Option Nat) (src : Nat) (ctx : Option (Nat × Nat)) (o : Owner)
    (due : Int) : State :=
  match putCheck s q c dom with
  | .ok =>
    if (s.queue q).depth ≤ (s.queue q).cheques.length then putFull s q o
    else match o with
      | .pctx k => putDecide (putFull s q (.pctx k)) q
      | _ =>
        let x := s.queue q
        putDecide (s.setQueue q { x with standing := x.standing ++
          [{ who := .put c dom ctx o, src := src, since := s.now, due := due }] }) q
  | st => putAnswer (putFails s q c src ctx st) q o st

/-- A PUT write takes effect (R196). -/
def putPerform (s : State) (q v src : Nat) : State :=
  putArrive s q (v % 2 ^ 32) none src none .source ((s.now : Int) + 8388607)

/-- Whether a queue passes the check of R195. -/
def queueSetupOk (s : State) (v : Nat) : Bool :=
  decide (1 ≤ bits v 8 9) && decide (bits v 8 9 ≤ 256) && (bit v 1 || domValid s (bits v 2 6))

/-- The bits of a queue's word 0x00, without EN. -/
def queueCfgMask : Nat := 0xFFFFE

/-- EN written to 0: the cheques are discarded, the waiters fail (R195). -/
def queueDisable (s : State) (q : Nat) : State :=
  let x := s.queue q
  let ws := queueWaiters s q true ++ queueWaiters s q false
  let t := s.setQueue q { x with cfg := BitVec.ofNat 64 (putBits x.cfg.toNat 0 1 0), cheques := [], engT := [], engP := [],
                                 standing := [] }
  let t := ws.foldl (fun t w => match w.who with
    | .front k _ => frontFault t k .faultProt
    | .back k _ => pctxFault t k .faultProt
    | .take p => portDone t p.port p.tag .faultProt
    | .put _ _ _ o => ownerAnswer t o .faultProt
    | _ => t) t
  (x.engT ++ x.engP).foldl (fun t n => nodeWake t n 2 q .faultProt) t

/-- EN written from 0 to 1 (R195). -/
def queueEnable (s : State) (q v : Nat) : State :=
  let y := { s.queue q with cfg := BitVec.ofNat 64 (v &&& queueCfgMask) }
  if queueSetupOk s v then
    let t := tableWrite s .cheque q
    t.setQueue q { y with cfg := BitVec.ofNat 64 ((v &&& queueCfgMask) + 1), cheques := [], puts := 0 }
  else s.setQueue q { y with cfgErr := true }

/-- A write to word 0x00 of a cheque queue block (R193). -/
def queueCfgWrite (s : State) (q v : Nat) : State :=
  let x := s.queue q
  if x.en then (if bit v 0 then s else queueDisable s q)
  else if bit v 0 then queueEnable s q v
  else s.setQueue q { x with cfg := BitVec.ofNat 64 (v &&& queueCfgMask) }

/-- A write to word w of a cheque queue block but PUT (R193). -/
def queueWordWrite (s : State) (q w v : Nat) : State :=
  let x := s.queue q
  if w = 0 then queueCfgWrite s q v
  else if w = 0x18 then
    s.setQueue q { x with cfgErr := x.cfgErr && !bit v 0, putDrop := x.putDrop && !bit v 1,
                          putStale := x.putStale && !bit v 2 }
  else s

/-- A read of word w of a cheque queue block (Table 8.4); TWAIT and PWAIT show 255 at most (DESIGN CHOICE, log 74). -/
def queueWordRead (s : State) (q w : Nat) : Nat :=
  let x := s.queue q
  if w = 0 then x.cfg.toNat
  else if w = 8 then x.cheques.length + x.puts * 2 ^ 16
  else if w = 0x18 then
    let ts := (pctxWaiting s (fun p => match p with
      | .take q' _ _ => q' == q
      | _ => false)).length
    let ps := (pctxWaiting s (fun p => match p with
      | .put q' => q' == q
      | _ => false)).length
    b2n x.cfgErr + b2n x.putDrop * 2 + b2n x.putStale * 4 + min ts 255 * 2 ^ 8 + min ps 255 * 2 ^ 16
  else if w = 0x20 then bitWord x.engT + bitWord x.engP * 2 ^ 32
  else 0

/-- The overlap of R194: entries a to a + n − 1 meet another enabled pool's. -/
def gensMeet (s : State) (p a n : Nat) : Bool :=
  (List.range 256).any (fun q =>
    let y := s.pool q
    q != p && y.en && decide (a < y.gbase + y.count) && decide (y.gbase < a + n))

/-- Whether a pool passes the check of R194. -/
def poolSetupOk (s : State) (p : Nat) (x : Pool) : Bool :=
  decide (x.gbase + x.count ≤ 1048576) && !gensMeet s p x.gbase x.count && x.buf % 128 == 0 && decide (0 < x.buf) &&
  x.cva.toNat % 128 == 0 && decide (1 ≤ x.count) && (!x.seed || (s.queue x.freeq).en)

/-- SEED: the cheques (0, p, i) go into FREEQ in index order while it has room (R194). -/
def poolSeed (s : State) (p : Nat) (x : Pool) : State :=
  let q := s.queue x.freeq
  let n := min x.count (q.depth - q.cheques.length)
  let cs := (List.range n).map (fun i => (p * 2 ^ 20 + i, s.srcClerk))
  queueWake (s.setQueue x.freeq { q with cheques := q.cheques ++ cs, puts := (q.puts + n) % 2 ^ 32 }) x.freeq

/-- EN of a pool written from 0 to 1 (R194). -/
def poolEnable (s : State) (p v : Nat) : State :=
  let y := { s.pool p with cfg := BitVec.ofNat 64 (v % 2 ^ 19 / 2 * 2) }
  if poolSetupOk s p y then
    let t := s.setPool p { y with cfg := BitVec.ofNat 64 (v % 2 ^ 19 / 2 * 2 + 1) }
    let t := (List.range y.count).foldl (fun t i => tableWrite t .generation (y.gbase + i)) t
    let t := { t with float := { t.float with
      gens := t.float.gens.filter (fun g => decide (g.1 < y.gbase) || decide (y.gbase + y.count ≤ g.1)) } }
    if y.seed then poolSeed t p y else t
  else s.setPool p { y with cfgErr := true }

/-- A write to word 0x00 of a cheque pool block (R193). -/
def poolCfgWrite (s : State) (p v : Nat) : State :=
  let x := s.pool p
  if x.en then (if bit v 0 then s else s.setPool p { x with cfg := BitVec.ofNat 64 (putBits x.cfg.toNat 0 1 0) })
  else if bit v 0 then poolEnable s p v
  else s.setPool p { x with cfg := BitVec.ofNat 64 (v % 2 ^ 19 / 2 * 2) }

/-- A write to a pool's RECALL word (R198): an index of the pool advances its buffer's generation; one at or above COUNT
names no buffer and is ignored (DESIGN CHOICE, log 76). -/
def recallWrite (s : State) (p v : Nat) : State :=
  let x := s.pool p
  let i := v % 2 ^ 20
  if i < x.count ∧ x.gbase + i < 1048576 then s.setGen (x.gbase + i) (s.gen (x.gbase + i) + 1) else s

/-- A write to word w of a cheque pool block (R193). -/
def poolWordWrite (s : State) (p w v : Nat) : State :=
  let x := s.pool p
  if w = 0 then poolCfgWrite s p v
  else if w = 0x20 then recallWrite s p v
  else if w = 0x28 then s.setPool p { x with cfgErr := x.cfgErr && !bit v 0 }
  else if x.en then s
  else if w = 8 then s.setPool p { x with cva := BitVec.ofNat 64 (v % 2 ^ 48) }
  else if w = 0x10 then s.setPool p { x with size := BitVec.ofNat 64 (v % 2 ^ 53) }
  else if w = 0x18 then s.setPool p { x with gbase := v % 2 ^ 20 }
  else s

/-- A read of word w of a cheque pool block (Table 8.3). -/
def poolWordRead (s : State) (p w : Nat) : Nat :=
  let x := s.pool p
  if w = 0 then x.cfg.toNat
  else if w = 8 then x.cva.toNat
  else if w = 0x10 then x.size.toNat
  else if w = 0x18 then x.gbase
  else if w = 0x28 then b2n x.cfgErr + x.stale * 2 ^ 32
  else 0

/-! ## SLOT and CHEQUE control space (Table 3.2) -/

/-- An 8 B read at an offset of the space. -/
def slotSpaceRead (s : State) (o : Nat) : Status × Nat :=
  let w := o % 64
  if o % 8 ≠ 0 then (.faultAlign, 0)
  else if o < 0x40000 then (.ok, slotWordRead s (o / 64) w)
  else if o < 0x50000 then (.ok, queueWordRead s ((o - 0x40000) / 64) w)
  else if o < 0x54000 then (.ok, poolWordRead s ((o - 0x50000) / 64) w)
  else (.faultProt, 0)

/-- CHEQUE_POOL_ENABLE (R194). -/
def execChequePoolEnable (pool : Nat) (v : DWord) (s : State) : Res :=
  gate dFAB 7 0 (.chequePoolEnable pool v) s (fun s => if bit v.toNat 0 then poolCfgWrite s (pool % 256) v.toNat else s)

/-- RECALL (R198). -/
def execRecall (pool : Nat) (v : DWord) (s : State) : Res :=
  gate dFAB 7 0 (.recall pool v) s (fun s => recallWrite s (pool % 256) v.toNat)

/-- CHEQUE_QUEUE_ENABLE (R195). -/
def execChequeQueueEnable (q : Nat) (v : DWord) (s : State) : Res :=
  gate dFAB 7 0 (.chequeQueueEnable q v) s (fun s => if bit v.toNat 0 then queueCfgWrite s (q % 1024) v.toNat else s)

/-- CHEQUE_QUEUE_DISABLE (R195). -/
def execChequeQueueDisable (q : Nat) (v : DWord) (s : State) : Res :=
  gate dFAB 7 0 (.chequeQueueDisable q v) s (fun s => if bit v.toNat 0 then s else queueCfgWrite s (q % 1024) v.toNat)

/-- CHEQUE_WAIT_RETRY (R199): the first-ranked waiting put or take of a queue. -/
def execChequeWaitRetry (q : Nat) (isPut : Bool) (s : State) : Res :=
  gateIn dFAB s (fun s => if isPut then putDecide s (q % 1024) else takeDecide s (q % 1024) none)

end Sys2Proof.Machine
end

