-- ==== Sys2Proof/Machine/PortMem.lean ====
section
/-! DEFINITION. The data accesses of an engine port and its response beats (R383 to R385). -/

namespace Sys2Proof.Machine

/-- What the requests of a port carry. -/
def portRq (s : State) (q : PortReq) : Rq := { src := s.src q.port, ctx := ctxTag s q.ctx }

/-- The lowest error among statuses, OK where there is none (R385). -/
def worstOf (l : List Status) : Status :=
  l.foldl (fun a st => if stOk st then a else if stOk a || stCode st < stCode a then st else a) .ok

/-- The CVA of granule i of a request (R383). -/
def portAddr (q : PortReq) (i : Nat) : Nat := toCode ((q.addr : Int) + (i : Int) * q.stride * 128) 48

/-- The status of the context of a port request as it is accepted: bound and not unbinding (R66). -/
def portCtxSt (s : State) (c : Nat) : Status := if 40960 ≤ c ∨ !ctxLive s c then .faultXlate else .ok

/-- The translation of one granule of a port request: one that was accepted before its context's unbind goes on (R66). -/
def portXlate (s : State) (q : PortReq) (i : Nat) (acc : Acc) : Xl × State :=
  if 40960 ≤ q.ctx ∨ !(s.ctx q.ctx).bound then (.err .faultXlate, s)
  else translate s (s.src q.port) (q.port / 4) q.ctx (portAddr q i) 128 acc

/-- Whether a port reads or writes through the SLC: VXP and SCP do (R234). -/
def portSlc (port : Nat) : Bool := 2 ≤ port % 4

/-- An access that the SLC serves is one access of its request at the issue point, whatever the SLC does for it (log 75). -/
def slcNote (s t : State) (wr : Bool) (a n : Nat) : State := noteAccess { t with accesses := s.accesses } false wr a n

/-- One translated granule read through a port (R234 to R237, R245). -/
def portRead (s : State) (q : PortReq) (a : Nat) (nc : Bool) : State × Status × List Byte :=
  if portSlc q.port && slcCaches s a then
    match if q.vol || nc then slcVolatile s (portRq s q) a 128 else slcLoad s (portRq s q) q.port a 128 with
    | (t, r) => (slcNote s t false a 128, r)
  else memRead s (portRq s q) a 128

/-- One translated granule written through a port, and whether the write passed the SLC. -/
def portWrite (s : State) (q : PortReq) (a : Nat) (nc : Bool) (data : List WByte) : State × Status :=
  if portSlc q.port && slcCaches s a then
    match if q.vol || nc then slcBypassStore s (portRq s q) a data else slcStore s (portRq s q) q.port a data with
    | (t, st) => (slcNote s t true a 128, st)
  else passWrite s (portRq s q) a data

/-- The granules of a read, in request order: after the first that faults in translation none issues (R58, R385). -/
def portReadAll (q : PortReq) : List Nat → Option Status → State → State × List (Status × List Byte)
  | [], _, s => (s, [])
  | _ :: l, some st, s => match portReadAll q l (some st) s with
    | (t, r) => (t, (st, List.replicate 128 0#8) :: r)
  | i :: l, none, s => match portXlate s q i .read with
    | (.err st, t) => (match portReadAll q l (some st) t with
      | (u, r) => (u, (st, List.replicate 128 0#8) :: r))
    | (.ok a nc, t) => (match portRead t q a nc with
      | (u, st, data) => (match portReadAll q l none u with
        | (v, r) => (v, (st, if stOk st then data else List.replicate 128 0#8) :: r)))

/-- The granules per beat of a port: MRP 4, VXP 2; SCP takes two beats per granule (R383). -/
def beatGranules (port : Nat) : Nat := if port % 4 = 0 then 4 else if port % 4 = 2 then 2 else 1

/-- The DATA beats of a read (R385). -/
def portBeats (port tag : Nat) : Nat → List (Status × List Byte) → State → State
  | 0, _, s => s
  | n + 1, rs, s =>
    let G := beatGranules port
    let now := rs.take G
    let st := worstOf (now.map (·.1))
    let data := now.flatMap (·.2)
    let gv := 2 ^ now.length - 1
    let last := rs.length ≤ G
    if now.isEmpty then s
    else
      let s := if port % 4 = 3 then s.emit (.beat port tag 0 st gv false (data.take 64)) else s
      let data := if port % 4 = 3 then data.drop 64 else data
      if last then portEnd s port tag 0 st gv data
      else portBeats port tag n (rs.drop G) (s.emit (.beat port tag 0 st gv false data))

/-- A read performed and answered (R385); a load-acquire is satisfied with its last beat (R243). -/
def portReadDo (s : State) (q : PortReq) (acq : Bool) : State :=
  match portReadAll q (List.range (q.cnt + 1)) none s with
  | (t, rs) =>
    let u := portBeats q.port q.tag 17 rs t
    if acq then acquire u q.port q.scope else u

/-- The granules of a write, in request order, with the addresses written past the SLC. -/
def portWriteAll (q : PortReq) : List Nat → List WByte → State → State × List Status × List Nat
  | [], _, s => (s, [], [])
  | i :: l, d, s => match portXlate s q i .write with
    | (.err st, t) => (t, [st], [])
    | (.ok a nc, t) => (match portWrite t q a nc (d.take 128) with
      | (u, st) => (match portWriteAll q l (d.drop 128) u with
        | (v, sts, as) => (v, st :: sts, (if stOk st ∧ !(portSlc q.port && slcCaches t a && !(q.vol || nc)) then [a]
            else []) ++ as)))

/-- A write performed and answered with one DONE (R385). -/
def portWriteDo (s : State) (q : PortReq) (data : List WByte) : State :=
  match portWriteAll q (List.range (q.cnt + 1)) data s with
  | (t, sts, as) => portDone (runRecs t (portRq s q) as) q.port q.tag (worstOf sts)

/-- Whether a PPA names a bank through space code 0x0 to 0x6, on any die. -/
def bankTarget (a : Nat) : Bool := !ppaFar a && ppaSpace a ≤ 6

/-- An ATOMIC performed and answered (Table 16.3): at the bank through the alias of x.req_aop, or in the SLC. -/
def portAtomicDo (s : State) (q : PortReq) (data : List WByte) : State :=
  match portXlate s q 0 .atomic with
  | (.err st, t) => portDone t q.port q.tag st
  | (.ok a _, t) =>
    if bankTarget a then
      match passWrite t (portRq s q) (diePPA (ppaDie a) (q.aop + 1) (ppaOff a)) (data.take 128) with
      | (u, st) => portDone (if stOk st then runRecs u (portRq s q) [a] else u) q.port q.tag st
    else
      match slcAtomic t (portRq s q) q.port a (q.aop + 1) (data.take 128) with
      | (u, st) => portDone (slcNote t u true a 128) q.port q.tag st

/-! ## The issue queue (R78, R116, R232, R386, R406) -/

/-- The order number of the next request that a node's ports accept. -/
def nextOrder (s : State) (n : Nat) : Nat :=
  1 + (List.range 4).foldl (fun m i => max m (s.port (4 * n + i)).count) 0

/-- How a request of an operation accesses memory. -/
def opAcc (op : Nat) : Acc := if op = 0 ∨ op = 2 then .read else if op = 4 then .atomic else .write

/-- The granules that a request touches, a bank through any of its views, as they translate now. -/
def portGranules (s : State) (q : PortReq) (op : Nat) : List Nat :=
  (List.range (q.cnt + 1)).filterMap (fun i => match (portXlate s q i (opAcc op)).1 with
    | .ok a _ => some ((if bankTarget a then diePPA (ppaDie a) 0 (ppaOff a) else a) / 128)
    | .err _ => none)

/-- The requests of a node's ports, accepted before an order number, that have not issued: those that wait for beats or in an
issue queue, and store-releases that wait. -/
def earlierOf (s : State) (n before : Nat) : List (PortReq × Nat) :=
  ((List.range 4).flatMap (fun i =>
    let p := s.port (4 * n + i)
    (p.writes.filter (fun w => !w.refused && decide (w.order < before))).map (fun w => (w.q, if w.atomic then 4 else 1)) ++
    (p.queue.filter (fun w => decide (w.order < before))).map (fun w => (w.q, w.op)))) ++
  s.sync.releases.filterMap (fun r => match r.2.effect with
    | .portWrite q order _ => if q.port / 4 = n ∧ order < before then some (q, 1) else none
    | _ => none)

/-- Whether a wait or barrier that a node's port accepted before an order number for a context is an acquire not yet
satisfied (R240, R262). -/
def acquireWaits (s : State) (n ctx before : Nat) : Bool :=
  (List.range 4).any (fun i => (s.port (4 * n + i)).acquires.any (fun a => a.2.1 == ctx && decide (a.2.2 < before)))

/-- Whether a request waits behind earlier ones: it touches a granule that one of its node's touches (R232), or an earlier
acquire of its context is not satisfied (R240): a load-acquire, a wait or a barrier. -/
def portBehind (s : State) (w : PIssue) : Bool :=
  let early := earlierOf s (w.q.port / 4) w.order
  if acquireWaits s (w.q.port / 4) w.q.ctx w.order then true
  else if early.isEmpty then false
  else
    let own := portGranules s w.q w.op
    early.any (fun e => (e.2 == 2 && e.1.ctx == w.q.ctx) || (portGranules s e.1 e.2).any (fun a => decide (a ∈ own)))

/-- Whether a request needs a ledger walk while its node has 8 in flight (R78). -/
def portWalks (s : State) (w : PIssue) : Bool :=
  let n := w.q.port / 4
  decide (8 ≤ walksNow s n) && (List.range (w.q.cnt + 1)).any (fun i =>
    decide (walksNow s n < walksNow (portXlate s w.q i (opAcc w.op)).2 n))

/-- Whether a request would use the SLC while it drains (R406). -/
def portDrains (s : State) (w : PIssue) : Bool :=
  s.slc.draining && portSlc w.q.port && (List.range (w.q.cnt + 1)).any (fun i => match (portXlate s w.q i (opAcc w.op)).1 with
    | .ok a _ => slcCaches s a
    | .err _ => false)

/-- What a request does once its segments issue. -/
def portDo (s : State) (w : PIssue) : State :=
  if w.op = 0 then portReadDo s w.q false
  else if w.op = 2 then portReadDo s w.q true
  else if w.op = 4 then portAtomicDo s w.q w.data
  else portWriteDo s w.q w.data

/-- A request waits in its port's issue queue, in the order of acceptance. -/
def portQueue (s : State) (w : PIssue) : State :=
  let p := s.port w.q.port
  let same (v : PIssue) : Bool := v.order == w.order
  let l := if p.queue.any same then p.queue.map (fun v => if same v then w else v) else p.queue ++ [w]
  s.setPort w.q.port { p with queue := l }

/-- A request leaves its port's issue queue. -/
def portDequeue (s : State) (w : PIssue) : State :=
  let p := s.port w.q.port
  s.setPort w.q.port { p with queue := p.queue.filter (fun v => v.order != w.order) }

/-- An accepted request issues and is performed, or waits in the issue queue (R386). -/
def portAccess (s : State) (w : PIssue) : State :=
  if portDrains s w || portWalks s w || portBehind s w then portQueue s w
  else
    match issueRun s (.port w.q.port w.q.tag) (portRq s w.q) w.issued (fun t => portDo t w) with
    | (t, n, false) => portQueue t { w with issued := n }
    | (t, _, true) => portDo (portDequeue t w) w

/-- The issue queues are tried again, each port's in the order of acceptance. -/
def portsRetry (s : State) : State :=
  s.ports.foldl (fun t p => p.2.queue.foldl portAccess t) s

end Sys2Proof.Machine
end

