-- ==== Sys2Proof/Machine/Release.lean ====
section
/-! DEFINITION. Releases (R239, Table 10.3): the effect that follows the waits. -/

namespace Sys2Proof.Machine

/-- A flag operation on another die travels on its lane (R267). -/
def remoteFlag (s : State) (die p : Nat) (set : Bool) (src lane : Nat) (ctx : Option (Nat × Nat)) : Status × State :=
  if die = s.pwr.dieId then (flagSt s p, flagOp s p set src ctx)
  else if ¬ die ∈ s.build.dies then (.faultProt, s)
  else
    let port := routePort s die
    if portQuar s port then (.quarantined, s)
    else (.ok, controlOut s src ctx lane (pullIn s lane (shortStamp s.now 0)) (diePPA die 0xA (8 * p)) (b2n set))

/-- The effect of a release, and its answer. -/
def releaseEffect (s : State) (x : Release) : State :=
  match x.effect with
  | .flag p set => ownerAnswer (flagOp s p set x.src x.ctx) x.owner (flagSt s p)
  | .farFlag die p set lane => (match remoteFlag s die p set x.src lane x.ctx with
    | (st, t) => ownerAnswer t x.owner st)
  | .slotFull r i => ownerAnswer (slotFull s r i x.src) x.owner .ok
  | .cheque q c dom due => putArrive s q c (some dom) x.src x.ctx x.owner due
  | .put q v => putPerform s q v x.src
  | .portWrite q order data => portAccess s { q := q, op := 1, order := order, data := data, issued := 0 }
  | .nothing => ownerAnswer s x.owner .ok

/-- A release is made: performed at once when its waits are done, else it waits for them (R239). -/
def releaseMake (s : State) (x : Release) : State :=
  if mayRelease s s.sync.nextKey x then releaseEffect (releaseClean s x.src x.scope) x
  else
    let key := s.sync.nextKey
    let t := { s with sync := { s.sync with releases := tput s.sync.releases key x, nextKey := key + 1 } }
    match x.owner with
    | .pctx k => (match t.pctx k with
      | some y => t.setPctx k (y.waits t.now (.release key))
      | none => t)
    | _ => t

/-- A waiting release is performed once its waits are done. -/
def releasePerform (s : State) (key : Nat) : State :=
  match tfind s.sync.releases key with
  | none => s
  | some x =>
    if mayRelease s key x then
      releaseEffect (releaseClean { s with sync := { s.sync with releases := terase s.sync.releases key } } x.src x.scope) x
    else s

/-- RELEASE_PERFORM (R239). -/
def execReleasePerform (key : Nat) (s : State) : Res := gateIn dFAB s (fun s => releasePerform s key)

/-! ## PUT, and SLOT and CHEQUE control space (R57, R183, R193, R196) -/

/-- A write to a queue's PUT word, and its answer (R196, R199): a release of the writer's earlier writes at the queue's
SCOPE. -/
def putWrite (s : State) (q v src : Nat) : Status × State :=
  if (s.queue q).denied none then (.faultProt, s)
  else (.ok, releaseMake s { src := src, ctx := none, scope := (s.queue q).scope, effect := .put q v, owner := .source })

/-- An 8 B write at an offset of the space, and its answer. -/
def slotSpaceWrite (s : State) (o v src : Nat) : Status × State :=
  let w := o % 64
  if o % 8 ≠ 0 then (.faultAlign, s)
  else if o < 0x40000 then (.ok, slotWordWrite s (o / 64) w v)
  else if o < 0x50000 then
    (if w = 0x10 then putWrite s ((o - 0x40000) / 64) v src else (.ok, queueWordWrite s ((o - 0x40000) / 64) w v))
  else if o < 0x54000 then (.ok, poolWordWrite s ((o - 0x50000) / 64) w v)
  else (.faultProt, s)

/-- SLOT_CHEQUE_CONTROL_WRITE (R183, R193). -/
def execSlotChequeControlWrite (off : Nat) (v : DWord) (src : Nat) (s : State) : Res :=
  gate dFAB 7 src (.slotChequeControlWrite off v src) s (fun s => match slotSpaceWrite s off v.toNat src with
    | (st, t) => t.emit (.reply st 0#64))

/-- PUT (R196). -/
def execPut (q : Nat) (v : DWord) (src : Nat) (s : State) : Res :=
  gate dFAB 7 src (.put q v src) s (fun s => match putWrite s (q % 1024) v.toNat src with
    | (st, t) => t.emit (.reply st 0#64))

end Sys2Proof.Machine
end

