-- ==== Sys2Proof/Machine/Rings.lean ====
section
/-! DEFINITION. Command, completion and event rings (R128 to R154), the program store (R155), the choice and the end of
commands, budget lending's assertion (R265). -/

namespace Sys2Proof.Machine

/-! ## Command rings -/

/-- A command ring at reset. -/
def cmdIdle : Ring := { state := .disabled, err := 0, fetched := [], batches := [] }

/-- A command ring's run state. -/
def State.ring (s : State) (r : Nat) : Ring := tget cmdIdle s.work.rings r

/-- The state with a command ring's run state replaced. -/
def State.setRing (s : State) (r : Nat) (x : Ring) : State :=
  { s with work := { s.work with rings := tset cmdIdle s.work.rings r x } }

/-- CMDR_CTL.EN. -/
def cmdEn (s : State) (r : Nat) : Bool := s.rgBit (Reg.cmdrCtl r) 0

/-- The entries of a command ring, 2^n. -/
def cmdSize (s : State) (r : Nat) : Nat := 2 ^ s.rgField (Reg.cmdrCfg r) 0 5

/-- The mover of a command ring (R131). -/
def cmdMover (s : State) (r : Nat) : Nat := s.rgField (Reg.cmdrCfg r) 8 5

/-- How many commands of a ring may run at once (R131). -/
def cmdDepth (s : State) (r : Nat) : Nat := s.rgField (Reg.cmdrCfg r) 16 3 + 1

/-- The running commands of a ring: a command that waits only for its record's place runs no longer (R148). -/
def cmdRunning (s : State) (r : Nat) : List (Nat × PCtx) :=
  s.work.pctxs.filter (fun e => e.2.ring == r && !e.2.record)

/-- CMDR_STATUS.BUSY (Table 6.10). -/
def cmdBusy (s : State) (r : Nat) : Bool := !(s.ring r).fetched.isEmpty || !(cmdRunning s r).isEmpty

/-- Whether a ring may start commands: enabled and not stopped. A ring in ERROR runs the commands of its earlier
batches to completion (R136, R145). -/
def cmdGoes (s : State) (r : Nat) : Bool :=
  cmdEn s r && ((s.ring r).state == .running || ((s.ring r).state == .error && !s.rgBit (Reg.cmdrCtl r) 1))

/-- A ring enters ERROR with a RING_ERROR event (R133, R136, Table 6.6); one that is in it keeps its first code. -/
def cmdError (s : State) (r code addr : Nat) : State :=
  let x := s.ring r
  let y : Ring := if x.state = .error then x else { x with state := .error, err := code }
  event (s.setRing r y) s.srcClerk none 0x01 1 (r + code * 2 ^ 16) addr

/-- Whether EN of a ring is written to 0 in this tc behind what is done now (R133): the commands that wait act in the tc of
the one in front of them (log 5). -/
def disableWaits (s : State) (r : Nat) : Bool :=
  s.pending.any (fun i => match i with
    | .cmdrDisable r' v => r' % 1024 == r && !bit v.toNat 0
    | .registerWrite off v _ => off == Reg.cmdrCtl r && !bit v.toNat 0
    | _ => false)

/-- A doorbell's TAIL (R133). -/
def doorbellRing (s : State) (r T : Nat) : State :=
  let head := s.rg (Reg.cmdrHead r)
  let d := (T + 2 ^ 32 - head) % 2 ^ 32
  if !cmdEn s r || disableWaits s r then s.setRgBit (Reg.cmdrStatus r) 9 true
  else if cmdSize s r < d then (if (s.ring r).state = .error then s else cmdError s r 1 0)
  else if d < (s.rg (Reg.cmdrTail r) + 2 ^ 32 - head) % 2 ^ 32 then s.setRgBit (Reg.cmdrStatus r) 9 true
  else s.setRg (Reg.cmdrTail r) T

/-- A write of a width at an offset of page r of DOORBELL space, and its answer (R132). -/
def doorbellWrite (s : State) (r off width v : Nat) : Status × State :=
  if off ≠ 0 then (.faultProt, s)
  else if width ≠ 8 then (.faultAlign, s)
  else (.ok, doorbellRing s r (v % 2 ^ 32))

/-- DOORBELL (R132, R133). -/
def execDoorbell (r off width : Nat) (v : DWord) (s : State) : Res :=
  gate dFAB 7 0 (.doorbell r off width v) s (fun s => match doorbellWrite s (r % 1024) off width v.toNat with
    | (st, t) => t.emit (.reply st 0#64))

/-! ## Batches (R135, R136) -/

/-- Descriptors of a ring in flight. -/
def inFlight (x : Ring) : Nat := (x.batches.map (·.2)).foldl (· + ·) 0

/-- Whether the command unit may begin a fetch of a ring (R135). -/
def fetchOk (s : State) (r : Nat) : Bool :=
  cmdEn s r && (s.ring r).state == .running && decide ((s.ring r).batches.length < 2) &&
  decide (((s.work.rings.map (fun e => e.2.batches.length)).foldl (· + ·) 0) < 16)

/-- A fetch begins (R135). -/
def batchFetch (s : State) (r : Nat) : State :=
  let x := s.ring r
  let at_ := (s.rg (Reg.cmdrHead r) + inFlight x) % 2 ^ 32
  let n := min ((s.rg (Reg.cmdrTail r) + 2 ^ 32 - at_) % 2 ^ 32) (32 - at_ % 32)
  if fetchOk s r ∧ 0 < n then s.setRing r { x with batches := x.batches ++ [(at_, n)] } else s

/-- BATCH_FETCH (R135); a tc that the governor withholds puts it off (R350). -/
def execBatchFetch (r : Nat) (s : State) : Res :=
  gateIn dFAB s (fun s =>
    if withheldNow s then edgeWait s dFAB (some (nextTc s)) (.batchFetch r) else batchFetch s (r % 1024))

/-- What the command unit's requests carry (R112, R129, R415). -/
def cmdRq (s : State) : Rq := { src := s.srcClerk, ctx := none, cls := some (cmduClass s) }

/-- Reads n bytes for the command unit from an address aligned to 64 B, granule by granule, with the first error and
its address (R129, R136). -/
def unitRead (s : State) (host : Bool) : Nat → Nat → Nat → State × Option (Status × Nat) × List Byte
  | 0, _, _ => (s, none, [])
  | f + 1, a, n =>
    if n = 0 then (s, none, [])
    else
      let k := min n (128 - a % 128)
      match (if host then hostRead s (cmdRq s) a k
             else match checkPPA s a k .read false with
               | .ok => memRead s (cmdRq s) a k
               | st => (s, st, [])) with
      | (t, .ok, bytes) => (match unitRead t host f (a + k) (n - k) with
        | (u, e, rest) => (u, e, bytes ++ rest))
      | (t, st, _) => (t, some (st, a), [])

/-- The descriptors of a batch's bytes. -/
def parseDescs : Nat → Nat → List Byte → List Cmd
  | 0, _, _ => []
  | n + 1, seq, l =>
    { seq := seq % 2 ^ 32, desc := (List.range 8).map (fun i => BitVec.ofNat 64 (ofBytes ((l.drop (8 * i)).take 8))),
      notBefore := false, wflag := none, polled := 0 } :: parseDescs n (seq + 1) (l.drop 64)

/-! ## Completions (R146 to R149) -/

/-- Where a completion record lies, as an argument of records and events (Table 2.2). -/
def ringSeq (r seq op : Nat) : Nat := r + seq % 2 ^ 32 * 2 ^ 16 + op * 2 ^ 56

/-- The record is discarded: its ring is disabled (R149). -/
def cringLost (s : State) (c r seq op : Nat) : State :=
  event (s.countRg (Reg.cringLost c) 1) s.srcClerk none 0x02 1 c (ringSeq r seq op)

/-- Places a completion record, with the CRING_FULL event where the ring becomes full (R147, R148). -/
def cringPut (s : State) (c : Nat) (w : CWait) : State :=
  let t := ringPlace s false c 16 w.irq (fun gen =>
    dwBytes [w.stamp, w.seq % 2 ^ 32 + stCode w.status * 2 ^ 32 + w.cmdr * 2 ^ 40 + gen * 2 ^ 63])
  if ringFull t false c then event t t.srcClerk none 0x03 1 c 0 else t

/-- The completion record of a command: discarded, placed, or it waits behind a full ring (R146, R148, R149). The
answer says whether it waits. -/
def cringRecord (s : State) (w : CWait) : Bool × State :=
  let c := w.ring
  if !ringEn s false c then (false, cringLost s c w.cmdr w.seq w.op)
  else if ringFull s false c || s.work.cwait.any (fun x => x.ring == c) then
    (true, { s with work := { s.work with cwait := s.work.cwait ++ [w] } })
  else (false, cringPut s c w)

/-- A disabled ring whose last running command completed (R145). -/
def cmdSettle (s : State) (r : Nat) : State :=
  if !cmdEn s r && (cmdRunning s r).isEmpty && (s.ring r).fetched.isEmpty then
    s.setRing r { s.ring r with state := .disabled }
  else s

/-- The end of a program context: it is free, and holders it named stay counted in their rings (R190). -/
def pctxFree (s : State) (k : Nat) : State :=
  let t := s.dropPctx k
  unstand { t with float := { t.float with slots := t.float.slots.map (fun e =>
      (e.1, { e.2 with holders := e.2.holders.filter (fun h => h.1 != holdPctx k) })) } } (fun w => w.pctx == some k)

/-- The completion of a command with a status: record, CMD_END, the counts, LATE_CNT of its class (R127, R146). -/
def completeRec (s : State) (r : Nat) (c : Cmd) (st : Status) (owner : Option Nat) : Bool × State :=
  let op := dOp c.desc
  let u := 128 + cmdMover s r
  let w : CWait := { ring := dCring c.desc, stamp := s.now, seq := c.seq, status := st, cmdr := r, op := op,
                     irq := dIrq c.desc, owner := owner }
  let (waits, t) := if dQuiet c.desc && stOk st then (false, s) else cringRecord s w
  let t := ledgerRec t u 0x02 (dTag c.desc) (ringSeq r c.seq op) (stCode st)
  let t := countEvent (t.setRg (Reg.cmdrDone r) ((t.rg (Reg.cmdrDone r) + 1) % 2 ^ 32)) 0x13 r 1
  let t := if st = .okLate then classCount t (dClass c.desc) 8 1 else t
  (waits, t)

/-- A command that has not started completes with ABORTED (R66, R145). -/
def cmdAbort (s : State) (r : Nat) (c : Cmd) : State := (completeRec s r c .aborted none).2

/-- The status of a completing command (R41, R144, R157). -/
def endStatus (s : State) (x : PCtx) : Status :=
  match x.status with
  | some st => st
  | none => if dDeadline x.desc ≠ 0 ∧ dDeadline x.desc < s.now then .okLate else .ok

/-- The status of a free choice (R157). -/
def statusOf (n : Nat) : Status :=
  nth .ok [.ok, .okLate, .faultXlate, .faultProt, .faultAlign, .eccUncorr, .frameWithdrawn, .aborted, .chainGap,
           .barrierOverrun, .chequeStale, .quarantined] (n % 12)

/-- Whether a program context ran a program that was rewritten meanwhile (R157). -/
def pctxTainted (x : PCtx) : Bool := match x.stream with
  | some m => m.tainted
  | none => false

/-- A command completes (R146): SFLAG, the record, CMD_END. -/
def cmdComplete (s : State) (k : Nat) (x : PCtx) : State :=
  let st := if pctxTainted x then statusOf (Config.anyStatus s.freeCtr) else endStatus s x
  let s := if pctxTainted x then { s with freeCtr := s.freeCtr + 1 } else s
  let s := releaseClean s (pctxSrc s k) (dScope x.desc)
  let s := if dOp x.desc = 0x0A ∧ stOk st then
      ledgerRec s (128 + k / 8) 0x04 (dTag x.desc) (ringSeq x.ring x.seq 0x0A) (dScope x.desc) else s
  let s := match x.sflag with
    | some p => if stOk st then flagOp s p true (pctxSrc s k) (dTag x.desc) else s
    | none => s
  match completeRec s x.ring { seq := x.seq, desc := x.desc, notBefore := true, wflag := none, polled := 0 } st (some k) with
  | (waits, t) =>
    let t := if waits then t.setPctx k { x with record := true, done := true } else pctxFree t k
    cmdSettle (lendMark t (k / 8)) x.ring

/-- Whether the writes of a command have reached the point that covers its SCOPE (R146). -/
def pctxSettled (s : State) (k : Nat) (x : PCtx) : Bool := x.done && !x.record && releaseReady s (pctxSrc s k) (dScope x.desc)

/-- COMMAND_COMPLETE (R146). -/
def execCommandComplete (r seq : Nat) (s : State) : Res :=
  gateIn dFAB s (fun s =>
    match s.work.pctxs.find? (fun e => e.2.ring == r && e.2.seq == seq && pctxSettled s e.1 e.2) with
    | none => s
    | some e => cmdComplete s e.1 e.2)

/-- The oldest record that waits for a completion ring is placed, or discarded with a disabled ring (R148, R149). -/
def cringPlaceOne (s : State) (c : Nat) : State :=
  match s.work.cwait.find? (fun w => w.ring == c) with
  | none => s
  | some w =>
    if ringEn s false c && ringFull s false c then s
    else
      let t := { s with work := { s.work with cwait := s.work.cwait.erase w } }
      let t := match w.owner with
        | some k => pctxFree t k
        | none => t
      if ringEn t false c then cringPut t c w else cringLost t c w.cmdr w.seq w.op

/-- CRING_RECORD_PLACE (R148). -/
def execCringRecordPlace (c : Nat) (s : State) : Res := gateIn dFAB s (fun s => cringPlaceOne s (c % 1024))

/-! ## The head of a ring (R141, R143) -/

/-- The physical WFLAG that a head command waits on, when it is usable (R138, R143). -/
def wflagOf (s : State) (d : Desc) : Option Nat :=
  if !dWv d then none
  else if !dCtxV d || dOp d == 0x0C then some (dWflag d)
  else if dCtx d < 40960 ∧ (s.ctx (dCtx d)).bound then flagOfIndex s (dCtx d) (dWflag d)
  else none

/-- Whether the waits of a command's context spin (R264). -/
def dSpin (s : State) (d : Desc) : Bool := dCtxV d && (s.ctx (dCtx d)).spin

/-- The head's WFLAG wait (R141): held, or registered at the flag store (R261); under SPIN it registers nothing and polls,
once every 8 tc (R264). -/
def headWait (s : State) (r : Nat) (c : Cmd) (l : List Cmd) : State :=
  let put (t : State) (w : Option Bool) : State :=
    t.setRing r { t.ring r with fetched := { c with notBefore := true, wflag := w, polled := s.clk.tc } :: l }
  let spin := dSpin s c.desc
  match c.wflag, wflagOf s c.desc with
  | some true, _ => s
  | _, none => put s (some true)
  | w, some p =>
    let mode := if dWclr c.desc then 2 else 0
    let src := s.src (128 + cmdMover s r)
    if w.isSome ∧ (!spin ∨ s.clk.tc < c.polled + 8) then s
    else if flagSt s p ≠ .ok then put s (some true)
    else if waitHolds s p mode then put (waitNow s p mode src (dTag c.desc)) (some true)
    else if spin then put s (some false)
    else waitAdd (put s (some false)) { flag := p, mode := mode, who := .ring r, acq := false, scope := 0,
                                        dl := shortStamp s.now (dDeadline c.desc), src := src, ctx := dTag c.desc, order := 0,
                                        overdue := false }

/-- The oldest command of a ring that has not started passes its not-before time and waits on its WFLAG (R141). -/
def headCheck (s : State) (r : Nat) : State :=
  match (s.ring r).fetched with
  | [] => s
  | c :: l =>
    if cmdGoes s r && decide (dNotBefore c.desc ≤ s.now) then
      lendOff (headWait s r c l) (cmdMover s r)
    else s

/-- The oldest unstarted command of each ring of a mover is looked at: the mover selects among all of them (R141, R142). -/
def headChecks (s : State) (m : Nat) : State :=
  s.work.rings.foldl (fun t e => if cmdMover s e.1 == m then headCheck t e.1 else t) s

/-- NOT_BEFORE_REACHED (R42, R141). -/
def execNotBeforeReached (r : Nat) (s : State) : Res := gateIn dFAB s (fun s => headCheck s (r % 1024))

/-- Whether an opcode gates the commands behind it (R141). -/
def gating (op : Nat) : Bool := op == 0x09 || op == 0x0B || op == 0x0A

/-- Whether the head of a ring is ready (R141, R270). -/
def cmdReady (s : State) (r : Nat) : Bool :=
  match (s.ring r).fetched with
  | [] => false
  | c :: _ =>
    cmdGoes s r && c.notBefore && c.wflag == some true &&
    decide ((cmdRunning s r).length < cmdDepth s r) && (cmdRunning s r).all (fun e => !gating (dOp e.2.desc)) &&
    (!(dOp c.desc == 0x0A || dOp c.desc == 0x0B) || (cmdRunning s r).isEmpty)

/-- The remaining time of a ring's head. -/
def headRemaining (s : State) (r : Nat) : Int :=
  match (s.ring r).fetched with
  | c :: _ => dRemaining s.now c.desc
  | [] => 0

/-- Whether a ring's head is the one its mover starts: least remaining time, then lower ring number (R142). -/
def cmdFirst (s : State) (r : Nat) : Bool :=
  s.work.rings.all (fun e => !(cmdMover s e.1 == cmdMover s r && cmdReady s e.1) ||
    decide (headRemaining s r < headRemaining s e.1) ||
    (headRemaining s r == headRemaining s e.1 && decide (r ≤ e.1)))

/-- A free program context of a mover (R131). -/
def freePctx (s : State) (m : Nat) : Option Nat :=
  ((List.range 8).map (fun p => 8 * m + p)).find? (fun k => (s.pctx k).isNone)

/-- A program context right after its command's start. -/
def pctxStart (r now watch : Nat) (c : Cmd) : PCtx :=
  { ring := r, seq := c.seq, desc := c.desc, start := now, status := none, sflag := none, done := false,
    record := false, wait := none, spin := false, stream := none, relay := none, wdStage := 0, wdFrom := watch,
    errTc := 0, issued := 0, polled := 0, since := now, unbindOf := none }

/-- The head of ring r starts when its descriptor passes a test and its mover selects it (R141, R142): the program
context, and the state with CMD_START written. -/
def cmdStart (s : State) (r : Nat) (p : Desc → Bool) : Option (Nat × PCtx × State) :=
  let s := headChecks s (cmdMover s r)
  match (s.ring r).fetched, freePctx s (cmdMover s r) with
  | c :: l, some k =>
    if p c.desc ∧ cmdReady s r ∧ cmdFirst s r then
      let x := pctxStart r s.now s.ras.watch c
      let t := s.setRing r { s.ring r with fetched := l }
      let t := ledgerRec t (128 + k / 8) 0x01 (dTag c.desc) (ringSeq r c.seq (dOp c.desc)) (dNotBefore c.desc)
      some (k, x, (headCheck (t.setPctx k x) r))
    else none
  | _, _ => none

/-! ## Fetched descriptors (R66, R135) -/

/-- Whether a descriptor is one of a context's commands, which its unbind ends; CTX_BIND and CTX_UNBIND name the context
and answer for themselves (R66). -/
def dOfCtx (d : Desc) (c : Nat) : Bool := dCtxV d && dCtx d == c && dOp d != 0x0C && dOp d != 0x0D

/-- Descriptors enter a ring's queue; those of a context whose unbind runs complete with ABORTED (R66). -/
def cmdEnter (s : State) (r : Nat) (c : Cmd) : State :=
  if dOfCtx c.desc (dCtx c.desc) ∧ (s.ctx (dCtx c.desc)).unbinding then cmdAbort s r c
  else s.setRing r { s.ring r with fetched := (s.ring r).fetched ++ [c] }

/-- The batches in flight of a ring that none will use: they stand in flight until they arrive, and name no descriptor
(R136, R145). -/
def batchesDoomed (l : List (Nat × Nat)) : List (Nat × Nat) := l.map (fun b => (b.1, 0))

/-- A batch arrives (R135, R136): one that the ring's failure or disable dooms is discarded. -/
def batchArrive (s : State) (r : Nat) (path : Status) : State :=
  match (s.ring r).batches with
  | [] => s
  | (_, 0) :: l => s.setRing r { s.ring r with batches := l }
  | (at_, n) :: l =>
    let host := s.rgBit (Reg.cmdrCfg r) 31
    let a := s.rg64 (Reg.cmdrBaseLo r) (Reg.cmdrBaseHi r) + at_ % cmdSize s r * 64
    let fail (t : State) (st : Status) (addr : Nat) : State :=
      cmdError (t.setRing r { t.ring r with batches := batchesDoomed l }) r (if st = .eccUncorr then 3 else 2) addr
    if !stOk path then fail s path a
    else match unitRead s host 18 a (64 * n) with
      | (t, some (st, addr), _) => fail t st addr
      | (t, none, bytes) =>
        let t := t.setRing r { t.ring r with batches := l }
        let t := t.setRg (Reg.cmdrHead r) ((at_ + n) % 2 ^ 32)
        headCheck ((parseDescs n at_ bytes).foldl (fun t c => cmdEnter t r c) t) r

/-- BATCH_ARRIVE (R135, R136). -/
def execBatchArrive (r : Nat) (pathStatus : Status) (s : State) : Res :=
  gateIn dFAB s (fun s => batchArrive s (r % 1024) pathStatus)

/-- The flag-store entry of a ring's head is freed (R261). -/
def freeRingWait (s : State) (r : Nat) : State :=
  { s with sync := { s.sync with waiters := s.sync.waiters.filter (fun w => w.who != .ring r) } }

/-- The commands of a context that have not started complete with ABORTED, whatever their place (R66). -/
def abortCtx (s : State) (ctx : Nat) : State :=
  let mine (c : Cmd) : Bool := dOfCtx c.desc ctx
  s.work.rings.foldl (fun t e =>
    let x := t.ring e.1
    let out := x.fetched.filter mine
    if out.isEmpty then t
    else
      let t := if (x.fetched.take 1).any mine then freeRingWait t e.1 else t
      let t := t.setRing e.1 { x with fetched := x.fetched.filter (fun c => !mine c) }
      headCheck (out.foldl (fun t c => cmdAbort t e.1 c) t) e.1) s

/-! ## CMDR_CTL and CMDR_CFG (R128, R131, R145) -/

/-- Whether a base lies where a ring's may: own BANK or STACK space or host memory, aligned (R128). -/
def ringBaseOk (s : State) (host : Bool) (base align : Nat) : Bool :=
  base % align == 0 && (host || ownBankOrStack s base)

/-- EN of a command ring written from 0 to 1 (R128, R145). -/
def cmdEnable (s : State) (r : Nat) (stop : Bool) : State :=
  let base := s.rg64 (Reg.cmdrBaseLo r) (Reg.cmdrBaseHi r)
  let n := s.rgField (Reg.cmdrCfg r) 0 5
  if cmdBusy s r || !(5 ≤ n && n ≤ 16 && ringBaseOk s (s.rgBit (Reg.cmdrCfg r) 31) base 2048) then
    s.setRgBit (Reg.cmdrStatus r) 8 true
  else
    let t := ((s.setRg (Reg.cmdrHead r) 0).setRg (Reg.cmdrTail r) 0).setRg (Reg.cmdrDone r) 0
    (t.setRg (Reg.cmdrCtl r) (1 + 2 * b2n stop)).setRing r
      { state := if stop then .stopped else .running, err := 0, fetched := [], batches := (s.ring r).batches }

/-- EN of a command ring written from 1 to 0 (R145). -/
def cmdDisable (s : State) (r : Nat) (stop : Bool) : State :=
  let x := s.ring r
  let t := freeRingWait (s.setRg (Reg.cmdrCtl r) (2 * b2n stop)) r
  let t := t.setRing r { x with fetched := [], batches := batchesDoomed x.batches }
  cmdSettle (x.fetched.foldl (fun t c => cmdAbort t r c) t) r

/-- STOP of an enabled ring set or cleared (R145). -/
def cmdStopSet (s : State) (r : Nat) (stop : Bool) : State :=
  let x := s.ring r
  let t := s.setRgBit (Reg.cmdrCtl r) 1 stop
  headCheck (if x.state = .error then t else t.setRing r { x with state := if stop then .stopped else .running }) r

/-- A write to CMDR_CTL (R145). -/
def cmdrCtlWrite (s : State) (r v : Nat) : State :=
  if cmdEn s r then (if bit v 0 then cmdStopSet s r (bit v 1) else cmdDisable s r (bit v 1))
  else if bit v 0 then cmdEnable (s.setRgBit (Reg.cmdrCtl r) 1 (bit v 1)) r (bit v 1)
  else s.setRgBit (Reg.cmdrCtl r) 1 (bit v 1)

/-- CMDR_ENABLE (R145). -/
def execCmdrEnable (r : Nat) (v : Word) (s : State) : Res :=
  gate dFAB 7 0 (.cmdrEnable r v) s (fun s => if bit v.toNat 0 then cmdrCtlWrite s (r % 1024) v.toNat else s)

/-- CMDR_DISABLE (R145). -/
def execCmdrDisable (r : Nat) (v : Word) (s : State) : Res :=
  gate dFAB 7 0 (.cmdrDisable r v) s (fun s => if bit v.toNat 0 then s else cmdrCtlWrite s (r % 1024) v.toNat)

/-- CMDR_STOP (R145). -/
def execCmdrStop (r : Nat) (v : Word) (s : State) : Res :=
  gate dFAB 7 0 (.cmdrStop r v) s (fun s => if bit v.toNat 1 then cmdrCtlWrite s (r % 1024) v.toNat else s)

/-- CMDR_RESUME (R145). -/
def execCmdrResume (r : Nat) (v : Word) (s : State) : Res :=
  gate dFAB 7 0 (.cmdrResume r v) s (fun s => if bit v.toNat 1 then s else cmdrCtlWrite s (r % 1024) v.toNat)

/-- A write to CMDR_CFG (Table 6.8, R128, R131): NODE and LOC need a ring that is disabled and not busy, SIZE one that is
disabled; DEPTH takes any write. -/
def cmdrCfgWrite (s : State) (r v : Nat) : State :=
  let old := s.rg (Reg.cmdrCfg r)
  let fixed := cmdEn s r || cmdBusy s r
  let want := v &&& 0x80071F1F
  let w := if fixed then putBits (putBits want 31 1 (bits old 31 1)) 8 5 (bits old 8 5) else want
  let w := if cmdEn s r then putBits w 0 5 (bits old 0 5) else w
  let t := s.setRg (Reg.cmdrCfg r) w
  if w = want then t else t.setRgBit (Reg.cmdrStatus r) 8 true

/-! ## Completion and event ring registers (R128, R148, R152, R154) -/

/-- The offset of CRING_STATUS or EVR_STATUS. -/
def ringStat (evr : Bool) (c : Nat) : Nat := ringReg evr c 0x18

/-- A write to CRING_CFG or EVR_CFG (Table 6.12, R128). -/
def ringCfgWrite (s : State) (evr : Bool) (c v : Nat) : State :=
  let o := ringReg evr c 8
  let old := s.rg o
  let want := v &&& 0xFF00FFFF
  if bit old 29 then
    let w := putBits (putBits want 31 1 (bits old 31 1)) 24 5 (bits old 24 5)
    let t := s.setRg o w
    if w = want then t else t.setRgBit (ringStat evr c) 2 true
  else if bit want 29 then
    let base := s.rg64 (ringReg evr c 0) (ringReg evr c 4)
    let n := bits want 24 5
    if 6 ≤ n && n ≤ 20 && ringBaseOk s (bit want 31) base 128 then
      (((s.setRg o want).setRg (ringReg evr c 0x10) 0).setRg (ringReg evr c 0x14) 0).setIrq evr c noIrq
    else (s.setRg o (putBits want 29 1 0)).setRgBit (ringStat evr c) 2 true
  else s.setRg o want

/-- CRING_ENABLE (R128). -/
def execCringEnable (c : Nat) (v : Word) (s : State) : Res :=
  gate dFAB 7 0 (.cringEnable c v) s (fun s => if bit v.toNat 29 then ringCfgWrite s false (c % 1024) v.toNat else s)

/-- EVR_ENABLE (R128). -/
def execEvrEnable (e : Nat) (v : Word) (s : State) : Res :=
  gate dFAB 7 0 (.evrEnable e v) s (fun s => if bit v.toNat 29 then ringCfgWrite s true (e % 16) v.toNat else s)

/-- A write to CRING_HEAD or EVR_HEAD (R148, R154): it counts from the next tc on; one past TAIL is ignored. -/
def ringHeadWrite (s : State) (evr : Bool) (c v : Nat) : State :=
  let head := s.rg (ringReg evr c 0x10)
  let q := s.irq evr c
  if (s.rg (ringReg evr c 0x14) + 2 ^ 32 - head) % 2 ^ 32 < (v + 2 ^ 32 - head) % 2 ^ 32 then
    s.setRgBit (ringStat evr c) 3 true
  else
    (s.setRg (ringReg evr c 0x10) v).setIrq evr c
      { since := s.now, fired := false, headOld := some (s.clk.tc, ringHead s evr c),
        marks := q.marks.filter (fun m => decide ((m + 2 ^ 32 - ringHead s evr c) % 2 ^ 32 < ringLevel s evr c)) }

/-- CRING_HEAD_WRITE (R148, R154). -/
def execCringHeadWrite (evr : Bool) (c : Nat) (v : Word) (s : State) : Res :=
  gate dFAB 7 0 (.cringHeadWrite evr c v) s (fun s => ringHeadWrite s evr (c % (if evr then 16 else 1024)) v.toNat)

/-- The time test of R154. -/
def irqTime (s : State) (evr : Bool) (c : Nat) : State :=
  let ns := s.rg (ringReg evr c 0xC)
  let q := s.irq evr c
  if ringEn s evr c && ringLevel s evr c != 0 && ns != 0 && decide (q.since + ns ≤ s.now) then
    s.setIrq evr c { q with fired := true }
  else s

/-- IRQ_NS_EXPIRE (R154). -/
def execIrqNsExpire (evr : Bool) (c : Nat) (s : State) : Res :=
  gateIn dFAB s (fun s => irqTime s evr (c % (if evr then 16 else 1024)))

/-! ## The program store (R155, R157) -/

/-- An instruction of the program store. -/
def State.instr (s : State) (i : Nat) : DWord := tget 0#64 s.work.pstore i

/-- A write to a low word is held until the next write of the high word (R155). -/
def pstoreLow (s : State) (i : Nat) (v : Word) : State :=
  { s with work := { s.work with pstoreLow := tput s.work.pstoreLow i v } }

/-- A running program notes that instruction i was rewritten: it fetches a changed word when it comes to it (R157). -/
def noteChange (i : Nat) (x : PCtx) : PCtx :=
  match x.stream with
  | some m => { x with stream := some { m with changed := addMem i m.changed } }
  | none => x

/-- A write to a high word replaces the instruction (R155). -/
def pstoreHigh (s : State) (i : Nat) (v : Word) : State :=
  let low := match tfind s.work.pstoreLow i with
    | some w => w.toNat
    | none => (s.instr i).toNat % 2 ^ 32
  { tableWrite s .program i with work := { s.work with
      pstore := tset 0#64 s.work.pstore i (BitVec.ofNat 64 (v.toNat * 2 ^ 32 + low)),
      pstoreLow := terase s.work.pstoreLow i,
      pctxs := s.work.pctxs.map (fun e => (e.1, noteChange i e.2)) } }

/-- PSTORE_LOW_WRITE (R155). -/
def execPstoreLowWrite (i : Nat) (v : Word) (s : State) : Res := gate dFAB 7 0 (.pstoreLowWrite i v) s (fun s => pstoreLow s (i % 32768) v)

/-- PSTORE_HIGH_WRITE (R155). -/
def execPstoreHighWrite (i : Nat) (v : Word) (s : State) : Res := gate dFAB 7 0 (.pstoreHighWrite i v) s (fun s => pstoreHigh s (i % 32768) v)

/-! ## Budget lending (R265) -/

/-- Whether node n is quiescent (R265). -/
def nodeQuiet (s : State) (n : Nat) : Bool :=
  decide (n ∈ s.sync.allWait) &&
  s.ports.all (fun p => p.1 / 4 != n || p.2.stands.isNone) &&
  s.work.pctxs.all (fun e => e.1 / 8 != n || (!e.2.spin && e.2.waitsFor (· != .issue))) &&
  s.work.rings.all (fun e => !(cmdMover s e.1 == n && cmdReady s e.1))

/-- LEND_ASSERT (R265). -/
def execLendAssert (n : Nat) (s : State) : Res :=
  gateIn dFAB s (fun s =>
    let n := n % 32
    if nodeQuiet s n && s.rgBit Reg.syncLendCfg 31 &&
       decide (tget 0 s.sync.quietSince n + s.rgField Reg.syncLendCfg 0 16 ≤ s.now) then
      s.setRgBit Reg.syncLendStatus n true
    else s)

end Sys2Proof.Machine
end

