-- ==== Sys2Proof/Machine/Ras.lean ====
section
/-! DEFINITION. Scrubbing, bank proving and sparing, frame rescue, boot restoring, the clerk's alert and kick
(R306 to R330). -/

namespace Sys2Proof.Machine

/-- Whether a writer is this die's clerk. -/
def fromClerk (s : State) (src : Nat) : Bool := src == s.srcClerk

/-! ## Scrubbing (R313) -/

/-- Whether the scrubber works on a logical bank: on, in use, not withdrawn. -/
def scrubs (s : State) (b : Nat) : Bool := bankRun s b == 0 && !bankWd s b

/-- The words of a granule of a physical bank that hold a mark. -/
def granuleMarks (s : State) (k : EccMark) (p row : Nat) : List Nat := markedWords s k (bankAddr p (row * 128)) 128

/-- A scrub read of a row: counts, the SCRUB_UE record, and a write-back for a corrected granule (R308, R313). -/
def scrubRead (s : State) (b row : Nat) : State :=
  let p := bankPhys s b
  let rq := slcRq s
  let a := diePPA s.pwr.dieId 0 (b * 2 ^ 21 + row * 128)
  let ue := granuleMarks s .ue p row
  let ce := granuleMarks s .ce p row
  let t := takeCe s rq.src none p a ce.length
  let t := if ue.isEmpty then t else rasError (countBankErr t p 0 1) rq.src none 0x03 a 1 p (wordMask ue) 0
  if ce.isEmpty then t else { t with ras := { t.ras with scrubBack := tput t.ras.scrubBack p (row + 1) } }

/-- Whether a bank's teller leaves the tc to the scrubber (R313): the bank neither accesses nor turns in it, no owner request
stands, and no entry waits. -/
def scrubMay (s : State) (b : Nat) : Bool :=
  let t := s.teller b
  t.acted != some s.clk.tc && t.busy != some s.clk.tc && t.reqs.isEmpty && t.entries.isEmpty

/-- One step of a bank's scrub pass, when it is due (R313). -/
def scrubStep (s : State) (b : Nat) (usable : Bool) : State :=
  let ns := s.rgField Reg.rasCfg 0 20
  if scrubs s b && ns != 0 && decide (tget 0 s.ras.scrubAt b + ns ≤ s.now) then
    let row := tget 0 s.ras.scrubRow b
    let t := { s with ras := { s.ras with scrubAt := tput s.ras.scrubAt b s.now,
                                          scrubRow := tset 0 s.ras.scrubRow b ((row + 1) % 16384) } }
    if usable && scrubMay s b then scrubRead t b row else t.countRg Reg.scrubSkip 1
  else s

/-- SCRUB_STEP (R313). -/
def execScrubStep (bank : Nat) (usable : Bool) (s : State) : Res :=
  gateIn (dHome (bank % 256 / 8)) s (fun s => scrubStep s (bank % 256) usable)

/-- A corrected granule is written back with fresh check bits (R313). -/
def scrubWriteBack (s : State) (b : Nat) : State :=
  let p := bankPhys s b
  match tfind s.ras.scrubBack p with
  | none => s
  | some r =>
    let ws := granuleMarks s .ce p (r - 1)
    { s with ras := { s.ras with scrubBack := terase s.ras.scrubBack p },
             bankMark := s.bankMark.filter (fun c => !(c.1 ∈ ws)) }

/-- SCRUB_WRITE_BACK (R313). -/
def execScrubWriteBack (bank : Nat) (s : State) : Res :=
  gateIn (dHome (bank % 256 / 8)) s (fun s => scrubWriteBack s (bank % 256))

/-- CE_WINDOW_END (R313): a window of 2^30 ns ends. -/
def execCeWindowEnd (s : State) : Res := gateIn dFAB s ceRoll

/-! ## The bank map (R314) -/

/-- A bank that a change withdraws is OFF: its contents are lost (R342). -/
def wdLoses (b : Nat) (s t : State) : State := if !bankWd s b && bankWd t b then loseBank t (bankPhys t b) else t

/-- A write to BANK_MAPb before the seal (R314). -/
def bankMapWrite (s : State) (b v : Nat) : State :=
  let p := v % 512
  if isSealedDie s then s
  else if 264 ≤ p ∨ (List.range 256).any (fun k => k != b && bankPhys s k == p) then s.setRgBit Reg.bankStatus 0 true
  else wdLoses b s (s.setRg (Reg.bankMap b) (v % 1024))

/-- BANK_MAP_WRITE (R314). -/
def execBankMapWrite (b : Nat) (v : Word) (s : State) : Res :=
  gate dFAB 7 0 (.bankMapWrite b v) s (fun s => bankMapWrite s (b % 256) v.toNat)

/-! ## Sparing and withdrawing a bank (R315 to R318) -/

/-- STATE, with the bank and spare of BANK_SPARE_STATUS. -/
def spareState (s : State) (code arg : Nat) : State :=
  { s with ras := { s.ras with spareState := code, spareArg := arg } }

/-- The start of a spare copy (R315). -/
def spareStart (s : State) (b i arg : Nat) : State :=
  if !s.rgBit Reg.bankSpareOk i || bankWd s b then spareState s 4 arg
  else spareState { s with ras := { s.ras with copy := some { bank := b, spare := i } } } 1 arg

/-- The entries queued at a bank's teller complete with FAULT_PROT (R318). -/
def failQueued (s : State) (b : Nat) : State :=
  (s.teller b).entries.foldl (fun t e => killFlight t e.id .faultProt) s

/-- A logical bank is withdrawn (R318). -/
def bankWithdraw (s : State) (b arg : Nat) : State :=
  if bankWd s b then spareState s 3 arg
  else
    let slc := bankSlc s b
    let t := if slc then slcOff s else s
    let t := failQueued (wdLoses b t (t.setRgBit (Reg.bankMap b) 9 true)) b
    let t := capacity (spareState t 3 arg) 167 1 b 0 false false
    if slc then capacity t 167 6 0 0 false false else t

/-- A write to BANK_SPARE (R315, R318, R320): from the clerk, or from any source in relief mode; none while a copy
runs. -/
def bankSpareWrite (s : State) (v src : Nat) : State :=
  if !(fromClerk s src || relief s) || !bit v 31 || s.ras.copy.isSome then s
  else if bit v 30 then bankWithdraw s (bits v 0 8) (v % 2048)
  else spareStart s (bits v 0 8) (bits v 8 3) (v % 2048)

/-- BANK_SPARE (R315). -/
def execBankSpare (v : Word) (src : Nat) (s : State) : Res :=
  gate dFAB 7 src (.bankSpare v src) s (fun s => if bit v.toNat 30 then s else bankSpareWrite s v.toNat src)

/-- BANK_WITHDRAW (R318). -/
def execBankWithdraw (v : Word) (src : Nat) (s : State) : Res :=
  gate dFAB 7 src (.bankWithdraw v src) s (fun s => if bit v.toNat 30 then bankSpareWrite s v.toNat src else s)

/-- The raw copy of a physical bank: data, and the check state of uncorrectable words (R316). -/
def bankRaw (s : State) (p q : Nat) : State :=
  let a := p * 2 ^ 21
  let d := q * 2 ^ 21
  let ue := s.bankMark.filter (fun c => c.2 == .ue && decide (a / 8 ≤ c.1) && decide (c.1 < (a + 2 ^ 21) / 8))
  let rest := s.bankMark.filter (fun c => !(decide (d / 8 ≤ c.1) && decide (c.1 < (d + 2 ^ 21) / 8)))
  { s with bankMem := s.bankMem.copyFrom s.bankMem a (2 ^ 21) d,
           bankMark := ue.foldl (fun l c => tput l (c.1 - a / 8 + d / 8) .ue) rest }

/-- The rows of a physical bank that hold an uncorrectable word, rising. -/
def badRows (s : State) (p : Nat) : List Nat :=
  let a := p * 2 ^ 21
  ((s.bankMark.filter (fun c => c.2 == .ue && decide (a / 8 ≤ c.1) && decide (c.1 < (a + 2 ^ 21) / 8))).map
    (fun c => (c.1 * 8 - a) / 128)).foldl (fun l r => addMem r l) []

/-- The end of a spare copy (R316, R317): a COPY_UE record for each granule copied raw, then the switch. -/
def spareSwitchBank (s : State) (c : SpareCopy) : State :=
  let p := bankPhys s c.bank
  let q := 256 + c.spare
  let t := (badRows s p).foldl (fun t row =>
    rasError t t.srcClerk none 0x07 (diePPA t.pwr.dieId 0 (c.bank * 2 ^ 21 + row * 128)) 1 p
      (wordMask (granuleMarks t .ue p row)) q) (bankRaw s p q)
  let t := (t.setRgField (Reg.bankMap c.bank) 0 9 q).setRgBit Reg.bankSpareOk c.spare false
  capacity (spareState { t with ras := { t.ras with copy := none } } 2 t.ras.spareArg) 167 0 c.bank q true false

/-- SPARE_COPY_END (R317). -/
def execSpareCopyEnd (s : State) : Res :=
  gateIn dFAB s (fun s => match s.ras.copy with
    | some c => spareSwitchBank s c
    | none => s)

/-! ## Frame rescue (R322 to R325) -/

/-- STATE and FRAME of FRAME_RESCUE_STATUS. -/
def rescueState (s : State) (code f : Nat) : State :=
  { s with ras := { s.ras with rescueState := code, rescueFrame := f } }

/-- Whether a rescue or a retirement is in progress. -/
def rescuing (s : State) : Bool := s.ras.rescue.isSome || s.xl.shoots.any (fun h => h.retire)

/-- A read of a frame's ledger word for a register write (R309). -/
def ledgerRead (s : State) (f : Nat) : Bool × State := tableReads s s.srcClerk none [(.frame, f)]

/-- The start of a rescue (R322); of a frame whose ledger word is uncorrectable it is refused (R309). -/
def rescueStart (s : State) (f : Nat) : State :=
  if tableBad s .frame f then rescueState (ledgerRead s f).2 3 f
  else if (s.frame f).state ≠ .retiring ∨ rescuing s then rescueState s 3 f
  else match (List.range 8).find? (fun n => s.rgBit (Reg.rasRescue n) 31) with
    | none => rescueState s 3 f
    | some n =>
      let r := s.rgField (Reg.rasRescue n) 0 17
      let t := s.setRgBit (Reg.rasRescue n) 31 false
      if (t.frame r).state = .free ∧ framePresent t r then
        rescueState { t with ras := { t.ras with rescue := some { frame := f, rescue := r } } } 1 f
      else rescueState t 3 f

/-- The retirement of a frame without a copy (R322). -/
def rescueNone (s : State) (f : Nat) : State :=
  if tableBad s .frame f then rescueState (ledgerRead s f).2 3 f
  else if (s.frame f).state ≠ .retiring ∨ rescuing s then rescueState s 3 f
  else
    let t := unlinkFrame (rescueState s 0 f) f
    shootFrame t t.xl.nextKey f true none none

/-- A write to FRAME_RESCUE (R322): from the clerk, or from any source in relief mode. -/
def frameRescueWrite (s : State) (v src : Nat) : State :=
  if !(fromClerk s src || relief s) || !bit v 31 then s
  else if bit v 30 then rescueNone s (bits v 0 17)
  else rescueStart s (bits v 0 17)

/-- FRAME_RESCUE (R322). -/
def execFrameRescue (v : Word) (src : Nat) (s : State) : Res :=
  gate dFAB 7 src (.frameRescue v src) s (fun s => if bit v.toNat 30 then s else frameRescueWrite s v.toNat src)

/-- FRAME_RESCUE_NONE (R322). -/
def execFrameRescueNone (v : Word) (src : Nat) (s : State) : Res :=
  gate dFAB 7 src (.frameRescueNone v src) s (fun s => if bit v.toNat 30 then
    ledgerTurn s (bits v.toNat 0 17) (.frameRescueNone v src) (fun t => frameRescueWrite t v.toNat src) else s)

/-- The 512 B pieces of a frame whose read is marked uncorrectable. -/
def badPieces (s : State) (f : Nat) : List Nat :=
  if s.edge.badRows.isEmpty then []
  else (List.range 4096).filter (fun i => (List.range 8).any (fun j => stackBad s (f * 2 ^ 21 + i * 512 + j * 64)))

/-- The copy of a frame into its rescue frame, but for the pieces marked uncorrectable (R323, R324). -/
def rescueCopy (s : State) (r : Rescue) : State :=
  let bad := badPieces s r.frame
  let old := s.stackMem
  let m := old.copyFrom old (r.frame * 2 ^ 21) (2 ^ 21) (r.rescue * 2 ^ 21)
  let m := bad.foldl (fun m i => m.copyFrom old (r.rescue * 2 ^ 21 + i * 512) 512 (r.rescue * 2 ^ 21 + i * 512)) m
  bad.foldl (fun t i =>
    rasError t t.srcClerk none 0x08 (diePPA t.pwr.dieId 8 (r.frame * 2 ^ 21 + i * 512)) 2
      (stackPlace t (r.frame * 2 ^ 21 + i * 512)).1 0 r.rescue) { s with stackMem := m }

/-- The end of a rescue copy: the table unit's one change and the shootdowns (R325). A rescue frame that left FREE
meanwhile takes no mapping (R76). -/
def rescueEnd (s : State) (r : Rescue) : State :=
  let t := rescueCopy s r
  let x := t.frame r.frame
  let re := x.linked && frameMode t r.frame == frameMode t r.rescue && (t.frame r.rescue).state == .free
  let t := unlinkFrame t r.frame
  let t := if re then
      linkFrame (t.setFrame r.rescue { t.frame r.rescue with asid := x.asid, vpn := x.vpn, state := .mapped, w := x.w,
                                                             a := x.a }) r.rescue
    else t
  shootFrame t t.xl.nextKey r.frame true (some (r.rescue, re)) none

/-- RESCUE_COPY_END (R325), in its turn at the table unit (R82, R416). -/
def execRescueCopyEnd (s : State) : Res :=
  gateIn dFAB s (fun s => match s.ras.rescue with
    | some r =>
      let t := flushMaps s
      if frameHeld t r.frame || frameHeld t r.rescue then t
      else if t.ras.rescueState = 1 ∧ t.xl.shoots.all (fun h => !h.retire) then rescueEnd t r else t
    | none => s)

/-! ## Restoring losses at boot (R326) -/

/-- A write to FRAME_SET (R326). -/
def frameSetWrite (s : State) (v src : Nat) : State :=
  let f := bits v 0 17
  if !bit v 31 then s
  else if tableBad s .frame f then (ledgerRead s f).2.setRgBit Reg.bankStatus 1 true
  else if !fromClerk s src || isSealedDie s || (s.frame f).state != .free || !framePresent s f then
    s.setRgBit Reg.bankStatus 1 true
  else if bit v 30 then s.setFrame f { s.frame f with state := .withdrawn }
  else capacity (s.setFrame f { s.frame f with state := .retired }) 167 3 f 0 false false

/-- FRAME_SET (R326). -/
def execFrameSet (v : Word) (src : Nat) (s : State) : Res :=
  gate dFAB 7 src (.frameSet v src) s (fun s =>
    ledgerTurn s (bits v.toNat 0 17) (.frameSet v src) (fun t => frameSetWrite t v.toNat src))

/-! ## The clerk (R328, R330) -/

/-- A write to CLERK_ALERT_CODE: by the clerk it raises the alert (R328). -/
def clerkAlert (s : State) (v src : Nat) : State :=
  let t := s.setRg Reg.clerkAlertCode v
  if fromClerk s src then
    event (t.setRgBit Reg.clerkStatus 1 true) t.srcClerk none 0x30 4 v (t.rg Reg.clerkAlertData)
  else t

/-- CLERK_ALERT (R328). -/
def execClerkAlert (v : Word) (src : Nat) (s : State) : Res := gate dFAB 7 src (.clerkAlert v src) s (fun s => clerkAlert s v.toNat src)

/-- A write to CLERK_WD_KICK by the clerk restarts the period (R330). -/
def clerkKick (s : State) (src : Nat) : State :=
  if fromClerk s src then { s with ras := { s.ras with wdStart := s.ras.clerkWatch, wdStage := 0 } } else s

/-- CLERK_WD_KICK (R330). -/
def execClerkWdKick (v : Word) (src : Nat) (s : State) : Res := gate dFAB 7 src (.clerkWdKick v src) s (fun s => let _ := v; clerkKick s src)

end Sys2Proof.Machine
end

