-- ==== Sys2Proof/Machine/Power.lean ====
section
/-! DEFINITION. Power domains, votes, banks' run states, clamps, clock points and the governor, resets, the life
cycle and the clerk's ROM (Chapter 14, R359, R380, R381, R412). -/

namespace Sys2Proof.Machine

/-! ## Votes (R336, R337) -/

/-- The votes of a node. -/
def nodeVotes (s : State) (n : Nat) : Nat := (tget 0#37 s.pwr.nodeVotes n).toNat

/-- The votes of the host. -/
def hostVotes (s : State) : Nat := s.rg64 Reg.pwrVoteHostLo Reg.pwrVoteHostHi % 2 ^ 37

/-- The votes of the clerk. -/
def clerkVotes (s : State) : Nat := s.rg64 Reg.pwrVoteClerkLo Reg.pwrVoteClerkHi % 2 ^ 37

/-- The domain masks of all voters. -/
def allVotes (s : State) : List Nat :=
  [hostVotes s, clerkVotes s] ++ s.pwr.nodeVotes.map (fun v => v.2.toNat) ++
    (List.range 4).map (fun p => (s.link p).votes.toNat)

/-- The domains that at least one vote holds (PWR_HELD): votes for AO are ignored, any vote also holds FAB. -/
def heldMask (s : State) : Nat :=
  let m := (allVotes s).foldl (· ||| ·) 0 / 2 * 2
  if m = 0 then 0 else m ||| 2

/-- A node's vote mask changes (R336). -/
def nodeVote (s : State) (n : Nat) (mask : BitVec 37) : State :=
  let old := tget 0#37 s.pwr.nodeVotes n
  voteWakes { s with pwr := { s.pwr with nodeVotes := tset 0#37 s.pwr.nodeVotes n mask } } old mask n

/-- NODE_VOTE (R336). -/
def execNodeVote (n : Nat) (mask : BitVec 37) (s : State) : Res := gateRun s (fun s => nodeVote s (n % 32) mask)

/-- A write to one half of PWR_VOTE_HOST (voter 32) or PWR_VOTE_CLERK (33), at the offset of its LO word. -/
def voteWrite (s : State) (lo voter : Nat) (hi : Bool) (v : Nat) : State :=
  let old := BitVec.ofNat 37 (s.rg64 lo (lo + 4))
  let t := if hi then s.setRg (lo + 4) (v % 32) else s.setRg lo v
  voteWakes t old (BitVec.ofNat 37 (t.rg64 lo (lo + 4))) voter

/-- PWR_VOTE_HOST_WRITE (R336). -/
def execPwrVoteHostWrite (hi : Bool) (v : Word) (s : State) : Res :=
  gateAO s (fun s => voteWrite s Reg.pwrVoteHostLo 32 hi v.toNat)

/-- A write to PWR_VOTE_CLERK: writes from other sources than the clerk are ignored. -/
def clerkVoteWrite (s : State) (hi : Bool) (v src : Nat) : State :=
  if fromClerk s src then voteWrite s Reg.pwrVoteClerkLo 33 hi v else s

/-- PWR_VOTE_CLERK_WRITE (R336). -/
def execPwrVoteClerkWrite (hi : Bool) (v : Word) (src : Nat) (s : State) : Res :=
  gateAO s (fun s => clerkVoteWrite s hi v.toNat src)

/-! ## Clamps (R347, Table 14.4) -/

/-- The clamp groups that a domain drives. -/
def clampGroups (d : Nat) : List Nat :=
  if d = 1 then [37] else if 2 ≤ d ∧ d < 34 then [d - 2] else if d = 34 ∨ d = 35 then [d - 2]
  else if d = 36 then [34] else []

/-- A clamp group latches or releases. -/
def setClamp (s : State) (g : Nat) (on : Bool) : State :=
  if g < 32 then s.setRgBit Reg.pwrClampLo g on else s.setRgBit Reg.pwrClampHi (g - 32) on

/-- AUTO of a clamp group. -/
def clampAuto (s : State) (g : Nat) : Bool :=
  if g < 32 then s.rgBit Reg.pwrClampAutoLo g else s.rgBit Reg.pwrClampAutoHi (g - 32)

/-- A domain's wake ends: its groups with AUTO release; one left latched sets CLAMP_HELD (R347). -/
def wakeClamps (s : State) (d : Nat) : State :=
  let t := ((clampGroups d).filter (fun g => clampAuto s g)).foldl (fun t g => setClamp t g false) s
  if (clampGroups d).any (fun g => clampOn t g) then t.setRgBit Reg.pwrCause 3 true else t

/-- What waits at the die-link ports goes once their group releases (R347). -/
def portsRelease (before : Bool) (s : State) : State :=
  if before && !clampOn s 34 then upTo 4 (fun p t => votesOut (drainWaiting t p) p) s else s

/-- A register of latched groups after a write of ones to it; what the hardware latched in this tc stays on top (R12). -/
def clampLeft (s : State) (o v : Nat) : Nat :=
  (s.rg o &&& (0xFFFFFFFF - v % 2 ^ 32)) ||| (s.rg o &&& s.driven o)

/-- A write of ones to PWR_CLAMP releases the groups (R347). -/
def clampWrite (s : State) (hi : Bool) (v : Nat) : State :=
  if hi then portsRelease (clampOn s 34) (s.setRg Reg.pwrClampHi (clampLeft s Reg.pwrClampHi (v % 64)))
  else s.setRg Reg.pwrClampLo (clampLeft s Reg.pwrClampLo v)

/-- CLAMP_RELEASE (R347). -/
def execClampRelease (hi : Bool) (v : Word) (s : State) : Res := gateAO s (fun s => clampWrite s hi v.toNat)

/-! ## Entry (R338, R339, R343) -/

/-- ACTIVITY_TIMER_EXPIRE (R338). -/
def execActivityTimerExpire (d : Nat) (s : State) : Res :=
  gateRun s (fun s =>
    let x := s.dom d
    if domPresent s d ∧ x.state = .up ∧ x.timer ≤ s.now then s.setDom d { x with expired := true } else s)

/-- The entry conditions of HOMEn (Table 14.2); a spare copy also keeps the spare's home. -/
def homeQuiet (s : State) (n : Nat) : Bool :=
  (List.range 8).all (fun k =>
    let b := 8 * n + k
    (s.teller b).entries.isEmpty && (s.teller b).half.isNone && !bankSlc s b &&
    s.mesh.flights.all (fun f => !(f.2.path == 0 && bankOf f.2.seg == b))) &&
  (match s.ras.copy with
    | some c => c.bank / 8 != n && 4 * c.spare + 1 != n
    | none => true)

/-- The entry conditions of SGs. -/
def stackQuiet (s : State) (st : Nat) : Bool :=
  (List.range 33).all (fun c =>
    let x := s.chan st c
    x.entries.isEmpty && x.reads.isEmpty && x.state != .retraining && x.state != .mirror && x.state != .spareMirror) &&
  s.mesh.flights.all (fun f => !(f.2.path == 1 && (flightChan s f.2).1 / 32 == st)) && (s.repair st).state != 1

/-- The entry conditions of EDGE. -/
def edgeQuiet (s : State) : Bool :=
  (List.range 5).all (fun i => tagsUsed s (i + 1) none == 0) && s.edge.farTable.isEmpty &&
  (List.range 4).all (fun p => (s.link p).waiting.isEmpty && (s.link p).credits.isEmpty) &&
  s.mesh.flights.all (fun f => decide (f.2.path < 2))

/-- Whether an escrow session is open: a pending timed commit is not, as AO wakes FAB for it (R341). -/
def sessionOpen (s : State) : Bool :=
  s.sessions.any (fun k => k.2.state == .opened || k.2.state == .checking || k.2.state == .draining)

/-- The entry conditions of FAB. -/
def fabQuiet (s : State) : Bool :=
  (List.range 35).all (fun i => !domPresent s (i + 2) || (s.dom (i + 2)).state == .down) &&
  s.work.rings.all (fun r => r.2.fetched.isEmpty) && s.work.pctxs.isEmpty && !sessionOpen s

/-- The entry conditions of a domain (Table 14.2). -/
def domQuiet (s : State) (d : Nat) : Bool :=
  if d = 1 then fabQuiet s else if d < 34 then homeQuiet s (d - 2) else if d < 36 then stackQuiet s (d - 34)
  else edgeQuiet s

/-- The entry delay of a domain in ns (Table 14.3). -/
def entryDelay (d : Nat) : Nat := if d = 1 then 1000 else if d < 34 then 200 else if d < 36 then 500 else 1000

/-- A domain starts entry: its clamps latch, FAB empties the tally caches (R335, R339, R347). -/
def entryStart (s : State) (d : Nat) : State :=
  let x := s.dom d
  if domPresent s d && d != 0 && x.state == .up && x.expired && !bit (heldMask s) d && domQuiet s d && !s.obs.holds then
    let t := s.setDom d { x with state := .entering, due := s.now + entryDelay d }
    let t := (clampGroups d).foldl (fun t g => setClamp t g true) t
    if d = 1 then { t with xl := { t.xl with tally := [] } } else t
  else s

/-- DOMAIN_ENTRY_START (R339). -/
def execDomainEntryStart (d : Nat) (s : State) : Res := gateRun s (fun s => entryStart s d)

/-- The active ports lose their links with EDGE, and the peers' votes (R336). -/
def linksDown (s : State) : State :=
  upTo 4 (fun p t =>
    let l := t.link p
    if l.state = .inactive then t
    else t.setLink p { l with state := .down, since := t.now, votes := 0#37, credits := [] }) s

/-- A domain's entry delay ends; a wake that came meanwhile starts at once (R340). -/
def entryDone (s : State) (d : Nat) : State :=
  let x := s.dom d
  if x.state = .entering ∧ x.due ≤ s.now then
    let t := s.setDom d { x with state := .down, wake := none }
    let t := if d = 36 then linksDown t else t
    match x.wake with
    | some (kind, src) => wakeDom t d kind src
    | none => t
  else s

/-- DOMAIN_ENTRY_DONE (R343). -/
def execDomainEntryDone (d : Nat) (s : State) : Res := gateRun s (fun s => entryDone s d)

/-! ## Wakes (R340 to R345) -/

/-- DOMAIN_WAKE (R340). -/
def execDomainWake (d kind src : Nat) (s : State) : Res :=
  gateRun s (fun s => if d = 0 then s else wakeDom s d (kind % 16) (src % 4096))

/-- A physical bank filled with zeros and fresh check bits. -/
def zeroBank (s : State) (p : Nat) : State :=
  { s with bankMem := s.bankMem.clear (p * 2 ^ 21) ((p + 1) * 2 ^ 21),
           bankMark := s.bankMark.filter (fun m => m.1 / 2 ^ 18 != p) }

/-- The banks of a home whose down state is OFF return from it (R342): one that returns to ON is zero-filled, the
contents of any other are lost. -/
def homeReturn (s : State) (n : Nat) : State :=
  upTo 8 (fun k t =>
    let b := 8 * n + k
    let p := bankPhys t b
    if t.rgBit (Reg.pwrBank b) 2 then
      (if bankRun t b = 0 then zeroBank t p
       else { t with bankMem := t.bankMem.markUndef (p * 2 ^ 21) ((p + 1) * 2 ^ 21) t.freeCtr,
                     freeCtr := t.freeCtr + 1 })
    else t) s

/-- The active ports train to UP while EDGE wakes (R343, R300). -/
def linksTrain (s : State) : State :=
  upTo 4 (fun p t =>
    let l := t.link p
    if l.state = .inactive then t else t.setLink p { l with state := .training, since := t.now, replays := 0 }) s

/-- The wait for LEVEL reports of a stack starts again (R344). -/
def levelsRestart (s : State) (st : Nat) : State :=
  upTo 33 (fun c t => t.setChan st c { t.chan st c with levelAt := t.now }) s

/-- A domain's wake delay ends (R343). -/
def wakeDone (s : State) (d : Nat) : State :=
  let x := s.dom d
  if x.state = .waking ∧ x.due ≤ s.now then
    let t := s.setDom d { state := .up, due := x.due, timer := s.now + s.rgField Reg.pwrCfg 0 20, expired := false,
                          wake := none }
    let t := if 2 ≤ d ∧ d < 34 then homeReturn t (d - 2)
             else if d = 34 ∨ d = 35 then levelsRestart t (d - 34)
             else if d = 36 then linksTrain t else t
    wakeClamps t d
  else s

/-- DOMAIN_WAKE_DONE (R343). -/
def execDomainWakeDone (d : Nat) (s : State) : Res := gateRun s (fun s => wakeDone s d)

/-- When a channel's retrain is to start, if a start is scheduled: a noticed channel's by R286, an idle spare's at the E of its
notice (R414). -/
def startOf (s : State) (g : Nat) (x : Chan) : Option Nat :=
  if x.state = .noticed then some (retrainStart s g x)
  else if x.state = .spareIdle ∧ x.b ≠ 0 then some x.e else none

/-- The scheduled retrain starts of a stack (R286, R414). -/
def retrainStarts (s : State) (st : Nat) : List Nat :=
  (List.range 33).filterMap (fun c => startOf s ((s.chan st c).die.getD 0) (s.chan st c))

/-- The PT times that AO keeps for R341: timed commits, retrain starts, an armed stop, NOT_BEFORE times. -/
def timedActions (s : State) : List Nat :=
  (s.sessions.filter (fun k => k.2.state == .pending && k.2.timed)).map (fun k => k.2.time) ++
  retrainStarts s 0 ++ retrainStarts s 1 ++
  s.obs.tick.toList ++
  s.work.rings.filterMap (fun r =>
    match r.2.fetched with
    | c :: _ => if dNotBefore c.desc = 0 then none else some (dNotBefore c.desc)
    | [] => none)

/-- The stacks with a scheduled retrain start within the lead (R341). -/
def timedStacks (s : State) : List Nat :=
  (List.range 2).filter (fun st => (retrainStarts s st).any (fun a => decide (a ≤ s.now + 3000)))

/-- AO wakes FAB, and the stacks whose retrain starts are due, 3,000 ns ahead (R341). -/
def timedWake (s : State) : State :=
  let t := if (timedActions s).any (fun a => decide (a ≤ s.now + 3000)) then wakeDom s dFAB 6 0 else s
  (timedStacks s).foldl (fun t st => wakeDom t (dSG st) 6 0) t

/-- TIMED_WAKE (R341). -/
def execTimedWake (s : State) : Res := gateRun s timedWake

/-! ## Banks (R342) -/

/-- Whether a domain is sealed (R70). -/
def domSealed (s : State) (d : Nat) : Bool := s.rgBit (Reg.domCtl d) 1

/-- Whether a bank holds part of a sealed domain's enabled slot ring (R184). -/
def bankInRing (s : State) (b : Nat) : Bool :=
  s.float.slots.any (fun r =>
    let x := r.2
    let first := ppaOff x.base.toNat
    x.en && !x.anyDom && domSealed s x.domain && decide (first < (b + 1) * 2 ^ 21) &&
    decide (b * 2 ^ 21 < first + ((x.count - 1) * x.stride + x.size) * 128))

/-- Whether a bank holds part of a sealed domain's enabled cheque pool (R194), through a BANK segment. -/
def bankInPool (s : State) (b : Nat) : Bool :=
  s.float.pools.any (fun r =>
    let x := r.2
    let d := bits x.cfg.toNat 3 6
    let lo := x.cva.toNat
    let hi := lo + x.count * x.buf
    x.en && !bit x.cfg.toNat 2 && domSealed s d && (List.range 16).any (fun g =>
      let a := max lo (segBase s d g)
      let e := min hi (segLimit s d g)
      let o := segTarget s d g + (a - segBase s d g)
      segV s d g && segKind s d g == 0 && decide (a < e) && decide (o % 2 ^ 47 < (b + 1) * 2 ^ 21) &&
      decide (b * 2 ^ 21 < o % 2 ^ 47 + (e - a))))

/-- Whether a write to PWR_BANKb is refused (R342). -/
def pwrBankRefused (s : State) (b v : Nat) : Bool :=
  bankSlc s b || bankWd s b ||
  (match s.ras.copy with
    | some c => c.bank == b
    | none => false) ||
  ((v % 4 == 1 || v % 4 == 2) && (bankInRing s b || bankInPool s b))

/-- A write to PWR_BANKb (R342): RUN 3 is ignored; a bank that returns to ON from OFF is zero-filled, one that goes
from OFF to RETENTION keeps nothing. -/
def pwrBankWrite (s : State) (b v : Nat) : State :=
  if pwrBankRefused s b v then s.setRgBit Reg.pwrStatus 0 true
  else
    let run := if v % 4 = 3 then bankRun s b else v % 4
    let t := if bankRun s b = 2 ∧ run = 0 then zeroBank s (bankPhys s b)
             else if bankRun s b = 2 ∧ run = 1 then loseBank s (bankPhys s b) else s
    t.setRg (Reg.pwrBank b) (run + bits v 2 1 * 4)

/-- PWR_BANK_WRITE (R342). -/
def execPwrBankWrite (b : Nat) (v : Word) (s : State) : Res := gateAO s (fun s => pwrBankWrite s (b % 256) v.toNat)

/-- BANK_RETENTION_EXIT (R342): the bank returns to ON, and the requests its teller holds are served in later tc. -/
def execBankRetentionExit (b : Nat) (s : State) : Res :=
  gate (dHome (b % 256 / 8)) 2 0 (.bankRetentionExit b) s (fun s => exitRetention s (b % 256))

/-! ## Estimates, sensors, the governor (R348 to R350, R380, R381) -/

/-- Starts a DVFS step to a lower point: the frequency first, then the voltage request (R349, R125). -/
def stepLower (s : State) : State :=
  let p := s.clk.point + 1
  let t := rescale { s with clk := { s.clk with point := p, step := some { target := p, up := false, since := s.now } } }
  (t.setRgBit Reg.pwrCause 1 true).emit (.vreq p)

/-- Starts a DVFS step to a higher point: the voltage request first (R349). -/
def stepHigher (s : State) : State :=
  let p := s.clk.point - 1
  ({ s with clk := { s.clk with step := some { target := p, up := true, since := s.now } } }).emit (.vreq p)

/-- The throttle level changes; a rise sets GOV_STEP (R350). -/
def setThrottle (s : State) (k : Nat) : State :=
  let t := { s with clk := { s.clk with throttle := k } }
  if s.clk.throttle < k then t.setRgBit Reg.pwrCause 1 true else t

/-- PWR_DVFS.REQ. -/
def dvfsReq (s : State) : Nat := s.rgField Reg.pwrDvfs 0 2

/-- Whether a DVFS step can start: ASYNC, none in progress, VTIMEOUT clear (R348, R349). -/
def stepFree (s : State) : Bool := s.pwr.clkMode == 1 && s.clk.step.isNone && !s.rgBit Reg.pwrCause 2

/-- The ceiling C in watts (R350). -/
def govCeiling (s : State) : Nat :=
  let c := min 170 (s.rgField Reg.pwrGov 0 8)
  if s.pwr.cap = 0 then c else min c s.pwr.cap

/-- The state with the governor's count of low updates. -/
def setUnder (s : State) (n : Nat) : State := { s with clk := { s.clk with under := n } }

/-- The governor with EN clear: the point follows REQ alone (R350). -/
def followReq (s : State) : State :=
  if !stepFree s then s
  else if s.clk.point < dvfsReq s then stepLower s
  else if dvfsReq s < s.clk.point then stepHigher s else s

/-- The governor's rule on a die estimate E in mW (R350), before its last line. -/
def govern (s : State) (e : Nat) : State :=
  let c := govCeiling s
  if 1000 * c < e then
    let t := setUnder s 0
    if t.pwr.clkMode = 1 ∧ t.clk.point < 3 then (if stepFree t then stepLower t else t)
    else if t.clk.throttle < 7 then setThrottle t (t.clk.throttle + 1) else t
  else if e + 1000 * s.rgField Reg.pwrGov 8 8 < 1000 * c then
    if s.clk.under + 1 < 8 then setUnder s (s.clk.under + 1)
    else
      let t := setUnder s 0
      if 0 < t.clk.throttle then setThrottle t (t.clk.throttle - 1)
      else if stepFree t && decide (dvfsReq t < t.clk.point) then stepHigher t else t
  else setUnder s 0

/-- One action of the governor (R350): one step per update; in BYPASS it is off (R348). -/
def governor (s : State) (e : Nat) : State :=
  if s.pwr.clkMode = 2 then s
  else if !s.rgBit Reg.pwrGov 31 then followReq s
  else
    let t := govern s e
    if stepFree t && decide (t.clk.point < dvfsReq t) && t.clk.point == s.clk.point then stepLower t else t

/-- The estimates, in mW by domain, their sum and their stamp, and the governor's action (R381, R350). -/
def powerEstimate (s : State) (est : List Nat) (cap : Nat) : State :=
  let t := upTo 37 (fun d t => t.setRg (Reg.pwrEst d) (nth 0 est d % 2 ^ 20)) s
  let e := ((List.range 37).map (fun d => nth 0 est d % 2 ^ 20)).sum
  let t := (t.setRg Reg.pwrEstDie (e % 2 ^ 20)).setRg64 Reg.pwrEstStampLo Reg.pwrEstStampHi t.now
  governor { t with pwr := { t.pwr with cap := cap % 1024 } } e

/-- POWER_ESTIMATE_UPDATE (R381). -/
def execPowerEstimateUpdate (est : List Nat) (cap : Nat) (s : State) : Res := gateAO s (fun s => powerEstimate s est cap)

/-- A write to PWR_DVFS (Table 14.15): in SYNC2 only 0 is accepted. -/
def dvfsWrite (s : State) (v : Nat) : State :=
  if s.pwr.clkMode = 0 ∧ v % 4 ≠ 0 then s.setRgBit Reg.pwrStatus 1 true else s.setRg Reg.pwrDvfs (v % 4)

/-- The regulator's acknowledgement ends a step (R349); a step up now switches tclk. -/
def voltageAck (s : State) : State :=
  match s.clk.step with
  | none => s
  | some x =>
    let t := { s with clk := { s.clk with step := none } }
    if x.up then rescale { t with clk := { t.clk with point := x.target } } else t

/-- VOLTAGE_ACK (R349). -/
def execVoltageAck (s : State) : Res := gateRun s voltageAck

/-- No acknowledgement within 50,000 ns (R349). -/
def voltageTimeout (s : State) : State :=
  match s.clk.step with
  | none => s
  | some x =>
    if x.since + 50000 ≤ s.now then { s with clk := { s.clk with step := none } }.setRgBit Reg.pwrCause 2 true else s

/-- VOLTAGE_TIMEOUT (R349). -/
def execVoltageTimeout (s : State) : Res := gateRun s voltageTimeout

/-- THERM_UPDATE (R380): the sensors' readings in 0.25 °C. -/
def execThermUpdate (temps : List (BitVec 12)) (s : State) : Res :=
  gateAO s (fun s => upTo 16 (fun i t => t.setRg (Reg.thermT i) (2 ^ 31 + (nth 0#12 temps i).toNat)) s)

/-! ## The wipe of sealed banks (R359) -/

/-- The banks named in SEALED_BANK0 to 15. -/
def sealedList (s : State) : List Nat := (List.range 256).filter (fun b => bankSealed s b)

/-- The physical banks that a wipe of a sealed bank covers: the bank and any spare that stands in (R359, Table 13.5). -/
def wipePhys (s : State) (b : Nat) : List Nat :=
  [b, bankPhys s b] ++ (match s.ras.copy with
    | some c => if c.bank = b then [256 + c.spare] else []
    | none => [])

/-- A wipe starts (R359); the domain of a sealed bank that is down wakes for it (Table 14.9). -/
def wipeStart (s : State) : State :=
  let bs := sealedList s
  let t := (bs.flatMap (wipePhys s)).foldl zeroBank s
  let t := { t with pwr := { t.pwr with wiping := true, wipeAt := t.now, wipeBanks := bs } }
  if t.pwr.asserted then t else bs.foldl (fun t b => wakeDom t (dHome (b / 8)) 8 0) t

/-- A wipe completes once the domains of its banks are up (R359). -/
def wipeDone (s : State) : State :=
  if s.pwr.wiping && s.pwr.wipeBanks.all (fun b => isUp s (dHome (b / 8))) then
    ({ s with pwr := { s.pwr with wiping := false, wipeBanks := [],
                                  wipes := (s.pwr.wipes + 1) % 65536 } }).setRg64 Reg.lcWipeLo Reg.lcWipeHi s.now
  else s

/-- WIPE_DONE (R359). -/
def execWipeDone (s : State) : Res := gateRun s wipeDone

/-- A life-cycle state as it acts: codes 5 to 7 act as RETURNED. -/
def lcActs (n : Nat) : Nat := min 4 (n % 8)

/-- A change of the life-cycle input (R359, R394). -/
def lifeCycle (s : State) (st : Nat) : State :=
  if s.pwr.lcState = st % 8 then s
  else wipeStart { s with pwr := { s.pwr with lcState := st % 8 } }

/-- LIFE_CYCLE_CHANGE (R359). -/
def execLifeCycleChange (st : Nat) (s : State) : Res := .next (lifeCycle s st)

/-- A rise of the tamper input (R359). -/
def tamperRise (s : State) : State :=
  if s.pwr.tamper then s else wipeStart { s with pwr := { s.pwr with tamper := true } }

/-- TAMPER (R359). -/
def execTamper (s : State) : Res := .next (tamperRise s)

/-- TAMPER_DEASSERTED (R359). -/
def execTamperDeasserted (s : State) : Res := .next { s with pwr := { s.pwr with tamper := false } }

/-! ## Reset (R351 to R358) -/

/-- The classes of Table 14.6. -/
inductive RstClass where
  | cold | warm | fast
  deriving DecidableEq, Repr

/-- The registers that a reset of a class keeps: the vault; in class F the bank map, the spares, PT's offsets. -/
def regKept (c : RstClass) (o : Nat) : Bool :=
  (decide (Reg.vaultLast ≤ o) && decide (o < 0x90A4)) ||
  (c == .fast && ((decide (0x8400 ≤ o) && decide (o < 0x8800)) || o == Reg.bankSpareOk || o == Reg.ptDieOffset ||
    o == Reg.ptEpochOffsetLo || o == Reg.ptEpochOffsetHi))

/-- The registers after a reset of a class: LOCKED stays in class F, the clerk's votes name the present domains. -/
def regsAfter (s : State) (c : RstClass) : Table Word :=
  let kept := s.regs.filter (fun r => regKept c r.1)
  let kept := if c = .fast ∧ s.rgBit Reg.ptStatus 0 then tput kept Reg.ptStatus 1#32 else kept
  if domPresent s 35 then kept else tput kept Reg.pwrVoteClerkHi 0x17#32

/-- Memory after a reset of a class (Table 14.7, log 9): class C leaves banks, stacks and clerk memory undefined. -/
def memAfter (s : State) (c : RstClass) (m : Memory) (size : Nat) : Memory :=
  if c = .cold then m.markUndef 0 size s.freeCtr else m

/-- The counts of the vault with one more reset of a source (R358). -/
def vaultCount (s : State) (code : Nat) : State :=
  let t := s.setRg (Reg.vaultCnt code) (min (s.rg (Reg.vaultCnt code) + 1) 0xFFFF)
  t.setRg Reg.vaultLast code

/-- The vault found its backup supply lost at a power-on (R358). -/
def vaultLost (s : State) : State :=
  if s.pwr.backupLost then { s with pwr := { s.pwr with backupLost := false } }.setRgBit Reg.vaultStatus 0 true else s

/-- The ports of the build stand DOWN, every domain but AO is down (R353). -/
def resetPlaces (s : State) : State :=
  let t := s.build.links.foldl (fun t p => t.setLink p { t.link p with state := .down }) s
  upTo 36 (fun i t => t.setDom (i + 1) { state := .down, due := 0, timer := 0, expired := false, wake := none }) t

/-- The machine of State.reset with what a reset of a class keeps (R352, R353): memories, PT in class F, the inputs, the
audit buffer in classes W and F, the vault, the failed rows of the stacks' own DRAM. -/
def resetKeep (s : State) (c : RstClass) (code : Nat) : State :=
  { State.reset with
    pending := s.pending, build := s.build, out := s.out, freeCtr := s.freeCtr + 1,
    regs := regsAfter s c,
    pt := if c = .fast then s.pt else { raw := 0, slew := 0, off := 0, phase := 0, missing := 0, probe := none },
    bankMem := memAfter s c s.bankMem (264 * 2 ^ 21),
    bankMark := if c = .cold then [] else s.bankMark,
    stackMem := memAfter s c s.stackMem (s.build.nStacks * 40960 * 2 ^ 21),
    clerkMem := memAfter s c s.clerkMem 262144,
    extMem := s.extMem,
    edge := { State.reset.edge with badRows := s.edge.badRows },
    obs := { State.reset.obs with audit := if c = .cold then [] else s.obs.audit },
    pwr := { State.reset.pwr with
      asserted := true, last := code, lcState := s.pwr.lcState, tamper := s.pwr.tamper,
      dieId := s.pwr.dieId, clkMode := s.pwr.clkMode, bootSrc := s.pwr.bootSrc, backupLost := s.pwr.backupLost } }

/-- A reset of a source and class (R351 to R353): the sealed banks are wiped (R359), everything in flight is lost. -/
def resetDie (s : State) (code : Nat) (c : RstClass) : State :=
  let bs := sealedList s
  let t := (bs.flatMap (wipePhys s)).foldl zeroBank (resetPlaces (resetKeep s c code))
  vaultCount { t with pwr := { t.pwr with wiping := true, wipeAt := t.now, wipeBanks := bs } } code

/-- POWER_ON (R351). -/
def execPowerOn (s : State) : Res := .next (resetDie (vaultLost s) 0 .cold)

/-- BROWN_OUT (R351). -/
def execBrownOut (ao : Bool) (s : State) : Res := .next (resetDie s 1 (if ao then .cold else .warm))

/-- PIN (R394). -/
def execPin (s : State) : Res := .next (resetDie s 2 .warm)

/-- A write to RST_CTL (R351). -/
def rstCtlWrite (s : State) (v : Nat) : State := if bit v 31 ∧ v % 256 = 0xA5 then resetDie s 5 .fast else s

/-- SOFTWARE (R351). -/
def execSoftware (v : Word) (s : State) : Res := gateAO s (fun s => rstCtlWrite s v.toNat)

/-- DEBUG (R394). -/
def execDebug (s : State) : Res := .next (resetDie s 6 .fast)

/-- CLOCK_FAIL (R351). -/
def execClockFail (s : State) : Res := .next (resetDie s 7 .warm)

/-- The straps sampled at reset release (R354). -/
def sampleStraps (s : State) : State :=
  let b := s.build
  { s with pwr := { s.pwr with
    dieId := b.dieId % 16, clkMode := min 2 (b.clkMode % 4), bootSrc := if b.bootSrc % 4 = 3 then 0 else b.bootSrc % 4,
    strapErr := b.clkMode % 4 == 3 || b.bootSrc % 4 == 3 } }

/-- The domains wake under the clerk's votes once tclk has locked (R355). -/
def releaseWakes (s : State) : State :=
  let lock := if s.pwr.clkMode = 2 then 0 else 10000
  upTo 36 (fun i t =>
    let d := i + 1
    if domPresent t d && bit (clerkVotes t) d then
      let least := if d = 1 then 0 else 3000
      wakeRec (t.setDom d { state := .waking, due := t.now + lock + max least (wakeDelay t d), timer := 0,
                            expired := false, wake := none }) d 0 33
    else t) s

/-- Reset release (R354, R355). -/
def resetRelease (s : State) : State :=
  if s.pwr.asserted then
    releaseWakes (sampleStraps { s with pwr := { s.pwr with asserted := false, releasedAt := s.now, fresh := true } })
  else s

/-- RESET_RELEASE (R355). -/
def execResetRelease (s : State) : Res := .next (resetRelease s)

/-- VAULT_BACKUP_LOSS (R358): every counter returns to 0; LOST waits for the next power-on. -/
def execVaultBackupLoss (s : State) : Res :=
  .next (upTo 9 (fun i (t : State) => t.setRg (Reg.vaultCnt i) 0) { s with pwr := { s.pwr with backupLost := true } })

/-! ## The clerk's ROM (R356, R412) -/

/-- CRC-32 with polynomial 0x04C11DB7, most significant bit of each byte first, without a final inversion (log 20). -/
def crcByte (c : Nat) (b : Byte) : Nat :=
  (List.range 8).foldl (fun x _ => if bit x 31 then (x * 2 % 2 ^ 32) ^^^ 0x04C11DB7 else x * 2 % 2 ^ 32)
    (c ^^^ (b.toNat * 2 ^ 24))

/-- The CRC of bytes from the initial value of all ones (R391). -/
def crc32 (l : List Byte) : Nat := l.foldl crcByte 0xFFFFFFFF

/-- Whether an image in memory passes the ROM's checks (R412); it begins at address a. -/
def imageOk (m : Memory) (a : Nat) : Bool :=
  let w (i : Nat) : Nat := ofBytes (m.readN (a + 4 * i) 4)
  w 0 == 0x4B524C43 && w 1 % 4 == 0 && decide (32 ≤ w 1) && decide (w 1 ≤ 262144) && w 2 % 4 == 0 &&
  decide (32 ≤ w 2) && decide (w 2 + 4 ≤ w 1) && w 5 == 0 && w 6 == 0 && w 7 == 0 &&
  w 4 == crc32 (m.readN (a + 32) (w 1 - 32))

/-- CLERK_BOOT.STATE; the clerk watchdog's period starts with the firmware (R330). -/
def setBoot (s : State) (n : Nat) : State :=
  { s with ras := { s.ras with boot := n, wdStart := s.ras.clerkWatch, wdStage := 0 } }

/-- The ROM's alert (R356): the manual gives its code and data no values, so they are free (log 4). -/
def romAlert (s : State) : State :=
  event (({ s with freeCtr := s.freeCtr + 1 }).setRgBit Reg.clerkStatus 1 true) s.srcClerk none 0x30 4
    ((Config.freeWord s.freeCtr 0).toNat % 2 ^ 32) ((Config.freeWord s.freeCtr 1).toNat % 2 ^ 32)

/-- The clerk leaves reset and its ROM looks for an image (R355, R356, R412). -/
def clerkStart (s : State) : State :=
  let at_ := s.pwr.releasedAt + (if s.pwr.clkMode = 2 then 170000 else 30000)
  if s.pwr.fresh ∧ at_ ≤ s.now then
    let t := { s with pwr := { s.pwr with fresh := false } }
    if t.pwr.bootSrc ≠ 0 then setBoot t 1
    else if imageOk t.stackMem 0 then
      setBoot { t with clerkMem := t.clerkMem.copyFrom t.stackMem 0 (ofBytes (t.stackMem.readN 4 4)) 0 } 4
    else romAlert (setBoot t 3)
  else s

/-- CLERK_START (R355). -/
def execClerkStart (s : State) : Res := gateIn dFAB s clerkStart

/-- A write to CLERK_BOOT (R412, Table 17.11). -/
def clerkBootWrite (s : State) (v : Nat) : State :=
  if bit v 31 ∧ (s.ras.boot = 1 ∨ s.ras.boot = 3) then
    (if imageOk s.clerkMem 0 then setBoot s 4 else romAlert (setBoot s 3))
  else s

/-- CLERK_BOOT_GO (R412). -/
def execClerkBootGo (v : Word) (s : State) : Res := gate dFAB 7 0 (.clerkBootGo v) s (fun s => clerkBootWrite s v.toNat)

end Sys2Proof.Machine
end

