-- ==== Sys2Proof/Machine/Formats.lean ====
section
/-! DEFINITION. The codes and formats of the mint (Tables 9.1, 9.2 and 9.4). -/

namespace Sys2Proof.Machine

/-! ## Codes and formats (Tables 9.1 to 9.4) -/

/-- The fields of a format code and a rounding code. -/
structure MCode where
  inF : Nat
  outF : Nat
  layout : Nat
  trans : Bool
  deal : Bool
  gsz : Nat
  cols : Nat
  rnd : Nat
  ovf : Bool
  pitch : Nat
  deriving DecidableEq, Repr

/-- The codes of Tables 9.1 and 9.4. -/
def mcode (fc rc : Nat) : MCode :=
  { inF := bits fc 0 4, outF := bits fc 4 4, layout := bits fc 8 2, trans := bit fc 10, deal := bit fc 11,
    gsz := bits fc 12 2, cols := bits fc 16 16, rnd := bits rc 0 2, ovf := bit rc 2, pitch := bits rc 8 24 }

/-- A reserved value (R208, Table 9.4). -/
def MCode.reserved (c : MCode) : Bool :=
  decide (14 ≤ c.inF) || decide (13 ≤ c.outF) || c.gsz == 3 || (c.trans && decide (c.layout < 2)) || c.rnd == 3

/-- A format (Table 9.2): the element's binary format where it has one, its bits, elements per unit, scale bytes. -/
structure MFmt where
  ff : Option FFmt
  w : Nat
  unit : Nat
  scale : Nat
  deriving DecidableEq, Repr

/-- Table 9.2; CWS decodes to 16-bit elements in units of 32. -/
def mfmt (code gsz : Nat) : MFmt :=
  let g := nth 32 [32, 64, 128] gsz
  nth ⟨none, 16, 32, 0⟩
    [⟨some f32, 32, 1, 0⟩, ⟨some f16, 16, 1, 0⟩, ⟨some bf16, 16, 1, 0⟩, ⟨some e4m3, 8, 1, 0⟩, ⟨some e5m2, 8, 1, 0⟩,
     ⟨some e4m3, 8, 32, 1⟩, ⟨some e5m2, 8, 32, 1⟩, ⟨some e2m3, 6, 32, 1⟩, ⟨some e3m2, 6, 32, 1⟩,
     ⟨some e2m1, 4, 32, 1⟩, ⟨none, 8, 32, 1⟩, ⟨none, 8, g, 2⟩, ⟨none, 4, g, 2⟩] code

/-- Bytes per unit. -/
def MFmt.bytes (f : MFmt) : Nat := f.unit * f.w / 8 + f.scale

/-- The rows of a matrix source. -/
def MCode.rows (c : MCode) (count : Nat) : Nat := if c.cols = 0 then 1 else count / (32 * c.cols)
/-- The columns of a source. -/
def MCode.width (c : MCode) (count : Nat) : Nat := if c.cols = 0 then count else 32 * c.cols
/-- Tile rows and columns of a tile layout; COL counts as 64 × 64. -/
def MCode.tile (c : MCode) : Nat × Nat := if c.layout = 3 then (32, 128) else (64, 64)

end Sys2Proof.Machine
end

