-- ==== Sys2Proof/Machine/RunAhead.lean ====
section
/-! DEFINITION. The run-ahead of a stream program's front: the granules that its reads hold, and its allowance (R174,
R178). -/

namespace Sys2Proof.Machine

/-- Whether an item of the back is a NEXT. -/
def isNext (b : BackItem) : Bool := match b.op with
  | .next _ _ _ _ _ => true
  | _ => false

/-- The bytes that a[AS] and a[AD] advance by under PI for a source that is no CWS (R171, R217, R224). -/
def mintAdvance (c : MCode) (n : Nat) : Nat × Nat :=
  let i := mfmt c.inF c.gsz
  let o := mfmt c.outF c.gsz
  let size := n / o.unit * o.bytes
  (if c.pitch = 0 then n / i.unit * i.bytes else c.rows n * c.pitch * 128,
   if c.deal then ((size + 127) / 128 + 7) / 8 * 128 else size)

/-- A range of addresses: in host memory or not, its first byte, its bytes. -/
structure Span where
  host : Bool
  addr : Nat
  len : Nat
  deriving DecidableEq, Repr

/-- Whether two ranges share a granule. -/
def Span.meets (a b : Span) : Bool :=
  a.host == b.host && decide (0 < a.len) && decide (0 < b.len) && decide (a.addr / 128 ≤ (b.addr + b.len - 1) / 128) &&
  decide (b.addr / 128 ≤ (a.addr + a.len - 1) / 128)

/-- Whether a range of one list shares a granule with one of another. -/
def spansMeet (l r : List Span) : Bool := l.any (fun a => r.any a.meets)

/-- Whether a back item reads memory. -/
def itemReads (b : BackItem) : Bool := match b.op with
  | .rd _ _ _ => true
  | .copy _ _ _ _ _ => true
  | .red _ _ _ _ => true
  | .gath _ _ _ _ _ => true
  | .scat _ _ _ _ _ => true
  | .pwalk _ _ _ _ _ => true
  | .mint _ _ _ _ _ _ _ => true
  | _ => false

/-- Whether a back item writes memory. -/
def itemWrites (b : BackItem) : Bool := match b.op with
  | .wr _ _ _ => true
  | .copy _ _ _ _ _ => true
  | .red _ _ _ _ => true
  | .gath _ _ _ _ _ => true
  | .scat _ _ _ _ _ => true
  | .pwalk _ _ _ _ _ => true
  | .mint _ _ _ _ _ _ _ => true
  | _ => false

/-- Whether a back item is a FENCE. -/
def isFence (b : BackItem) : Bool := match b.op with
  | .fence _ => true
  | _ => false

/-- Granules of the run-ahead buffer that n bytes take. -/
def heldGranules (n : Nat) : Nat := (n + 127) / 128

/-- Granules that what an item's reads gave holds until the back performs it (R174). -/
def itemHeld (b : BackItem) : Nat := match b.got with
  | some g => heldGranules g.idx.length + heldGranules g.bytes.length
  | none => 0

/-- Granules that the reads of the next program hold (R178). -/
def aheadReads (m : Stream) : Nat := ((m.back.dropWhile (fun b => !isNext b)).map itemHeld).sum

/-- Granules of the run-ahead buffer that a program holds: what its reads gave, and its stage (R174). -/
def runAhead (m : Stream) : Nat := heldGranules m.stage.length + (m.back.map itemHeld).sum

/-- The running program contexts of a mover. -/
def runningOf (s : State) (m : Nat) : List (Nat × PCtx) := s.work.pctxs.filter (fun e => e.1 / 8 == m && !e.2.done)

/-- The allowance of a running program context (R174, Table 7.8). -/
def runAllowance (s : State) (k : Nat) : Nat :=
  min (min 4096 (max 256 (s.rgField Reg.strmCfg 0 13))) (4096 - 256 * ((runningOf s (k / 8)).length - 1))

/-- Granules of the buffer that the other running program contexts of a mover hold, or may still take of the 256 that each is
guaranteed (R174). -/
def othersHold (s : State) (k : Nat) : Nat :=
  ((runningOf s (k / 8)).map (fun e => if e.1 = k then 0 else max 256 ((e.2.stream.map runAhead).getD 0))).sum

/-- Whether g more granules fit a program's allowance, of which the next program leaves 256 (`ahead`), and the mover's buffer
(R174, R178). -/
def runFits (s : State) (k : Nat) (m : Stream) (ahead : Bool) (g : Nat) : Bool :=
  decide (runAhead m + g ≤ runAllowance s k) && (!ahead || decide (aheadReads m + g + 256 ≤ runAllowance s k)) &&
  decide (runAhead m + g + othersHold s k ≤ 4096)

end Sys2Proof.Machine
end

