-- ==== Sys2Proof/Machine/Obs.lean ====
section
/-! DEFINITION. The audit, the global stop, DEBUG space, starvation, the watchdogs and the lock-up detector (R101,
R330 to R332, R360 to R372). -/

namespace Sys2Proof.Machine

/-! ## What tables look like to a reader (Tables 3.4, 3.7, 11.8) -/

/-- Fields (width, value) packed low bit first. -/
def packF : List (Nat × Nat) → Nat
  | [] => 0
  | (w, v) :: r => v % 2 ^ w + 2 ^ w * packF r

/-- BAR_STATUSc. -/
def barStatus (s : State) (c : Nat) : Nat :=
  let b := s.bar c
  packF [(1, b2n b.toggle), (1, b2n b.expect), (1, b2n (barOut s c)), (1, b2n b.wire), (1, b2n (b.quiet != .off)),
         (9, b.arrived), (9, b.held)]

/-- The 64-bit word q (0 to 3) of a context entry's software half (Table 3.4). -/
def ctxWord (s : State) (c q : Nat) : Nat :=
  let x := s.ctx c
  if q = 0 then packF [(1, b2n x.bound), (6, x.domain), (4, x.cls), (1, b2n x.spin), (4, 0), (16, x.asid),
                       (14, x.flagBase), (2, 0), (11, x.flagCount)]
  else if q = 1 then x.homeNode
  else if q = 2 then x.kvList
  else packF [(21, x.kvLen), (3, 0), (5, x.kvShift)]

/-- The code of a frame state (Table 3.8). -/
def frameCode : FrameState → Nat
  | .absent => 0 | .free => 1 | .mapped => 2 | .unmapping => 3 | .retiring => 4 | .retired => 5 | .withdrawn => 6

/-- The 64-bit word q (0 or 1) of a frame ledger entry (Table 3.7). -/
def frameWord (s : State) (f q : Nat) : Nat :=
  let x := s.frame f
  if q = 0 then packF [(16, x.asid), (27, x.vpn), (3, frameCode x.state), (2, frameMode s f), (1, b2n x.w),
                       (1, b2n x.a), (1, b2n x.linked)]
  else packF [(17, x.next.getD 0), (1, b2n x.next.isSome)]

/-- A bucket entry (R77). -/
def bucketWord (s : State) (h : Nat) : Nat :=
  let x := tget none s.xl.buckets h
  packF [(17, x.getD 0), (1, b2n x.isSome)]

/-! ## The audit (R372, Tables 15.3 and 15.4; log 13) -/

/-- Puts 64-bit words into an image from a byte offset on. -/
def putWords (t : Table DWord) (off : Nat) (ws : List Nat) : Table DWord :=
  (ws.foldl (fun (p : Nat × Table DWord) w => (p.1 + 1, tset 0#64 p.2 p.1 (BitVec.ofNat 64 w))) (off / 8, t)).2

/-- 32-bit words in pairs. -/
def pairWords : List Nat → List Nat
  | [] => []
  | [a] => [a % 2 ^ 32]
  | a :: b :: r => (a % 2 ^ 32 + b % 2 ^ 32 * 2 ^ 32) :: pairWords r

/-- The 64-bit words of an entry of 16 B or 32 B. -/
def entryWords (n v : Nat) : List Nat := (List.range n).map (fun i => bits v (64 * i) 64)

/-- The domains up, as a mask. -/
def upMask (s : State) : Nat := ((List.range 37).map (fun d => b2n (isUp s d) * 2 ^ d)).sum

/-- Section 0, the header. -/
def audHeader (s : State) (trigger tsrc fin : Nat) : List Nat :=
  [s.now, fin, s.rg64 Reg.ptEpochOffsetLo Reg.ptEpochOffsetHi,
   packF [(4, trigger), (12, tsrc), (4, s.pwr.dieId), (4, 0), (8, 1)], upMask s, 0, 0, 0]

/-- Section 1, the tag pools: INUSE and PEAK. -/
def audTags (s : State) : List Nat :=
  let v := packF ((List.range 6).flatMap (fun p => [(16, tagsUsed s p none), (16, s.rg (peakReg p))]))
  entryWords 8 v

/-- Section 2, the barrier channels. -/
def audBars (s : State) : List Nat :=
  (List.range 32).flatMap (fun c =>
    entryWords 2 (packF [(32, barStatus s c), (32, (s.bar c).round), (32, s.rg (Reg.barRelease (2 * c)))]))

/-- Section 3, the reservation meters in 256 B units. -/
def audMeters (s : State) : List Nat :=
  pairWords ((List.range 32).map (fun i => tget 0 s.regu.meter (meterKey (i % 2) (i / 2)) / 256))

/-- The code of a channel state (Table 12.2). -/
def chanCode : ChanState → Nat
  | .active => 0 | .noticed => 1 | .retraining => 2 | .mirror => 3 | .withdrawn => 4 | .spareIdle => 5
  | .spareMirror => 6 | .spareFailed => 7 | .replaced => 8 | .absent => 9

/-- Section 4, the channels. -/
def audChans (s : State) : List Nat :=
  (List.range 66).flatMap (fun i =>
    let x := s.chan (i / 33) (i % 33)
    let old := x.entries.head?.bind (fun e => s.flight e.id)
    let left := ((x.entries.filter (fun e => e.reserved)).length) * 128
    entryWords 2 (packF [(4, chanCode x.state), (12, x.entries.length), (8, min x.level 15),
      (12, (old.map (fun f => f.seg.src)).getD 0), (24, (old.map (fun f => f.seg.dl)).getD 0), (32, left)]))

/-- Section 5, the die-link lanes. -/
def audLanes (s : State) : List Nat :=
  pairWords ((List.range 128).map (fun i =>
    let l := s.link (i / 32)
    let lane := i / 2 % 16
    let w := l.waiting.find? (fun o => (outWay o).2.1 == lane && (outWay o).2.2.1 == (i % 2 == 1))
    packF [(8, 32 - tget 0 l.credits (creditKey lane (i % 2 == 1))), (12, (w.map (outSrc s)).getD 0)]))

/-- Section 6, the router outputs. -/
def audRouters (s : State) : List Nat :=
  (List.range 160).map (fun i =>
    let node := i / 5
    let out := i % 5
    let held := (List.range 32).filterMap (fun r =>
      let v := tget 0 s.mesh.rails (railKey node out r)
      if v = 0 then none else s.flight (v - 1))
    let hold := held.foldl (fun m f => max m (s.clk.tc - f.holdStart.getD s.clk.tc)) 0
    let heads := (s.mesh.flights.map (·.2)).filter (waitsAt s node out)
    packF [(16, held.length), (12, ((firstRanked (flightRank s) heads).map (fun f => f.seg.src)).getD 0), (36, hold)])

/-- Section 7, the tags of every unit. -/
def audUnits (s : State) : List Nat :=
  pairWords ((List.range 256).map (fun u =>
    let n (p : Nat) := tagsUsed s p (some (s.src u))
    packF [(10, n 0), (10, n 1), (10, n 2 + n 3 + n 4 + n 5)]))

/-- Section 8, the tellers; those of a domain that is down read as zeros. -/
def audTellers (s : State) : List Nat :=
  (List.range 264).flatMap (fun b =>
    let t := s.teller b
    let act := t.entries.find? (fun e => e.state == .active)
    let old := t.entries.head?
    let v := packF [(16, match t.holder with
        | .owner => 0
        | .tags => 65535
        | .entry id => id % 65534 + 1), (8, t.entries.length), (16, (act.map (fun e => e.id)).getD 0),
      (8, (act.map (fun e => e.progress)).getD 0),
      (12, ((old.bind (fun e => s.flight e.id)).map (fun f => f.seg.src)).getD 0),
      (24, (old.map (fun e => e.firstTry)).getD 0), (1, b2n (s.rgBit (Reg.tellerStarveFlag (b / 32)) (b % 32)))]
    if isUp s (dHome (b / 8)) then entryWords 2 v else [0, 0])

/-- Program contexts that wait at a side of a slot ring. -/
def ringWaits (s : State) (r side : Nat) : Nat := (slotWaiters s r side).countP (fun w => w.who.pctx.isSome)

/-- Section 9, the slot rings and cheque queues with waiters. -/
def audObjects (s : State) : List Nat :=
  let rings := s.float.slots.filterMap (fun r =>
    let p := ringWaits s r.1 0
    let c := ringWaits s r.1 1
    let eng := r.2.engP.length + r.2.engC.length
    if p + c + eng = 0 then none else some (packF [(4, 0), (16, r.1), (12, p), (12, c), (12, eng)]))
  let queues := s.float.queues.filterMap (fun q =>
    let w (put : Bool) := (pctxWaiting s (fun w => match w with
      | .take n _ _ => !put && n == q.1
      | .put n => put && n == q.1
      | _ => false)).length
    let eng := q.2.engT.length + q.2.engP.length
    if w false + w true + eng = 0 then none
    else some (packF [(4, 1), (16, q.1), (12, w false), (12, w true), (12, eng)]))
  (rings ++ queues).take 512

/-- The code of a ring state (Table 6.10). -/
def ringCode : RingState → Nat
  | .disabled => 0 | .running => 1 | .stopped => 2 | .error => 3

/-- HEAD − DONE of a command ring. -/
def ringBehind (s : State) (r : Nat) : Nat := (s.rg (Reg.cmdrHead r) + 2 ^ 32 - s.rg (Reg.cmdrDone r)) % 2 ^ 32

/-- Section 10, the command rings. -/
def audRings (s : State) : List Nat :=
  pairWords ((List.range 1024).map (fun r =>
    packF [(4, ringCode (s.ring r).state), (12, (cmdRunning s r).length), (12, min 4095 (ringBehind s r))]))

/-- The wait object of a program context. -/
def waitObject : PWait → Nat
  | .flag p => p
  | .slot r _ _ => r
  | .take q _ _ => q
  | .put q => q
  | .barrier c => c
  | .release k => k
  | .issue => 0

/-- Section 11, the program contexts: the program that a front fetches, what it waits for. -/
def audPctxs (s : State) : List Nat :=
  (List.range 256).flatMap (fun k =>
    match s.pctx k with
    | none => [0, 0, 0, 0]
    | some x =>
      entryWords 4 (packF [(16, x.ring), (32, x.seq), (16, (x.stream.map (fun m => m.front.pc)).getD 0),
        (4, if x.waitsFor (fun _ => true) then 2 else 1),
        (20, (((x.frontWait.map (·.1)).orElse (fun _ => x.wait)).map waitObject).getD 0),
        (16, (x.stream.map runAhead).getD 0),
        (8, (x.status.map stCode).getD 0)]))

/-- Section 12, the engine waiter entries. -/
def audWaiters (s : State) : List Nat :=
  let es := s.sync.waiters.filterMap (fun w => match w.who with
    | .engine _ _ _ node => some (packF [(1, 1), (14, w.flag), (2, w.mode), (5, node)])
    | _ => none)
  pairWords (es.take 4096)

/-- Section 13, the purses. -/
def audPurses (s : State) : List Nat :=
  (List.range 2560).map (fun k => packF [(32, tget 0 s.regu.balance k), (32, tget 0 s.regu.odUsed k)])

/-- The 64 KiB image of an audit sampled now: the sections of FAB, EDGE and the gateways that are down are zeros. -/
def auditImage (s : State) (trigger tsrc fin : Nat) : Table DWord :=
  let fab (l : List Nat) := if isUp s 1 then l else []
  let t := putWords [] 0 (audHeader s trigger tsrc fin)
  let t := putWords t 0x40 (fab (audTags s))
  let t := putWords t 0x80 (audBars s)
  let t := putWords t 0x280 (fab (audMeters s))
  let t := putWords t 0x300 (if isUp s 34 then audChans s else [])
  let t := putWords t 0x720 (if isUp s dEDGE then audLanes s else [])
  let t := putWords t 0x920 (fab (audRouters s))
  let t := putWords t 0xE20 (fab (audUnits s))
  let t := putWords t 0x1220 (audTellers s)
  let t := putWords t 0x22A0 (fab (audObjects s))
  let t := putWords t 0x32A0 (fab (audRings s))
  let t := putWords t 0x42A0 (fab (audPctxs s))
  let t := putWords t 0x62A0 (fab (audWaiters s))
  let t := putWords t 0xA2A0 (fab (audPurses s))
  putWords t 0xF2A0 (List.replicate 14 s.now)

/-- AUDIT_STATUS.FULL. -/
def auditFull (s : State) : Bool := s.rgBit Reg.auditStatus 1

/-- A trigger of an audit: missed while the buffer is full or a sweep runs (R372). -/
def auditTake (s : State) (trigger tsrc : Nat) : State :=
  if auditFull s || s.obs.auditBusy then s.countRg Reg.auditMissed 1
  else
    { s with obs := { s.obs with audit := auditImage s trigger tsrc 0, auditBusy := true,
                                 auditEnd := s.clk.tc + 1024 } }.setRgBit Reg.auditStatus 0 true

/-- A watchdog, lock-up or starvation trigger, taken while its bit of AUDIT_CTL is set. -/
def auditArmed (s : State) (trigger tsrc : Nat) : State :=
  if s.rgBit Reg.auditCtl (if trigger = 4 then 2 else 1) then auditTake s trigger tsrc else s

/-- AUDIT_TAKE (R372): trigger 0 is the TAKE write, 1 to 4 the armed triggers. -/
def execAuditTake (trigger src : Nat) (s : State) : Res :=
  gateAO s (fun s =>
    if trigger = 0 then auditTake s 0 0
    else if trigger ≤ 4 then auditArmed s trigger (src % 4096) else s)

/-- The sweep ends after 1,024 tc: FULL is set and END recorded (R372). -/
def auditDone (s : State) : State :=
  if s.obs.auditBusy && decide (s.obs.auditEnd ≤ s.clk.tc) then
    { s with obs := { s.obs with audit := putWords s.obs.audit 8 [s.now], auditBusy := false } }.setRg Reg.auditStatus 2
  else s

/-- AUDIT_DONE (R372). -/
def execAuditDone (s : State) : Res := gateAO s auditDone

/-- A write to AUDIT_CTL (Table 15.9). -/
def auditCtlWrite (s : State) (v : Nat) : State :=
  let t := s.setRg Reg.auditCtl (v % 8 / 2 * 2)
  let t := if bit v 3 then t.setRgBit Reg.auditStatus 1 false else t
  if bit v 0 then auditTake t 0 0 else t

/-- AUDIT_RELEASE (R372). -/
def execAuditRelease (v : Word) (s : State) : Res :=
  gateAO s (fun s => if bit v.toNat 3 then auditCtlWrite s v.toNat else s)

/-! ## Counters (R379) -/

/-- A write to CNT_CTL: CLR zeros every counter but for what it counted in this tc (R12, R379). -/
def cntCtlWrite (s : State) (v : Nat) : State :=
  let t := s.setRg Reg.cntCtl (v % 2)
  if bit v 1 then
    { t with obs := { t.obs with
        counters := s.obs.counters.foldl (fun m c => tset 0 m c.1 (s.counted (2 ^ 21 + c.1))) [] } }
  else t

/-- CNT_CLR (R379). -/
def execCntClr (v : Word) (s : State) : Res :=
  gate dFAB 7 0 (.cntClr v) s (fun s => if bit v.toNat 1 then cntCtlWrite s v.toNat else s)

/-! ## The global stop (R360 to R368) -/

/-- Whether the invasive features work (R360). -/
def invasive (s : State) : Bool := s.pwr.lcState == 3 && !s.pwr.wiping

/-- STOP_STATUS.LC_ERR is set (R360). -/
def lcErr (s : State) : State := s.setRgBit Reg.stopStatus 3 true

/-- Now in sixteenths of a nanosecond. -/
def nowFine (s : State) : Nat := ((s.pt.raw : Int) - s.pt.off).toNat

/-- The tick of an arming: STOP_AT, or now + 64 ns rounded up where it lies nearer (R361). -/
def stopArm (s : State) : State :=
  if s.obs.holds then s
  else if !invasive s then lcErr s
  else
    let at_ := s.rg64 Reg.stopAtLo Reg.stopAtHi
    let near := decide (16 * at_ < nowFine s + 1024)
    let tk := if near then (nowFine s + 1024 + 15) / 16 else at_
    let t := if near then s.setRgBit Reg.stopStatus 2 true else s
    { t with obs := { t.obs with tick := some tk } }.setRg64 Reg.stopTickLo Reg.stopTickHi tk

/-- STOP_ARM (R361). -/
def execStopArm (v : Word) (s : State) : Res := gateAO s (fun s => if bit v.toNat 0 then stopArm s else s)

/-- The stages a granule of a flight has passed (R105). -/
def stageOf (x : Flight) (i : Nat) : Nat := x.pos.countP (fun p => decide (i < p))

/-- An in-transit entry of a flight. -/
def transitOf (s : State) (x : Flight) (i kind node path : Nat) (d : Granule) : Transit :=
  { sent := x.issued, supplier := supplierSrc s x.seg, index := i, count := x.seg.count - 1, kind := kind, link := false,
    node := node, path := path, lane := 0, target := segGranule x.seg i, data := d }

/-- The in-transit entries of a flight (R364): the granules that have left their supplier and have not come to their sink,
each at the router of the stage before which it stands, on the rail by which it came there; a granule that a bank has read
leaves it with the first stage. The stamp is that of the segment's issue (log 13). -/
def flightTransit (s : State) (x : Flight) : List Transit :=
  let way := stages s x
  ((List.range x.seg.count).filter (fun i => decide (delivered x ≤ i) && decide (i < x.sent) &&
      (decide (0 < stageOf x i) || !(segReads x.seg && x.path == 0)))).map (fun i =>
    let k := stageOf x i
    transitOf s x i (b2n (segReads x.seg)) (nth (0, 0) way k).1 (if k = 0 then 0 else nth 0 x.rails (k - 1) % 4)
      (nth (0#1024, 0#128) x.seg.data i).1)

/-- The in-transit entry of a header that stands at a router input (R364): `PATH` is the direction of its input. -/
def hdrTransit (s : State) (h : Hdr) : Option Transit :=
  if 4 < h.inp then none else (s.flight h.id).map (fun x => transitOf s x 0 2 h.node (h.inp % 4) 0#1024)

/-- The in-transit entry of a granule that waits in a lane of a die-link port (R364). -/
def laneTransit (s : State) (p : Nat) (o : Out) : List Transit :=
  let mk (kind a : Nat) (d : Granule) : List Transit :=
    [{ sent := s.now, supplier := outSrc s o, index := 0, count := 0, kind := kind, link := true,
       node := unitNode (162 + p) % 32, path := p, lane := (outWay o).2.1, target := a, data := d }]
  match o with
  | .link _ _ _ _ wr _ a d _ => if wr then mk 0 a d else mk 2 a 0#1024
  | .answer _ _ _ _ _ _ d => mk 1 0 d
  | .control _ _ _ _ _ _ _ a d => mk 0 a (BitVec.ofNat 1024 d.toNat)
  | _ => []

/-- The in-transit list of a cut (R364): granules on the mesh, those in the lanes of the die links, headers. -/
def transitList (s : State) : List Transit :=
  (s.mesh.flights.flatMap (fun f => flightTransit s f.2)) ++
    ((List.range 4).flatMap (fun p => (s.link p).waiting.flatMap (laneTransit s p))) ++ s.mesh.hdrs.filterMap (hdrTransit s)

/-- Whether a unit has a request presented or accepted and not answered (R365). -/
def unitPending (s : State) (u : Nat) : Bool :=
  !(s.port u).tags.isEmpty || s.mesh.flights.any (fun f => segUnit s f.2.seg == u)

/-- The STOP_PENDING words (R365). -/
def stopPendings (s : State) : State :=
  upTo 6 (fun w t => t.setRg (Reg.stopPending w) ((List.range 32).map (fun u => b2n (unitPending t (32 * w + u)) * 2 ^ u)).sum) s

/-- The records that wait when the tick comes are placed (R363). -/
def placeAll (s : State) : State := s.evl.waiting.foldl (fun t r => evlPlace t r.src) s

/-- The stop at its tick (R362 to R367): the cut. A stop whose life-cycle state no longer permits it is refused (R360). -/
def stopCut (s : State) : State :=
  if !invasive s then lcErr { s with obs := { s.obs with tick := none } }
  else
    let t := placeAll s
    let tr := (transitList t).take 6656
    let t := stopPendings t
    let t := { t with obs := { t.obs with tick := none, holds := true, line6 := true, transit := tr, held := [],
                                          cut := auditImage t 5 0 t.now } }
    t.setRg Reg.stopTransitCount tr.length

/-- GLOBAL_STOP (R362). -/
def execGlobalStop (s : State) : Res :=
  gateAO s (fun s => match s.obs.tick with
    | some tk => if tk ≤ s.now then stopCut s else s
    | none => s)

/-- A write of 1 to STOP_CTL.ACK deasserts line 6 (R366). -/
def stopAck (s : State) : State := { s with obs := { s.obs with line6 := false } }

/-! ## DEBUG space (R370, Table 15.2) -/

/-- The layout of a DEBUG offset: its region and the byte in it. -/
def debugRegion (o : Nat) : Nat := bits o 32 5
/-- The byte offset in a DEBUG region. -/
def debugByte (o : Nat) : Nat := bits o 0 32

/-- The 32 B of an in-transit entry (Table 15.1). -/
def transitWord (t : Transit) (q : Nat) : Nat :=
  if q = 0 then t.sent
  else if q = 1 then packF [(12, t.supplier), (4, t.index), (4, t.count), (2, t.kind), (1, b2n t.link), (5, t.node),
                            (2, t.path), (4, t.lane)]
  else if q = 2 then t.target % 2 ^ 56 else 0

/-- An in-transit entry that does not exist. -/
def noTransit : Transit :=
  { sent := 0, supplier := 0, index := 0, count := 0, kind := 0, link := false, node := 0, path := 0, lane := 0,
    target := 0, data := 0#1024 }

/-- The check byte of word w of the banks: what the code gives fresh data; a byte that shows an error is free (log 8). -/
def checkOf (s : State) (w : Nat) : Nat :=
  match tfind s.bankMark w with
  | none => (Config.checkByte (BitVec.ofNat 64 (ofBytes (s.bankMem.readN (8 * w) 8))) (w / 16)).toNat
  | some _ => (Config.freeWord w s.now).toNat % 256

/-- The 32-bit half of a 64-bit word at a 4 B offset. -/
def halfWord (w o : Nat) : Nat := if o % 8 < 4 then w % 2 ^ 32 else w / 2 ^ 32 % 2 ^ 32

/-- Byte b of a context's hardware state (R64). -/
def hwByte (s : State) (c b : Nat) : Nat := (Config.hwState s.freeCtr c b).toNat

/-- A 4 B read of DEBUG space during a stop. -/
def debugRead (s : State) (o : Nat) : Status × Nat :=
  let r := debugRegion o
  let x := debugByte o
  if r = 0 then (if x < 264 * 2 ^ 21 then (.ok, ofBytes (s.bankMem.readN x 4)) else (.faultProt, 0))
  else if r = 1 then
    (if x < 264 * 2 ^ 18 then (.ok, ((List.range 4).map (fun i => checkOf s (x + i) * 256 ^ i)).sum) else (.faultProt, 0))
  else if r = 2 then
    (if x < 40960 * 64 then
      (.ok, if x % 64 < 32 then halfWord (ctxWord s (x / 64) (x % 64 / 8)) x
            else ((List.range 4).map (fun i => hwByte s (x / 64) (x % 64 - 32 + i) * 256 ^ i)).sum)
     else (.faultProt, 0))
  else if r = 3 then (if x < 16384 * 8 then (.ok, halfWord (flagWord s (x / 8)).toNat x) else (.faultProt, 0))
  else if r = 4 then
    (if x < 81920 * 16 then (.ok, halfWord (frameWord s (x / 16) (x % 16 / 8)) x)
     else if 0x2000000 ≤ x ∧ x < 0x2000000 + 32768 * 4 then (.ok, bucketWord s ((x - 0x2000000) / 4))
     else (.faultProt, 0))
  else if r = 5 then
    (if x < 6656 * 32 then (.ok, halfWord (transitWord (nth noTransit s.obs.transit (x / 32)) (x % 32 / 8)) x)
     else (.faultProt, 0))
  else if r = 6 then
    (if x < 6656 * 128 then (.ok, bits (nth noTransit s.obs.transit (x / 128)).data.toNat (8 * (x % 128)) 32)
     else (.faultProt, 0))
  else if r = 7 then (if x < 65536 then (.ok, halfWord (tget 0#64 s.obs.cut (x / 8)).toNat x) else (.faultProt, 0))
  else (.faultProt, 0)

/-- A debug write of bank data: fresh check bits for its word. -/
def debugBank (s : State) (x v : Nat) : State :=
  { s with bankMem := s.bankMem.writeN x (toBytes 4 v), bankMark := terase s.bankMark (x / 8) }

/-- A debug write of the check byte of word w: the data stands, the word shows what the code makes of the byte; a
corrected word shows its corrected data (log 8). -/
def debugCheck (s : State) (w chk : Nat) : State :=
  let d := BitVec.ofNat 64 (ofBytes (s.bankMem.readN (8 * w) 8))
  let c := Config.checkClass d (w / 16) (BitVec.ofNat 8 chk)
  if c = 0 then { s with bankMark := terase s.bankMark w }
  else if c = 1 then
    { s with bankMem := s.bankMem.writeN (8 * w) (toBytes 8 (Config.checkFix d (w / 16) (BitVec.ofNat 8 chk)).toNat),
             bankMark := tput s.bankMark w .ce }
  else { s with bankMark := tput s.bankMark w .ue }

/-- A debug write of a flag: VALUE changes in the frozen store; what follows it waits for the stop's end (R276). -/
def debugFlag (s : State) (x v : Nat) : State :=
  if x % 8 = 0 then
    let t := flagPut s (x / 8) (bit v 0) (s.src 168)
    { t with sync := { t.sync with stopFlags := addMem (x / 8) t.sync.stopFlags } }
  else s

/-- A 4 B write of DEBUG space during a stop: a write to a read-only region is ignored. -/
def debugWrite (s : State) (o v : Nat) : Status × State :=
  let r := debugRegion o
  let x := debugByte o
  if (debugRead s o).1 ≠ .ok then (.faultProt, s)
  else if r = 0 then (.ok, debugBank s x v)
  else if r = 1 then (.ok, upTo 4 (fun i t => debugCheck t (x + i) (bits v (8 * i) 8)) s)
  else if r = 3 then (.ok, debugFlag s x v)
  else (.ok, s)

/-- A 4 B access to DEBUG space (R370): served only while a stop holds and the invasive features work. -/
def debugAccess (s : State) (o : Nat) (wr : Option Nat) : Status × Nat × State :=
  if o % 4 ≠ 0 then (.faultAlign, 0, s)
  else if !s.obs.holds then (.faultProt, 0, s)
  else if !invasive s then (.faultProt, 0, lcErr s)
  else match wr with
    | none => ((debugRead s o).1, (debugRead s o).2, s)
    | some v => ((debugWrite s o v).1, 0, (debugWrite s o v).2)

/-- The answer to an access. -/
def replied (r : Status × Nat × State) : State := r.2.2.emit (.reply r.1 (BitVec.ofNat 64 r.2.1))

/-- DEBUG_ACCESS (R370): the debug unit answers whatever is frozen. -/
def execDebugAccess (off : Nat) (wr : Option Word) (s : State) : Res :=
  gateRun s (fun s => replied (debugAccess s off (wr.map (fun v => v.toNat))))

/-! ## Starvation (R101) -/

/-- Whether the check of R101 finds an entry of a bank's teller, or a refused header that reports to it, starved. -/
def starved (s : State) (b id : Nat) : Bool :=
  let thr := s.rgField Reg.tellerStarveNs 0 20
  let late (t : Nat) : Bool := decide (thr < (s.now % 2 ^ 24 + 2 ^ 24 - t % 2 ^ 24) % 2 ^ 24)
  thr != 0 &&
  (match (s.teller b).entries.find? (fun e => e.id == id) with
   | some e => !e.granted && late e.firstTry
   | none =>
     match s.flight id with
     | some x => segBank s x.seg && bankOf x.seg == b &&
         (x.state == .refused || x.state == .backoff || (x.state == .header && x.retryAt != 0)) && late x.firstTry
     | none => false)

/-- A bank's starvation flag rises (R101). -/
def starvation (s : State) (b id : Nat) : State :=
  if starved s b id && !s.rgBit (Reg.tellerStarveFlag (b / 32)) (b % 32) then
    let src := match s.flight id with
      | some x => x.seg.src
      | none => 0
    let t := s.setRgBit (Reg.tellerStarveFlag (b / 32)) (b % 32) true
    let t := t.driveField Reg.tellerStarveLast 0 32 (2 ^ 31 + src % 4096 * 2 ^ 16 + b)
    auditArmed (event t t.srcClerk none 0x20 3 b src) 4 src
  else s

/-- STARVATION (R101). -/
def execStarvation (bank id : Nat) (s : State) : Res :=
  gateIn (dHome (bank % 256 / 8)) s (fun s => starvation s (bank % 256) id)

/-! ## Watchdogs and lock-up (R330 to R332) -/

/-- A RAS_ERROR record of a watchdog or of the detector, with the detecting unit as its source (R312). -/
def watchRecord (s : State) (src : Nat) (ctx : Option (Nat × Nat)) (code addr kind loc detail : Nat) : State :=
  rasError s src ctx code addr kind loc 0 detail

/-- A clerk watchdog period ends (R330): relief mode, then a reset. -/
def clerkWatchdog (s : State) : State :=
  let n := s.rg Reg.clerkWdNs
  if s.ras.boot ≠ 4 ∨ s.ras.clerkWatch < s.ras.wdStart + n * (s.ras.wdStage + 1) then s
  else if s.ras.wdStage = 0 then
    let t := (s.setRgBit Reg.clerkCtl 31 true).setRgBit Reg.clerkStatus 2 true
    let t := watchRecord { t with ras := { t.ras with wdStage := 1 } } t.srcClerk none 0x0D 0 0 0 0
    auditArmed t 1 t.srcClerk
  else if s.ras.wdStage = 1 then resetDie (watchRecord s s.srcClerk none 0x0D 0 0 0 1) 3 .fast
  else s

/-- CLERK_WATCHDOG (R330). -/
def execClerkWatchdog (s : State) : Res := gateIn dFAB s clerkWatchdog

/-- The command of a program context is stopped (R331): it leaves every wait and issues no new request; the slots and
cheques it holds stay held, a barrier arrival stays counted. -/
def stopCommand (s : State) (k : Nat) (x : PCtx) : State :=
  let me : Who := .pctx k
  let drop (a : Arrival) : Arrival := if a.who = some me then { a with who := none } else a
  let bar (b : Nat × Bar) : Nat × Bar :=
    (b.1, { b.2 with arrivals := b.2.arrivals.map drop, heldBy := b.2.heldBy.map drop,
                     waiting := b.2.waiting.map drop })
  let sy := { s.sync with waiters := s.sync.waiters.filter (fun w => w.who != me),
                          releases := s.sync.releases.filter (fun r => r.2.owner != Owner.pctx k),
                          bars := s.sync.bars.map bar }
  let t := unwait (unwait (unstand { s with sync := sy } (fun w => w.pctx == some k)) (.pctx k false)) (.pctx k true)
  lendMark (t.setPctx k { x with status := some .aborted, sflag := none, done := true, wait := none, stream := none,
                                 relay := none, wdStage := 1 }) (k / 8)

/-- The command watchdog of a program context (R331). -/
def cmdWatchdog (s : State) (k : Nat) : State :=
  let n := s.rg Reg.cmdWdNs
  match s.pctx k with
  | none => s
  | some x =>
    if n = 0 ∨ x.record ∨ s.ras.watch < x.wdFrom + n * (x.wdStage + 1) then s
    else if x.wdStage = 0 then
      auditArmed (watchRecord (stopCommand s k x) (pctxSrc s k) (dTag x.desc) 0x0B x.seq 0 0 x.ring) 2 (pctxSrc s k)
    else if x.wdStage = 1 then
      let t := watchRecord (s.setPctx k { x with wdStage := 2 }) (pctxSrc s k) (dTag x.desc) 0x0B x.seq 0 0 (x.ring + 4096)
      if t.rgBit Reg.cmdWdCtl 0 then resetDie t 4 .fast else t
    else s

/-- CMD_WATCHDOG (R331). -/
def execCmdWatchdog (m p : Nat) (s : State) : Res := gateIn dFAB s (fun s => cmdWatchdog s (m * 8 + p))

/-- The key of the site a LOCKUP names: for a teller output `out` of 0 to 7 selects the node's bank, for a channel
`node` is the die channel, for a lane `out` is the port. -/
def lockSite (site node out lane : Nat) : Nat :=
  siteKey site (if site = 0 then 8 * node + out else if site = 1 then node * 8 + out
                else if site = 2 then node else out * 16 + lane)

/-- Whether a site has work that waits (R332), and since when it has waited at least. -/
def siteWaits (s : State) (site node out lane : Nat) : Option Nat :=
  let since (ids : List Nat) : Option Nat :=
    ((ids.filterMap s.flight).map (fun f => f.issued)).foldl (fun m t => some (match m with
      | none => t
      | some u => min t u)) none
  if site = 0 then since ((s.teller (8 * node + out)).entries.map (fun e => e.id))
  else if site = 1 then since ((s.mesh.flights.filter (fun f => waitsAt s node out f.2)).map (fun f => f.1))
  else if site = 2 then
    (match chanOfDie s node with
     | none => none
     | some c => if (s.chan (node / 32) c).state = .retraining then none
                 else since ((s.chan (node / 32) c).entries.map (fun e => e.id)))
  else if (s.link out).waiting.any (fun o => (outWay o).2.1 == lane) then some 0
  else since ((s.mesh.flights.filter (fun f => f.2.path == out + 3 && f.2.seg.cls == lane)).map (fun f => f.1))

/-- The detector fires at a site (R332), once until the site moves again. -/
def lockup (s : State) (site node out lane : Nat) : State :=
  let k := lockSite site node out lane
  let lim := 1000 * s.rgField Reg.lockupCfg 0 24
  match siteWaits s site node out lane with
  | none => s
  | some t0 =>
    if lim = 0 ∨ k ∈ s.ras.lockups ∨ s.ras.watch < tget 0 s.ras.progress k + lim ∨ s.now < t0 + lim then s
    else
      let n := if site = 2 then chanNode node else if site = 3 then unitNode (162 + out) else node
      let detail := packF [(3, site), (5, 0), (5, n), (3, 0), (3, if site = 1 then out else 0), (1, 0), (4, lane)]
      let t := { s with ras := { s.ras with lockups := addMem k s.ras.lockups } }
      let t := watchRecord t t.srcClerk none 0x0C 0 (if site = 0 then 1 else if site = 2 then 2 else if site = 3 then 4 else 0)
        (if site = 0 then bankPhys s (8 * node + out) else if site = 2 then node else if site = 3 then out else 0) detail
      let t := auditArmed t 3 t.srcClerk
      if t.rgBit Reg.lockupCfg 31 then resetDie t 8 .fast else t

/-- LOCKUP (R332). -/
def execLockup (site node out lane : Nat) (s : State) : Res :=
  gateIn dFAB s (fun s => lockup s (site % 4) (node % 64) (out % 8) (lane % 16))

end Sys2Proof.Machine
end

