-- ==== Sys2Proof/Machine/RegView.lean ====
section
/-! DEFINITION. What a read of REGISTERS space returns: the blocks of Table 17.1, the registers whose value the machine
computes, the interrupt lines, the windows (R396 to R400). -/

namespace Sys2Proof.Machine

/-! ## Blocks (Table 17.1) -/

/-- A block: its base, its size, whether it lies in AO, whether it is stageable. -/
structure RegBlock where
  base : Nat
  size : Nat
  ao : Bool
  stage : Bool
  deriving DecidableEq, Repr

/-- Table 17.1. -/
def regBlocks : List RegBlock :=
  [⟨0x0000, 0x1000, true, false⟩, ⟨0x1000, 0x1000, true, true⟩, ⟨0x2000, 0x1000, false, true⟩,
   ⟨0x3000, 0x1000, false, true⟩, ⟨0x4000, 0x1000, false, true⟩, ⟨0x5000, 0x1000, false, true⟩,
   ⟨0x6000, 0x1000, false, true⟩, ⟨0x7000, 0x1000, false, true⟩, ⟨0x8000, 0x1000, false, true⟩,
   ⟨0x9000, 0x1000, true, true⟩, ⟨0xA000, 0x1000, false, true⟩, ⟨0xC000, 0x1000, false, true⟩,
   ⟨0xD000, 0x1000, true, false⟩, ⟨0x10000, 0x4000, false, true⟩, ⟨0x20000, 0x20000, false, true⟩,
   ⟨0x40000, 0x8000, false, true⟩, ⟨0x50000, 0x10000, true, false⟩, ⟨0x60000, 0x8000, false, false⟩,
   ⟨0x80000, 0x40000, false, false⟩, ⟨0xC0000, 0x40000, false, false⟩, ⟨0x100000, 0x140000, false, false⟩]

/-- The block of Table 17.1 that holds an offset. -/
def regBlock (o : Nat) : Option RegBlock := regBlocks.find? (fun b => decide (b.base ≤ o) && decide (o < b.base + b.size))

/-- The STOP words, which the debug unit serves (R369). -/
def stopWord (o : Nat) : Bool := decide (0xA000 ≤ o) && decide (o ≤ 0xA034)

/-- The BAR words, which lie in AO (Table 17.1). -/
def barWord (o : Nat) : Bool := o == Reg.barCtl || (decide (0x6200 ≤ o) && decide (o < 0x6500))

/-- The stack whose gateway a GW_REPAIR, GW_BOOT or GW_BOOT_WD word acts on. -/
def gwWord (o : Nat) : Option Nat :=
  if 0x7000 ≤ o ∧ o < 0x7080 ∧ (o % 64 = 0x18 ∨ o % 64 = 0x2C ∨ o % 64 = 0x30) then some ((o - 0x7000) / 64) else none

/-- The domain that an access to a register needs (Table 17.1); 0 is AO. -/
def regDom (o : Nat) : Nat :=
  match regBlock o with
  | none => 0
  | some b =>
    if b.ao || stopWord o || barWord o then 0
    else match gwWord o with
      | some st => dSG st
      | none => dFAB

/-! ## Interrupts (R400, Table 17.5) -/

/-- IRQ_CRING_PEND bit c, and IRQ_EVR bit e: the ring drives its line. -/
def ringPend (s : State) (evr : Bool) (c : Nat) : Bool := s.rgBit (ringReg evr c 8) 30 && ringCond s evr c

/-- IRQ_CMDR_ERR bit r. -/
def cmdErr (s : State) (r : Nat) : Bool := s.rgField (Reg.cmdrStatus r) 8 2 != 0 || (s.ring r).err != 0

/-- IRQ_CRING_ERR bit c, and IRQ_EVR bit 16 + e. -/
def ringErr (s : State) (evr : Bool) (c : Nat) : Bool := s.rgField (ringReg evr c 0x18) 2 2 != 0

/-- A word of 32 bits. -/
def bits32 (f : Nat → Bool) : Nat := ((List.range 32).map (fun i => b2n (f i) * 2 ^ i)).sum

/-- IRQ_EVR. -/
def irqEvr (s : State) : Nat := bits32 (fun i => if i < 16 then ringPend s true i else ringErr s true (i - 16))

/-- The condition of line i (Table 6.7, Table 17.5). -/
def irqLine (s : State) (i : Nat) : Bool :=
  if i = 0 then (List.range 1024).any (fun c => ringPend s false c)
  else if i = 1 then irqEvr s != 0 || (List.range 1024).any (fun r => cmdErr s r || ringErr s false r)
  else if i = 2 then s.rgField Reg.rasCause 0 4 != 0
  else if i = 3 then (List.range 8).any (fun n => s.rg (Reg.tellerStarveFlag n) != 0) ||
    (List.range 6).any (fun n => s.rg (Reg.meshQuar n) != 0) || (s.rg Reg.reguStatus &&& s.rg Reg.reguIntEn) != 0
  else if i = 4 then s.rgField Reg.clerkStatus 0 2 != 0
  else if i = 5 then s.rg Reg.syncErrStatus != 0
  else if i = 6 then s.obs.line6
  else (s.rg Reg.pwrCause &&& s.rg Reg.pwrIntEn) != 0

/-- IRQ_RAW. -/
def irqRaw (s : State) : Nat := ((List.range 8).map (fun i => b2n (irqLine s i) * 2 ^ i)).sum

/-- IRQ_STATUS, the lines as driven (R395, R400). -/
def irqStatus (s : State) : Nat := (irqRaw s &&& s.rg Reg.irqEn) ||| s.rg Reg.irqTest

/-! ## Registers that the machine computes -/

/-- CAP_BUILD. -/
def capBuild (s : State) : Nat :=
  packF [(4, s.pwr.dieId), (2, s.build.nStacks), (2, s.build.farKind), (4, (s.build.links.map (fun p => 2 ^ p)).sum),
         (5, s.build.dies.length), (3, s.build.ioDies), (7, 32 * s.build.nStacks)]

/-- Stack frames in state FREE (Table 3.14). -/
def freeFrames (s : State) : Nat :=
  40960 * s.build.nStacks - (s.xl.frames.filter (fun f => framePresent s f.1 && f.2.state != .free)).length

/-- A 64-bit value behind a register pair of R56, by the offset of its LO word. -/
def pairValue (s : State) (o : Nat) : Option Nat :=
  if o = Reg.ptNowLo then some s.now
  else if o = Reg.ptEpochOffsetLo then some (s.rg64 o (o + 4))
  else if 0x4400 ≤ o ∧ o < 0x4800 ∧ o % 8 = 0 then
    let c := (o - 0x4400) / 64
    let i := (o - 0x4400) % 64 / 8
    some (if i = 7 then tget 0 s.regu.counters (16 * c + 7) % 2 ^ 32 + 2 ^ 32 * tget 0 s.regu.counters (16 * c + 8)
          else tget 0 s.regu.counters (16 * c + i))
  else if 0x6400 ≤ o ∧ o < 0x6500 ∧ o % 8 = 0 then some (s.rg64 o (o + 4))
  else if o = Reg.gwNoticeELo ∨ o = Reg.gwNoticeBLo then
    let g := s.rgField Reg.gwNoticeSel 0 6
    some (match chanOfDie s g with
      | none => 0
      | some c =>
        let x := s.chan (g / 32) c
        if x.state = .noticed then (if o = Reg.gwNoticeELo then x.e else x.b) else 0)
  else if 0x11000 ≤ o ∧ o < 0x13000 ∧ o % 8 = 0 then some (tget 0 s.obs.counters ((o - 0x11000) / 8))
  else if 0xD050 ≤ o ∧ o < 0xD0C0 ∧ o % 32 = 0x10 then some (s.rg64 o (o + 4))
  else none

/-- The code of a link state (Table 12.13). -/
def linkCode : LinkState → Nat
  | .inactive => 0 | .down => 1 | .training => 2 | .up => 3 | .failed => 4

/-- LINK_STATUSp. -/
def linkStatus (s : State) (p : Nat) : Nat :=
  let d := peerOf s p
  packF [(3, linkCode (s.link p).state), (1, 0), (4, if d < 16 then d else 0), (1, b2n (decide (d < 16))), (7, 0),
         (16, ((List.range 16).map (fun l => b2n (decide (32 ≤ creditsUsed s p l false)) * 2 ^ l)).sum)]

/-- GW_CHSTATEs_w. -/
def chStateWord (s : State) (st w : Nat) : Nat :=
  ((List.range 8).map (fun i => (if 8 * w + i < 33 then chanCode (s.chan st (8 * w + i)).state else 0) * 16 ^ i)).sum

/-- PROGRESS of a copy engine (Tables 12.8, 13.8, 13.10): how far a copy has come is open once one was asked for
(log 4). -/
def copyProgress (s : State) (state o : Nat) : Nat :=
  if state = 0 then 0 else (Config.freeWord s.now (2 ^ 40 + o)).toNat

/-- The code of a domain state (Table 14.10). -/
def domCode : DomState → Nat
  | .down => 0 | .entering => 1 | .waking => 2 | .up => 3

/-- PWR_STATEw. -/
def pwrState (s : State) (w : Nat) : Nat :=
  ((List.range 16).map (fun i =>
    let d := 16 * w + i
    (if d = 0 then 3 else if domPresent s d then domCode (s.dom d).state else 0) * 4 ^ i)).sum

/-- The code of a session state (Table 17.7). -/
def sessCode : SessState → Nat
  | .idle => 0 | .opened => 1 | .checking => 2 | .pending => 3 | .draining => 4 | .done => 5 | .refused => 6

/-- A session at reset. -/
def sessIdle : Session :=
  { state := .idle, cause := 0, result := 0, badIndex := 0, writes := [], owner := 0, timed := false, time := 0,
    overflow := false, abort := false }

/-- An escrow session. -/
def State.sess (s : State) (k : Nat) : Session := tget sessIdle s.sessions k

/-- The state with a session replaced. -/
def State.setSess (s : State) (k : Nat) (x : Session) : State := { s with sessions := tset sessIdle s.sessions k x }

/-- ESCROW_STATUSk. -/
def sessStatus (s : State) (k : Nat) : Nat :=
  let x := s.sess k
  packF [(9, x.writes.length), (8, x.badIndex), (8, x.result), (4, x.cause), (3, sessCode x.state)]

/-- Registers of the GLOBAL, PT and PROT blocks that are computed. -/
def viewA (s : State) (o : Nat) : Option Nat :=
  if o = Reg.capBuild then some (capBuild s)
  else if o = Reg.capDiemask then some ((s.build.dies.map (fun d => 2 ^ d)).sum)
  else if o = Reg.capFrames then some (40960 * s.build.nStacks)
  else if o = Reg.capFarGib then some (farGib s)
  else if o = Reg.irqRaw then some (irqRaw s)
  else if o = Reg.irqStatus then some (irqStatus s)
  else if 0x80 ≤ o ∧ o < 0x100 then some (bits32 (fun i => ringPend s false (32 * ((o - 0x80) / 4) + i)))
  else if 0x100 ≤ o ∧ o < 0x180 then some (bits32 (fun i => cmdErr s (32 * ((o - 0x100) / 4) + i)))
  else if 0x180 ≤ o ∧ o < 0x200 then some (bits32 (fun i => ringErr s false (32 * ((o - 0x180) / 4) + i)))
  else if o = Reg.irqEvr then some (irqEvr s)
  else if o = Reg.ptProbeCtl then some (s.rg o + b2n s.pt.probe.isSome * 2 ^ 30)
  else if o = Reg.ledgerStatus then some (shootsOut s).length
  else if o = Reg.ledgerFree then some (freeFrames s)
  else none

/-- Registers of the FLOAT, SYNC, BAR and GW blocks that are computed. -/
def viewB (s : State) (o : Nat) : Option Nat :=
  if o = Reg.floatInuseStack then some (tagsUsed s 0 none)
  else if o = Reg.floatInuseFar then some (tagsUsed s 1 none)
  else if 0x6010 ≤ o ∧ o < 0x6020 then some (tagsUsed s (2 + (o - 0x6010) / 4) none)
  else if o = Reg.flagPoolInuse then some (poolUsed s)
  else if 0x6280 ≤ o ∧ o < 0x6300 then some (barStatus s ((o - 0x6280) / 4))
  else if 0x6300 ≤ o ∧ o < 0x6380 then some (s.bar ((o - 0x6300) / 4)).round
  else if 0x7000 ≤ o ∧ o < 0x7080 ∧ 4 ≤ o % 64 ∧ o % 64 < 0x18 then
    some (chStateWord s ((o - 0x7000) / 64) ((o % 64 - 4) / 4))
  else if 0x7000 ≤ o ∧ o < 0x7080 ∧ o % 64 = 0x18 then
    let r := s.repair ((o - 0x7000) / 64)
    some (packF [(18, s.rg o), (10, copyProgress s r.state o), (3, r.state)])
  else if 0x7370 ≤ o ∧ o < 0x7380 then some (linkStatus s ((o - 0x7370) / 4))
  else none

/-- Registers of the RAS, PWR and STOP blocks that are computed. -/
def viewC (s : State) (o : Nat) : Option Nat :=
  if o = Reg.bankSpareStatus then
    some (packF [(15, s.ras.spareArg % 2048), (14, copyProgress s s.ras.spareState o), (3, s.ras.spareState)])
  else if 0x8020 ≤ o ∧ o < 0x8040 then some (bits32 (fun i => bankWd s (32 * ((o - 0x8020) / 4) + i)))
  else if o = Reg.frameRescueStatus then some (packF [(19, s.ras.rescueFrame), (10, copyProgress s s.ras.rescueState o),
      (3, s.ras.rescueState)])
  else if o = Reg.clerkQlevel then some s.ras.clerkQ.length
  else if o = Reg.clerkBoot then some s.ras.boot
  else if o = Reg.pwrHeldLo then some (heldMask s % 2 ^ 32)
  else if o = Reg.pwrHeldHi then some (heldMask s / 2 ^ 32)
  else if 0x9038 ≤ o ∧ o < 0x9044 then some (pwrState s ((o - 0x9038) / 4))
  else if 0x9400 ≤ o ∧ o < 0x9800 then some (bits (s.rg o) 2 1 * 4 + bankRun s ((o - 0x9400) / 4))
  else if o = Reg.pwrDvfs then some (s.rg o + s.clk.point * 16)
  else if o = Reg.pwrGov then some (s.rg o + s.clk.throttle * 2 ^ 24)
  else if o = Reg.rstStatus then
    some (packF [(4, s.pwr.last), (2, s.build.bootSrc), (2, s.build.clkMode), (4, s.pwr.dieId), (1, b2n s.pwr.strapErr)])
  else if 0x9200 ≤ o ∧ o < 0x9298 then some (tget 0 s.build.fuseClamp ((o - 0x9200) / 4) % 4)
  else if o = Reg.stopCtl then some (b2n s.obs.tick.isSome)
  else if o = Reg.stopStatus then some (s.rg o + b2n s.obs.tick.isSome + 2 * b2n s.obs.holds)
  else if o = Reg.lcStatus then
    some (packF [(3, s.pwr.lcState), (1, 0), (1, b2n s.pwr.wiping), (1, b2n s.pwr.tamper), (10, 0), (16, s.pwr.wipes)])
  else if o = 0xC020 then some (slcBanks s + 256 * b2n s.slc.draining)
  else none

/-- Registers of the ESCROW and RINGS blocks that are computed. -/
def viewD (s : State) (o : Nat) : Option Nat :=
  if 0xD040 ≤ o ∧ o < 0xD0C0 ∧ o % 32 = 0 then some (sessStatus s ((o - 0xD040) / 32))
  else if 0xD040 ≤ o ∧ o < 0xD0C0 ∧ o % 32 = 4 then
    let x := s.sess ((o - 0xD040) / 32)
    some (b2n x.timed + x.owner * 2 ^ 24)
  else if 0x20000 ≤ o ∧ o < 0x28000 ∧ o % 32 = 0x10 then
    let r := (o - 0x20000) / 32
    some (packF [(2, ringCode (s.ring r).state), (1, 0), (1, b2n (cmdBusy s r)), (4, (s.ring r).err), (24, s.rg o / 256)])
  else if 0x28000 ≤ o ∧ o < 0x30000 ∧ o % 32 = 0x18 then
    let c := (o - 0x28000) / 32
    some (b2n (ringCond s false c) + 2 * b2n (ringEn s false c && ringFull s false c) + s.rg o / 4 * 4)
  else if 0x31000 ≤ o ∧ o < 0x31200 ∧ o % 32 = 0x18 then
    let e := (o - 0x31000) / 32
    some (b2n (ringCond s true e) + 2 * b2n (ringEn s true e && ringFull s true e) + s.rg o / 4 * 4)
  else none

/-- A register of Table 17.2 as a reader sees it: computed, or the stored word; a word no row names reads 0. -/
def regView (s : State) (o : Nat) : Nat :=
  match regRow o with
  | none => 0
  | some _ =>
    match viewA s o with
    | some v => v
    | none => match viewB s o with
      | some v => v
      | none => match viewC s o with
        | some v => v
        | none => match viewD s o with
          | some v => v
          | none => s.rg o

/-! ## Windows -/

/-- A word of a window: AUDIT, DOMTAB, PSTORE, CLERK_MEM, CTXTAB. -/
def windowRead (s : State) (o : Nat) : Nat :=
  if 0x50000 ≤ o ∧ o < 0x60000 then halfWord (tget 0#64 s.obs.audit ((o - 0x50000) / 8)).toNat o
  else if 0x60000 ≤ o ∧ o < 0x68000 then s.rg o
  else if 0x80000 ≤ o ∧ o < 0xC0000 then halfWord (s.instr ((o - 0x80000) / 8)).toNat o
  else if 0xC0000 ≤ o ∧ o < 0x100000 then
    (if s.ras.boot = 4 then 0 else ofBytes (s.clerkMem.readN (o - 0xC0000) 4))
  else if 0x100000 ≤ o ∧ o < 0x240000 then
    halfWord (ctxWord s ((o - 0x100000) / 32) ((o - 0x100000) % 32 / 8)) o
  else 0

/-- The LO word of the pair whose HI word an offset is, where R56 governs the pair. -/
def pairLo (s : State) (o : Nat) : Bool := decide (4 ≤ o) && (pairValue s (o - 4)).isSome

/-- A 4 B read of REGISTERS space (R396, R56): the status, the value, the state with the latched high half. -/
def regRead (s : State) (o : Nat) : Status × Nat × State :=
  if o % 4 ≠ 0 then (.faultAlign, 0, s)
  else if (regBlock o).isNone then (.faultProt, 0, s)
  else if 0x50000 ≤ o then (.ok, windowRead s o, s)
  else match pairValue s o with
    | some v => (.ok, v % 2 ^ 32, { s with hiLatch := tset 0#32 s.hiLatch (o + 4) (BitVec.ofNat 32 (v / 2 ^ 32)) })
    | none =>
      if pairLo s o then (.ok, (tget 0#32 s.hiLatch o).toNat, s) else (.ok, regView s o, s)

/-- PT_NOW_LO_READ (R56): a read of a register, here of the LO word of a pair that latches its HI word. -/
def execPtNowLoRead (off : Nat) (s : State) : Res := gate (regDom off) 7 0 (.ptNowLoRead off) s (fun s => replied (regRead s off))

end Sys2Proof.Machine
end

