-- ==== Sys2Proof/Machine/RegSet.lean ====
section
/-! DEFINITION. What a write to a register of Table 17.2 does (Table 0.3, R396), direct or staged in escrow (R405). -/

namespace Sys2Proof.Machine

/-- Bitwise: the bits of `v` under `m`, the bits of `old` elsewhere. -/
def mix (old v m : Nat) : Nat := (old &&& (0xFFFFFFFF - m % 2 ^ 32)) ||| (v &&& m)

/-- A written word with the hardware's updates of the same tc on top (R12): the bits the hardware drove keep the value it
gave them, and a counter holds what was written plus the events of the tc. BANK_ERRCNT and TABLE_ERRCNT hold two
counters. -/
def hwOnTop (s : State) (o w : Nat) : Nat :=
  let d := mix w (s.rg o) (s.driven o)
  let n := s.counted o
  if (0x8800 ≤ o ∧ o < 0x8C20) ∨ o = Reg.tableErrcnt then
    min (bits d 0 16 + bits n 0 16) 0xFFFF + 65536 * min (bits d 16 16 + bits n 16 16) 0xFFFF
  else min (d + n) 0xFFFFFFFF

/-- The write of a word by the access codes of its fields (Table 0.3): BT fields take it until the seal, ES fields only
when staged (`es`), a direct write to one sets ESCROW_ERR.DIRECT. The hardware's updates of the same tc come on top
(R12). -/
def plainWrite (s : State) (r : RegRow) (o v : Nat) (es : Bool) : State :=
  let m := r.rw ||| (if isSealedDie s then 0 else r.bt) ||| (if es then r.es else 0)
  let w := mix (s.rg o - s.counted o) v m
  let w := w &&& (0xFFFFFFFF - (v &&& r.w1c))
  let t := s.setRg o (hwOnTop s o (w ||| (v &&& r.w1s)))
  if r.es ≠ 0 ∧ !es then t.setRgBit Reg.escrowErr 0 true else t

/-- A write to the LO word of STOP_AT waits for the HI word (R361, R56). -/
def stopAtLo (s : State) (v : Nat) : State :=
  { s with hiLatch := tset (BitVec.ofNat 32 (s.rg Reg.stopAtLo)) s.hiLatch Reg.stopAtLo (BitVec.ofNat 32 v) }

/-- A write to the HI word of STOP_AT applies both. -/
def stopAtHi (s : State) (v : Nat) : State :=
  let lo := tget (BitVec.ofNat 32 (s.rg Reg.stopAtLo)) s.hiLatch Reg.stopAtLo
  ({ s with hiLatch := terase s.hiLatch Reg.stopAtLo }).setRg64 Reg.stopAtLo Reg.stopAtHi (lo.toNat + 2 ^ 32 * v)

/-- A write to the base of a command, completion or event ring: fixed while EN = 1, with CFG_ERR (R128). -/
def ringBaseWrite (s : State) (o v en stat eb : Nat) : State :=
  if s.rgBit en eb then (if s.rg o = v then s else s.setRgBit stat (if eb = 0 then 8 else 2) true)
  else s.setRg o v

/-- A staged BANK_MAPb: the second pass of validation has checked it (R409). -/
def bankMapSet (s : State) (b v : Nat) : State := wdLoses b s (s.setRg (Reg.bankMap b) (v % 1024))

/-- Registers of the PT, TELLER, REGU, SYNC and BAR blocks with rules of their own. -/
def setA (s : State) (o v : Nat) : Option State :=
  let w := BitVec.ofNat 32 v
  if o = Reg.ptDieOffset then some (dieOffset s w)
  else if o = Reg.ptEpochOffsetLo then some (epochLo s w)
  else if o = Reg.ptEpochOffsetHi then some (epochHi s w)
  else if o = Reg.ptProbeCtl then some (probeGo s w)
  else if o = Reg.evlCtl then some (evlCtlWrite s w)
  else if o = Reg.evlBaseLo ∨ o = Reg.evlBaseHi then some (evlSetupWrite s o 0xFFFFFFFF w)
  else if o = Reg.evlSize then some (evlSetupWrite s o 0x1F w)
  else if o = Reg.protSeal then some (if bit v 0 then sealWrite s else s)
  else if 0x3060 ≤ o ∧ o < 0x3078 then some (quarWrite s ((o - 0x3060) / 4) v)
  else if o = Reg.reguCtl then some (reguCtlWrite s w)
  else if o = Reg.reguHold then some (refreshHolds (s.setRg o v))
  else if o = Reg.reguCntClr then some (classClear s (v % 2 ^ 16))
  else if o = Reg.barCtl then some (barCtlWrite s v)
  else if 0x6200 ≤ o ∧ o < 0x6280 then some (barCfgWrite s ((o - 0x6200) / 4) v)
  else none

/-- Registers of the GW, RAS and CLERK blocks with rules of their own. -/
def setB (s : State) (o v src : Nat) (es : Bool) : Option State :=
  if 0x7000 ≤ o ∧ o < 0x7080 ∧ o % 64 = 0x18 then some (repairWrite s ((o - 0x7000) / 64) v)
  else if 0x7000 ≤ o ∧ o < 0x7080 ∧ o % 64 = 0x2C then some (bootSpare s ((o - 0x7000) / 64) v)
  else if 0x7000 ≤ o ∧ o < 0x7080 ∧ o % 64 = 0x30 then some (bootWd s ((o - 0x7000) / 64) v)
  else if o = Reg.bankSpare then some (bankSpareWrite s v src)
  else if o = Reg.frameRescue then some (frameRescueWrite s v src)
  else if o = Reg.frameSet then some (frameSetWrite s v src)
  else if o = Reg.clerkAlertCode then some (clerkAlert s v src)
  else if o = Reg.clerkWdKick then some (clerkKick s src)
  else if o = Reg.clerkBoot then some (clerkBootWrite s v)
  else if 0x8400 ≤ o ∧ o < 0x8800 then
    some (if es then bankMapSet s ((o - 0x8400) / 4) v else bankMapWrite s ((o - 0x8400) / 4) v)
  else none

/-- A write to PWR_LINKVOTEp, at its LO or HI word: the new votes leave by the port (R336). -/
def linkvoteWrite (s : State) (o v : Nat) : State :=
  votesOut (s.setRg o (if o % 8 = 0 then v else v % 32)) ((o - Reg.pwrLinkvoteLo 0) / 8)

/-- Registers of the PWR, STOP, AUDIT and CNT blocks with rules of their own. -/
def setC (s : State) (o v src : Nat) : Option State :=
  if o = Reg.pwrVoteHostLo ∨ o = Reg.pwrVoteHostHi then
    some (voteWrite s Reg.pwrVoteHostLo 32 (o == Reg.pwrVoteHostHi) v)
  else if o = Reg.pwrVoteClerkLo ∨ o = Reg.pwrVoteClerkHi then
    some (clerkVoteWrite s (o == Reg.pwrVoteClerkHi) v src)
  else if 0x9010 ≤ o ∧ o < 0x9030 then some (linkvoteWrite s o v)
  else if o = Reg.pwrDvfs then some (dvfsWrite s v)
  else if o = Reg.pwrClampLo then some (clampWrite s false v)
  else if o = Reg.pwrClampHi then some (clampWrite s true v)
  else if o = Reg.rstCtl then some (rstCtlWrite s v)
  else if 0x9400 ≤ o ∧ o < 0x9800 then some (pwrBankWrite s ((o - 0x9400) / 4) v)
  else if o = Reg.stopAtLo then some (stopAtLo s v)
  else if o = Reg.stopAtHi then some (stopAtHi s v)
  else if o = Reg.auditCtl then some (auditCtlWrite s v)
  else if o = Reg.cntCtl then some (cntCtlWrite s v)
  else none

/-- Registers of the RINGS block with rules of their own. -/
def setD (s : State) (o v : Nat) : Option State :=
  if 0x20000 ≤ o ∧ o < 0x28000 then
    let r := (o - 0x20000) / 32
    if o % 32 < 8 then some (ringBaseWrite s o v (Reg.cmdrCtl r) (Reg.cmdrStatus r) 0)
    else if o % 32 = 8 then some (cmdrCfgWrite s r v)
    else if o % 32 = 0xC then some (cmdrCtlWrite s r v)
    else none
  else if 0x28000 ≤ o ∧ o < 0x30000 then
    let c := (o - 0x28000) / 32
    if o % 32 < 8 then some (ringBaseWrite s o v (Reg.cringCfg c) (Reg.cringStatus c) 29)
    else if o % 32 = 8 then some (ringCfgWrite s false c v)
    else if o % 32 = 0x10 then some (ringHeadWrite s false c v)
    else none
  else if 0x31000 ≤ o ∧ o < 0x31200 then
    let e := (o - 0x31000) / 32
    if o % 32 < 8 then some (ringBaseWrite s o v (Reg.evrCfg e) (Reg.evrStatus e) 29)
    else if o % 32 = 8 then some (ringCfgWrite s true e v)
    else if o % 32 = 0x10 then some (ringHeadWrite s true e v)
    else none
  else none

/-- The key under which a word that a commit wrote in this tc is noted. -/
def commitKey (o : Nat) : Nat := 2 ^ 24 + o

/-- Whether a commit of this tc wrote a word (Table 17.9). -/
def committed (s : State) (o : Nat) : Bool := s.driven (commitKey o) != 0

/-- A write to a register of the stageable blocks, direct or staged, by a source (R396, R405). What a commit wrote in this tc
stands against a direct write of the tc (Table 17.9). -/
def regSet (s : State) (o v src : Nat) (es : Bool) : State :=
  match regRow o with
  | none => s
  | some r =>
    if !es && committed s o then plainWrite s { r with rw := 0, bt := 0, es := 0 } o v es
    else match setA s o v with
    | some t => t
    | none => match setB s o v src es with
      | some t => t
      | none => match setC s o v src with
        | some t => t
        | none => match setD s o v with
          | some t => t
          | none => plainWrite s r o v es

/-! ## Windows -/

/-- The defined bits of a word of a segment entry (Table 3.5). -/
def domtabMask (o : Nat) : Nat :=
  nth 0 [0xFF7F, 0, 0xFFFFFFFF, 0xFFFF, 0xFFFFFFFF, 0xFFFF, 0xFFFFFFFF, 0x7FFFFF] (o % 32 / 4)

/-- A write to a window: DOMTAB until the seal (R67), PSTORE (R156), CLERK_MEM before the firmware runs (R356); AUDIT
and CTXTAB are read only. -/
def windowWrite (s : State) (o v : Nat) : State :=
  if 0x60000 ≤ o ∧ o < 0x68000 then 
    (if isSealedDie s then s else (tableWrite s .domain ((o - 0x60000) / 32)).setRg o (v &&& domtabMask o))
  else if 0x80000 ≤ o ∧ o < 0xC0000 then
    let i := (o - 0x80000) / 8
    if o % 8 = 0 then pstoreLow s i (BitVec.ofNat 32 v) else pstoreHigh s i (BitVec.ofNat 32 v)
  else if 0xC0000 ≤ o ∧ o < 0x100000 then
    (if s.ras.boot = 4 then s else { s with clerkMem := s.clerkMem.writeN (o - 0xC0000) (toBytes 4 v) })
  else s

end Sys2Proof.Machine
end

