-- ==== Sys2Proof/Machine/Escrow.lean ====
section
/-! DEFINITION. Escrow (R401 to R411): sessions, validation, commits, the SLC set-up. -/

namespace Sys2Proof.Machine

/-! ## Sessions (R401, R402, R407) -/

/-- A bit of ESCROW_ERR is set: 0 DIRECT, 1 BUSY, 2 OWNER, 3 STATE, 4 LATE. -/
def escErr (s : State) (i : Nat) : State := s.setRgBit Reg.escrowErr i true

/-- Whether a session is free (R401). -/
def sessFree (x : Session) : Bool := x.state == .idle || x.state == .done || x.state == .refused

/-- A write to ESCROW_BEGIN (R401). -/
def escBegin (s : State) (v : Nat) : State :=
  let k := v % 4
  if sessFree (s.sess k) then s.setSess k { sessIdle with state := .opened, owner := bits v 24 8 } else escErr s 1

/-- ESCROW_BEGIN (R401). -/
def execEscrowBegin (v : Word) (s : State) : Res := gateAO s (fun s => escBegin s v.toNat)

/-- A write to ESCROW_STAGE_DATAk (R402). -/
def escStage (s : State) (k v : Nat) : State :=
  let x := s.sess k
  if x.state ≠ .opened then escErr s 3
  else if s.rgField (Reg.escrowStageAddr k) 24 8 ≠ x.owner then escErr s 2
  else if 256 ≤ x.writes.length then s.setSess k { x with overflow := true, cause := 1 }
  else s.setSess k { x with writes := x.writes ++ [(s.rgField (Reg.escrowStageAddr k) 0 24, BitVec.ofNat 32 v)] }

/-- ESCROW_STAGE_DATA (R402). -/
def execEscrowStageData (k : Nat) (v : Word) (s : State) : Res := gateAO s (fun s => escStage s (k % 4) v.toNat)

/-- A write to ESCROW_COMMIT (R404). -/
def escCommit (s : State) (v : Nat) : State :=
  let k := v % 4
  let x := s.sess k
  if x.state ≠ .opened then escErr s 3
  else if bits v 24 8 ≠ x.owner then escErr s 2
  else s.setSess k { x with state := .checking, timed := bit v 16 }

/-- ESCROW_COMMIT (R404). -/
def execEscrowCommit (v : Word) (s : State) : Res := gateAO s (fun s => escCommit s v.toNat)

/-- A write to ESCROW_ABORT (R406, R407). -/
def escAbort (s : State) (v : Nat) : State :=
  let k := v % 4
  let x := s.sess k
  if sessFree x then escErr s 3
  else if bits v 24 8 ≠ x.owner then escErr s 2
  else if x.state = .draining then escErr s 4
  else if x.state = .checking then s.setSess k { x with abort := true }
  else s.setSess k { x with state := .idle, writes := [] }

/-- ESCROW_ABORT (R407). -/
def execEscrowAbort (v : Word) (s : State) : Res := gateAO s (fun s => escAbort s v.toNat)

/-! ## Validation (R403, R409, Table 17.8) -/

/-- Whether a staged word is stageable (R403). -/
def stageable (s : State) (o : Nat) : Bool :=
  o % 4 == 0 &&
  (match regBlock o with
   | some b => b.stage
   | none => false) &&
  (match regRow o with
   | some r => (r.rw != 0 || r.es != 0 || r.bt != 0) && (r.bt == 0 || !isSealedDie s)
   | none => false)

/-- The value a staged word is written with: its WO, W1C and W1S fields as if written 0 (R405). -/
def stagedValue (o v : Nat) : Nat :=
  match regRow o with
  | some r => v &&& (0xFFFFFFFF - (r.wo ||| r.w1c ||| r.w1s))
  | none => v

/-- Whether a write to a ring's CFG or CTL would be refused or change a fixed field. -/
def ringRefused (s : State) (o v : Nat) : Bool :=
  let t := match setD s o v with
    | some t => t
    | none => s
  let stat := if o < 0x28000 then Reg.cmdrStatus ((o - 0x20000) / 32)
              else if o < 0x30000 then Reg.cringStatus ((o - 0x28000) / 32) else Reg.evrStatus ((o - 0x31000) / 32)
  let clear := { s with regs := (s.setRg stat 0).regs }
  let u := match setD clear o v with
    | some t => t
    | none => clear
  t.rg stat != s.rg stat || u.rg stat != 0

/-- Whether a direct write would be refused or ignored under the rule that defines its register (VALUE). -/
def valueBad (s : State) (o v : Nat) : Bool :=
  if o = Reg.evlCtl then bit v 0 && !s.rgBit Reg.evlCtl 0 && !evlSetupOk s
  else if o = Reg.evlBaseLo ∨ o = Reg.evlBaseHi then s.rgBit Reg.evlCtl 0 && s.rg o != v
  else if o = Reg.evlSize then s.rgBit Reg.evlCtl 0 && s.rg o != v % 32
  else if o = Reg.reguCtl then s.rgBit Reg.reguCtl 0 && bits v 8 5 != s.rgField Reg.reguCtl 8 5
  else if 0x6200 ≤ o ∧ o < 0x6280 then
    let c := (o - 0x6200) / 4
    barEn s c && bits v 1 8 != s.rgField (Reg.barCfg c) 1 8
  else if 0x7000 ≤ o ∧ o < 0x7080 ∧ o % 64 = 0x2C then
    let st := (o - 0x7000) / 64
    bit v 31 && !((s.chan st 32).state == .spareIdle && (s.chan st (bits v 0 5)).state == .active)
  else if 0x8400 ≤ o ∧ o < 0x8800 then 264 ≤ v % 512
  else if o = Reg.pwrVoteClerkLo ∨ o = Reg.pwrVoteClerkHi then true
  else if o = Reg.pwrDvfs then s.pwr.clkMode == 0 && v % 4 != 0
  else if 0x9400 ≤ o ∧ o < 0x9800 then pwrBankRefused s ((o - 0x9400) / 4) v || v % 4 == 3
  else if o = Reg.stopCtl then bit v 0 && (s.obs.holds || !invasive s)
  else if 0x20000 ≤ o ∧ o < 0x31200 ∧ !(decide (0x30000 ≤ o) && decide (o < 0x31000)) then ringRefused s o v
  else false

/-- The die channel of a GW_RETRAIN_AT word. -/
def retrainWord (o : Nat) : Option Nat := if 0x7100 ≤ o ∧ o < 0x7300 then some ((o - 0x7100) / 8) else none

/-- Whether the value of GW_RETRAIN_ATc fails R286. -/
def retrainBad (s : State) (g : Nat) : Bool :=
  let v := retrainAt s g
  v != 0 &&
  (match chanOfDie s g with
   | none => true
   | some c =>
     let x := s.chan (g / 32) c
     x.state != .noticed || decide (v < x.e) || decide (x.b < v))

/-- One staged write as it takes effect, by source 169 (R405): STOP_CTL's ARM arms a stop. -/
def stagedSet (s : State) (o v : Nat) : State :=
  let w := stagedValue o v
  if o = Reg.stopCtl then (if bit w 0 then stopArm s else s) else regSet s o w (s.src 169) true

/-- The first pass (R409): the first write that fails, with its cause, or the register state after all of them. A start
time is tested at the last staged write to its pair (log 15). -/
def passOne (s : State) (i : Nat) : List (Nat × Word) → (Nat × Nat) ⊕ State
  | [] => .inr s
  | (o, v) :: r =>
    let w := stagedValue o v.toNat
    if !stageable s o then .inl (2, i)
    else if valueBad s o w then .inl (9, i)
    else
      let t := stagedSet s o v.toNat
      let last := r.all (fun d => retrainWord d.1 != retrainWord o)
      match retrainWord o with
      | some g => if last && retrainBad t g then .inl (8, i) else passOne t (i + 1) r
      | none => passOne t (i + 1) r

/-- The first staged write to a register of a set. -/
def firstWrite (l : List (Nat × Word)) (p : Nat → Bool) : Option Nat := l.findIdx? (fun d => p d.1)

/-- Whether a word is a CLASS_RSVc. -/
def isRsv (o : Nat) : Bool := decide (0x4080 ≤ o) && decide (o < 0x40C0)
/-- Whether a word is an SLC_SELn. -/
def isSlc (o : Nat) : Bool := decide (0xC000 ≤ o) && decide (o < 0xC020)
/-- Whether a word is a BANK_MAPb. -/
def isMap (o : Nat) : Bool := decide (0x8400 ≤ o) && decide (o < 0x8800)

/-- Whether another session in PENDING stages a word. -/
def pendingElsewhere (s : State) (k o : Nat) : Bool :=
  s.sessions.any (fun j => j.1 != k && j.2.state == .pending && j.2.writes.any (fun d => d.1 == o))

/-- Whether the reservations of a state fail R123. -/
def oversub (s : State) : Bool :=
  decide (admitLimit s 0 < rsvSum s 0) || decide (admitLimit s 1 < rsvSum s 1) ||
  (s.build.nStacks == 1 && (List.range 16).any (fun c => rsv s c 1 != 0))

/-- Whether the SLC names a bank that R21 excludes. -/
def slcBad (s : State) : Bool :=
  (List.range 256).any (fun b => bankSlc s b && (bankSealed s b || bankWd s b ||
    (match s.ras.copy with
     | some c => c.bank == b
     | none => false)))

/-- Whether the bank map and the staged map writes fail (BANKMAP). -/
def mapBad (s : State) (l : List (Nat × Word)) : Bool :=
  (List.range 256).any (fun b => (List.range b).any (fun a => bankPhys s a == bankPhys s b)) ||
  l.any (fun d => isMap d.1 &&
    (let b := (d.1 - 0x8400) / 4
     let p := d.2.toNat % 512
     (match s.ras.copy with
      | some c => c.bank == b
      | none => false) || (decide (256 ≤ p) && !s.rgBit Reg.bankSpareOk (p - 256))))

/-- The second pass (R409), on the register state `t` after every staged write; R123 tests a session that changes a
reservation. -/
def passTwo (s t : State) (k : Nat) (l : List (Nat × Word)) : Option (Nat × Nat) :=
  match firstWrite l (fun o => pendingElsewhere s k o) with
  | some i => some (3, i)
  | none =>
    match firstWrite l isRsv, firstWrite l isSlc, firstWrite l isMap with
    | a, b, c =>
      if (List.range 16).any (fun c => s.rg (Reg.classRsv c) != t.rg (Reg.classRsv c)) && oversub t then some (4, a.getD 0)
      else if b.isSome && !(slcBanks t ∈ [0, 1, 2, 4, 8, 16, 32]) then some (5, b.getD 0)
      else if b.isSome && slcBad t then some (6, b.getD 0)
      else if c.isSome && mapBad t l then some (7, c.getD 0)
      else none

/-- Validation of a session (R409): a failure's cause and index. -/
def validate (s : State) (k : Nat) : Option (Nat × Nat) :=
  let x := s.sess k
  if x.overflow then some (1, 0)
  else match passOne s 0 x.writes with
    | .inl f => some f
    | .inr t => passTwo s t k x.writes

/-- A refusal (R404): nothing else changes. -/
def escRefuse (s : State) (k : Nat) (f : Nat × Nat) : State :=
  let x := s.sess k
  (s.setSess k { x with state := .refused, cause := f.1, result := if f.1 = 4 then 0x41 else 0x11,
                        badIndex := f.2 }).setRg64 (Reg.escrowDoneLo k) (Reg.escrowDoneHi k) s.now

/-- Validation ends (R404, R407): an abort that waited takes effect. -/
def escValidated (s : State) (k : Nat) : State :=
  let x := s.sess k
  if x.state ≠ .checking then s
  else if x.abort then s.setSess k { x with state := .idle, writes := [], abort := false }
  else match validate s k with
    | some f => escRefuse s k f
    | none =>
      let at_ := s.rg64 (Reg.escrowAtLo k) (Reg.escrowAtHi k)
      s.setSess k { x with state := .pending, time := if x.timed then max at_ s.now else s.now }

/-- ESCROW_VALIDATION_END (R404). -/
def execEscrowValidationEnd (k : Nat) (s : State) : Res := gateAO s (fun s => escValidated s (k % 4))

/-! ## The commit (R404 to R406, R411) -/

/-- Whether the staged writes change an SLC_SEL bit, once all of them are made (R406). -/
def slcChanges (s : State) (k : Nat) : Bool :=
  let t := ((s.sess k).writes.filter (fun d => isSlc d.1)).foldl (fun t d => t.setRg d.1 d.2.toNat) s
  (List.range 8).any (fun n => s.rg (Reg.slcSel n) != t.rg (Reg.slcSel n))

/-- Banks that leave or join the SLC lose their contents (R411). -/
def slcSwitch (s t : State) : State :=
  ((List.range 256).filter (fun b => bankSlc s b != bankSlc t b)).foldl (fun u b =>
    let p := bankPhys u b
    { u with bankMem := u.bankMem.markUndef (p * 2 ^ 21) ((p + 1) * 2 ^ 21) u.freeCtr, freeCtr := u.freeCtr + 1,
             bankMark := u.bankMark.filter (fun m => m.1 / 2 ^ 18 != p) }) t

/-- The GW_RETRAIN_AT registers that a commit changed write their events (R286). -/
def retrainEvents (s t : State) (l : List (Nat × Word)) : State :=
  (List.range 64).foldl (fun u g =>
    if l.any (fun d => retrainWord d.1 == some g) && retrainAt s g != retrainAt t g then retrainAtChanged u g else u) t

/-- The words that a commit wrote stand against the direct writes of its tc (Table 17.9). -/
def commitMark (t : State) (o : Nat) : State := { t with hw := t.hwDrive (commitKey o) 1 }

/-- The staged writes take effect in order in one tc (R405), with their CONFIG_COMMIT record. -/
def escApply (s : State) (k : Nat) : State :=
  let x := s.sess k
  let t := x.writes.foldl (fun t d => stagedSet t d.1 d.2.toNat) s
  let t := slcSwitch s (x.writes.foldl (fun t d => commitMark t d.1) t)
  let t := if x.writes.any (fun d => isRsv d.1) then rescale t else t
  let t := retrainEvents s t x.writes
  let t := t.setSess k { x with state := .done, cause := 0, result := 0, badIndex := 0 }
  let t := t.setRg64 (Reg.escrowDoneLo k) (Reg.escrowDoneHi k) t.now
  ledgerRec t 169 0x05 none (k + x.writes.length * 2 ^ 8)
    (if x.timed then s.rg64 (Reg.escrowAtLo k) (Reg.escrowAtHi k) else 0)

/-- The commit tc: the second validation, then the writes or a refusal (R404). -/
def escFinish (s : State) (k : Nat) : State :=
  match validate s k with
  | some f => escRefuse s k f
  | none => escApply s k

/-- Whether another pending session comes before session k: an earlier time, or the lower number (Table 17.9). -/
def escBehind (s : State) (k : Nat) : Bool :=
  let x := s.sess k
  s.sessions.any (fun j => j.1 != k && j.2.state == .pending && decide (j.2.time ≤ s.now) &&
    (decide (j.2.time < x.time) || (j.2.time == x.time && decide (j.1 < k))))

/-- The commit time of a session comes (R404): a change of the SLC drains it first (R406). -/
def escCommitTime (s : State) (k : Nat) : State :=
  let x := s.sess k
  if x.state ≠ .pending ∨ s.now < x.time ∨ escBehind s k then s
  else if slcChanges s k && slcBanks s != 0 then
    let t := s.setSess k { x with state := .draining }
    { t with slc := { t.slc with draining := true } }
  else escFinish s k

/-- ESCROW_COMMIT_TIME (R404): with FAB up, as AO wakes it (R341, Table 17.9). -/
def execEscrowCommitTime (k : Nat) (s : State) : Res := gateIn dFAB s (fun s => escCommitTime s (k % 4))

/-- The drain ends (R406): every line is written back and dropped, and the commit tc follows. -/
def escDrained (s : State) (k : Nat) : State :=
  let x := s.sess k
  if x.state ≠ .draining then s
  else
    let t := slcEmpty s
    escFinish { t with slc := { t.slc with draining := false } } k

/-- ESCROW_DRAIN_DONE (R406). -/
def execEscrowDrainDone (k : Nat) (s : State) : Res := gateIn dFAB s (fun s => escDrained s (k % 4))

end Sys2Proof.Machine
end

