-- ==== Sys2Proof/Machine/RegWrite.lean ====
section
/-! DEFINITION. Any write to REGISTERS space, the TAP's accesses, and the end of a global stop (R368, R369, R371,
R396). -/

namespace Sys2Proof.Machine

/-- A write to a register of the ESCROW block (Table 17.7). -/
def escrowSet (s : State) (o v : Nat) : State :=
  if o = Reg.escrowBegin then escBegin s v
  else if o = Reg.escrowCommit then escCommit s v
  else if o = Reg.escrowAbort then escAbort s v
  else if 0xD040 ≤ o ∧ o < 0xD0C0 ∧ o % 32 = 0xC then escStage s ((o - 0xD040) / 32) v
  else regSet s o v s.srcClerk false

/-- A 4 B write of REGISTERS space, but for STOP_CTL (R396). -/
def regPut (s : State) (o v src : Nat) : State :=
  if 0x50000 ≤ o then windowWrite s o v
  else if 0xD000 ≤ o ∧ o < 0xE000 then escrowSet s o v
  else regSet s o v src false

/-- The flags that debug writes changed are evaluated as the stop ends (R276). -/
def stopFlagsEval (s : State) : State :=
  let l := s.sync.stopFlags
  l.foldl flagEval { s with sync := { s.sync with stopFlags := [] } }

/-- The stop ends (R368, R369): the held writes are performed, then the flags' waits, then STOP_REACHED is written. -/
def stopResume (s : State) : State :=
  if !s.obs.holds then s
  else
    let held := s.obs.held
    let t := { s with obs := { s.obs with holds := false, line6 := false, held := [], transit := [], cut := [] } }
    let t := t.setRg Reg.stopTransitCount 0
    let t := held.foldl (fun t w => regPut t w.1 w.2.toNat (t.src 168)) t
    event (stopFlagsEval t) t.srcClerk none 0x50 6 (s.rg64 Reg.stopTickLo Reg.stopTickHi) 0

/-- A write to STOP_CTL: ARM, ACK and RESUME act in turn (Table 15.8). -/
def stopCtlWrite (s : State) (v : Nat) : State :=
  let t := if bit v 0 then stopArm s else s
  let t := if bit v 2 then stopAck t else t
  if bit v 1 then stopResume t else t

/-- A 4 B write of REGISTERS space (R396): its status and its effect. -/
def regWrite (s : State) (o v src : Nat) : Status × State :=
  if o % 4 ≠ 0 then (.faultAlign, s)
  else if (regBlock o).isNone then (.faultProt, s)
  else if o = Reg.stopCtl then (.ok, stopCtlWrite s v)
  else (.ok, regPut s o v src)

/-- The frame of the ledger operation that a register write is (R416): FRAME_SET, or FRAME_RESCUE with NONE. -/
def ledgerFrame (o v : Nat) : Option Nat :=
  if o = Reg.frameSet ∨ (o = Reg.frameRescue ∧ bit v 30 = true) then some (bits v 0 17) else none

/-- REGISTER_WRITE (R396); one that is a ledger operation takes its turn (R82). -/
def execRegisterWrite (off : Nat) (v : Word) (src : Nat) (s : State) : Res :=
  gate (regDom off) 7 src (.registerWrite off v src) s (fun s =>
    let eff := fun t => replied ((regWrite t off v.toNat src).1, 0, (regWrite t off v.toNat src).2)
    match ledgerFrame off v.toNat with
    | some f => ledgerTurn s f (.registerWrite off v src) eff
    | none => eff s)

/-- STOP_ACK (R366). -/
def execStopAck (v : Word) (s : State) : Res := gateRun s (fun s => if bit v.toNat 2 then stopAck s else s)

/-- RESUME (R368). -/
def execResume (v : Word) (s : State) : Res := gateRun s (fun s => if bit v.toNat 1 then stopResume s else s)

/-! ## The TAP (R369, R371) -/

/-- An access of the TAP to REGISTERS space during a stop (R369). -/
def tapStopped (s : State) (o : Nat) (wr : Option Nat) : Status × Nat × State :=
  match wr with
  | none => ((regRead s o).1, (regRead s o).2.1, if stopWord o then (regRead s o).2.2 else s)
  | some v =>
    if stopWord o then ((regWrite s o v (s.src 168)).1, 0, (regWrite s o v (s.src 168)).2)
    else if o % 4 ≠ 0 then (.faultAlign, 0, s)
    else if (regBlock o).isNone then (.faultProt, 0, s)
    else if 64 ≤ s.obs.held.length then (.faultProt, 0, s)
    else (.ok, 0, { s with obs := { s.obs with held := s.obs.held ++ [(o, BitVec.ofNat 32 v)] } })

/-- An access of the TAP to REGISTERS space while no stop holds, with source 168. -/
def tapRunning (s : State) (o : Nat) (wr : Option Nat) : Status × Nat × State :=
  match wr with
  | none => regRead s o
  | some v => ((regWrite s o v (s.src 168)).1, 0, (regWrite s o v (s.src 168)).2)

/-- TAP_INSTRUMENT_ACCESS (R371): the instrument of a domain that is down is bypassed and answers nothing. -/
def execTapInstrumentAccess (dbg : Bool) (off : Nat) (wr : Option Word) (s : State) : Res :=
  gateRun s (fun s =>
    let w := wr.map (fun v => v.toNat)
    if dbg then replied (debugAccess s off w)
    else if !isUp s (regDom off) then s
    else if s.obs.holds then replied (tapStopped s off w)
    else replied (tapRunning (touch s (regDom off)) off w))

end Sys2Proof.Machine
end

