-- ==== Sys2Proof/Machine/Access.lean ====
section
/-! DEFINITION. The data accesses of movers (R57, R58, R60, R83, R138, R165): one granule at any space, ranges of
bytes granule by granule. -/

namespace Sys2Proof.Machine

/-! ## One access at a checked PPA -/

/-- Whether a PPA names a memory: a bank through any of its views, a stack, the far tier. -/
def isMemory (a : Nat) : Bool := ppaFar a || ppaSpace a ≤ 6 || ppaSpace a == 8

/-- A read of n bytes at a checked PPA of this die's control spaces (Table 3.2). -/
def controlRead (s : State) (rq : Rq) (a n : Nat) : State × Status × List Byte :=
  let o := ppaOff a
  if ppaSpace a = 0xA then (match flagsRead s (o / 8) rq.src with
    | (st, w, t) => (t, st, toBytes n w.toNat))
  else if ppaSpace a = 0xB then (s, (slotSpaceRead s o).1, toBytes n (slotSpaceRead s o).2)
  else if ppaSpace a = 0xE then ((regRead s o).2.2, (regRead s o).1, toBytes n (regRead s o).2.1)
  else (s, .faultProt, List.replicate n 0#8)

/-- A write at a checked PPA of this die's control spaces (Table 3.2). -/
def controlWrite (s : State) (rq : Rq) (a n v : Nat) : State × Status :=
  let o := ppaOff a
  if ppaSpace a = 0xA then (flagsWrite s (o / 8) (BitVec.ofNat 64 v) rq.src, flagSt s (o / 8))
  else if ppaSpace a = 0xB then ((slotSpaceWrite s o v rq.src).2, (slotSpaceWrite s o v rq.src).1)
  else if ppaSpace a = 0xC then
    ((doorbellWrite s (o / 4096) (o % 4096) n v).2, (doorbellWrite s (o / 4096) (o % 4096) n v).1)
  else if ppaSpace a = 0xE then ((regWrite s o v rq.src).2, (regWrite s o v rq.src).1)
  else (s, .faultProt)

/-- A read of a control space of another die leaves by its link; what it returns is that die's (log 22). -/
def remoteControlRead (s : State) (rq : Rq) (a n : Nat) : State × Status × List Byte :=
  if routeQuar s a then (s, .quarantined, List.replicate n 0#8)
  else
    let p := routePort s (ppaDie a)
    let t := linkOut (reach (noteAccess s false false a n) rq dEDGE) p
      (.control p (ppaDie a) (rqClass s rq) rq.src false 0 (rqStamp s rq) a 0#64)
    ({ t with freeCtr := t.freeCtr + 1 }, .ok, toBytes n (Config.freeWord t.freeCtr a).toNat)

/-- A write of a control space of another die leaves by its link. -/
def remoteControlWrite (s : State) (rq : Rq) (a n v : Nat) : State × Status :=
  if routeQuar s a then (s, .quarantined)
  else
    (controlOut (reach (noteAccess s false true a n) rq dEDGE) rq.src rq.ctx (rqClass s rq) (rqStamp s rq) a v, .ok)

/-- A read of n bytes of one granule at a checked PPA. -/
def ppaRead (s : State) (rq : Rq) (a n : Nat) : State × Status × List Byte :=
  if isMemory a then memRead s rq a n
  else if ppaDie a = s.pwr.dieId then controlRead s rq a n
  else remoteControlRead s rq a n

/-- A write of bytes of one granule at a checked PPA. -/
def ppaWrite (s : State) (rq : Rq) (a : Nat) (data : List WByte) : State × Status :=
  let v := ofBytes (data.map (·.1))
  if isMemory a then passWrite s rq a data
  else if ppaDie a = s.pwr.dieId then controlWrite s rq a data.length v
  else remoteControlWrite s rq a data.length v

/-! ## Accesses of a command -/

/-- How a command's accesses go: its mover, what its requests carry, and its context where CTX_V = 1 (R138). -/
structure Via where
  m : Nat
  rq : Rq
  ctx : Option Nat
  deriving DecidableEq, Repr

/-- The accesses of a program context. -/
def pctxVia (s : State) (k : Nat) (x : PCtx) : Via :=
  { m := k / 8, rq := pctxRq s k x, ctx := if dCtxV x.desc then some (dCtx x.desc) else none }

/-- Whether a mover is quarantined (R110). -/
def moverQuar (s : State) (m : Nat) : Bool := s.rgBit (Reg.meshQuar 4) m

/-- The address of one granule's access: a CVA translated at the mover's node, or a PPA checked; a context whose unbind
has started gets no access (R66). -/
def viaXlate (s : State) (v : Via) (a n : Nat) (acc : Acc) : Xl × State :=
  match v.ctx with
  | some c => if ctxLive s c then translate s v.rq.src v.m c a n acc else (.err .faultXlate, s)
  | none => (xlCheck s a n acc false false, s)

/-- Whether the context of an access lives: after its unbind has started no request of its commands goes, one to the host
neither (R66, R182). -/
def viaLive (s : State) (v : Via) : Bool :=
  match v.ctx with
  | some c => ctxLive s c
  | none => true

/-- One granule read. -/
def granuleRead (s : State) (v : Via) (host : Bool) (a n : Nat) : State × Status × List Byte :=
  if host then
    (if !viaLive s v then (s, .faultXlate, [])
     else if moverQuar s v.m then (s, .quarantined, []) else hostRead s v.rq a n)
  else match viaXlate s v a n .read with
    | (.err st, t) => (t, st, [])
    | (.ok p _, t) => if moverQuar t v.m then (t, .quarantined, []) else ppaRead t v.rq p n

/-- The PPA that a write goes to: through `red`, an add alias, only BANK space serves (R140, R167). -/
def redTarget (red : Option Nat) (p : Nat) : Option Nat :=
  match red with
  | none => some p
  | some c => if !ppaFar p && ppaSpace p == 0 then some (diePPA (ppaDie p) c (ppaOff p)) else none

/-- One granule written, and the PPA it was written at where a RANGE_WRITE record may be due. -/
def granuleWrite (s : State) (v : Via) (host : Bool) (red : Option Nat) (a : Nat) (data : List WByte) :
    State × Status × Option Nat :=
  if host then
    (if !viaLive s v then (s, .faultXlate, none)
     else if moverQuar s v.m then (s, .quarantined, none)
     else match hostWrite s v.rq a data with
       | (t, st) => (t, st, none))
  else match viaXlate s v a data.length .write with
    | (.err st, t) => (t, st, none)
    | (.ok p _, t) =>
      match redTarget red p with
      | none => (t, .faultProt, none)
      | some q =>
        if moverQuar t v.m then (t, .quarantined, none)
        else match ppaWrite t v.rq q data with
          | (u, st) => (u, st, if stOk st && isMemory q then some p else none)

/-- The error of a transfer at an address. -/
def xErr (v : Via) (host : Bool) (st : Status) (a : Nat) : XErr :=
  { st := st, addr := a, cva := v.ctx.isSome && !host, host := host }

/-- A read of n bytes, granule by granule: the bytes before the first error, and that error (R58). `f` bounds the
granules. -/
def spanRead (v : Via) (host : Bool) : Nat → Nat → Nat → State → State × Option XErr × List Byte
  | 0, _, _, s => (s, none, [])
  | f + 1, a, n, s =>
    if n = 0 then (s, none, [])
    else
      let k := min n (128 - a % 128)
      match granuleRead s v host a k with
      | (t, st, bytes) =>
        if stOk st then
          match spanRead v host f (a + k) (n - k) t with
          | (u, e, rest) => (u, e, bytes ++ rest)
        else (t, some (xErr v host st a), [])

/-- A write of bytes, granule by granule: the first error, the PPAs written, and how many bytes were performed. -/
def spanWrite (v : Via) (host : Bool) (red : Option Nat) :
    Nat → Nat → List WByte → State → State × Option XErr × List Nat × Nat
  | 0, _, _, s => (s, none, [], 0)
  | f + 1, a, data, s =>
    if data.isEmpty then (s, none, [], 0)
    else
      let k := min data.length (128 - a % 128)
      match granuleWrite s v host red a (data.take k) with
      | (t, st, p) =>
        if stOk st then
          match spanWrite v host red f (a + k) (data.drop k) t with
          | (u, e, ps, n) => (u, e, p.toList ++ ps, k + n)
        else (t, some (xErr v host st a), [], 0)

/-- n bytes read. -/
def readSpan (s : State) (v : Via) (host : Bool) (a n : Nat) : State × Option XErr × List Byte :=
  spanRead v host (n / 128 + 2) a n s

/-- Bytes written, with their RANGE_WRITE records (R51); the answer is the first error and the bytes performed. -/
def writeSpan (s : State) (v : Via) (host : Bool) (red : Option Nat) (a : Nat) (data : List WByte) :
    State × Option XErr × Nat :=
  match spanWrite v host red (data.length / 128 + 2) a data s with
  | (t, e, ps, n) => (runRecs t v.rq ps, e, n)

/-- Bytes with every enable set. -/
def allOn (l : List Byte) : List WByte := l.map (fun b => (b, true))

/-- What a read that ended early can still write: whole granules of the destination (R58). -/
def wholeGranules (dst got want : Nat) : Nat := if got = want then got else got - min got ((dst + got) % 128)

/-- The bytes of a copy: those that overlap the source are undefined (R167). -/
def overlapBytes (ctr src n dst : Nat) (same : Bool) (l : List Byte) : List Byte :=
  if same && decide (dst < src + n) && decide (src < dst + l.length) then
    l.zipIdx.map (fun e => if src ≤ dst + e.2 ∧ dst + e.2 < src + n then Config.freeByte ctr (dst + e.2) else e.1)
  else l

/-- A copy of n bytes (R58, R140, R167): everything before the first error in order takes effect. -/
def copySpan (s : State) (v : Via) (hs hd : Bool) (red : Option Nat) (src dst n : Nat) :
    State × Option XErr × List Byte :=
  match readSpan s v hs src n with
  | (t, e, got) =>
    let l := overlapBytes t.freeCtr src n dst (hs == hd && red.isNone) (got.take (wholeGranules dst got.length n))
    match writeSpan { t with freeCtr := t.freeCtr + 1 } v hd red dst (allOn l) with
    | (u, some w, k) => (u, some w, l.take k)
    | (u, none, k) => (u, e, l.take k)

end Sys2Proof.Machine
end

