-- ==== Sys2Proof/Machine/Mint.lean ====
section
/-! DEFINITION. The mint lane (Chapter 9): formats, rounding, blocks and groups, layouts, the Cerlas Weight Stream, and
a conversion from source to destination. -/

namespace Sys2Proof.Machine

/-- emax of the element of an MX format (Table 9.3). -/
def mxEmax (code : Nat) : Int := nth 0 [8, 15, 2, 4, 2, 0] (code - 5)

/-- Whether an output format encodes infinity (R212). -/
def MFmt.hasInf (f : MFmt) : Bool := match f.ff with
  | some x => x.top == .ieee
  | none => false

/-! ## Values -/

/-- A value times a power of two. -/
def scaleFV (v : FV) (k : Int) : FV := match v with
  | .fin n m e => .fin n m (e + k)
  | x => x

/-- A product with a GINT scale. -/
def mulFV (a b : FV) : FV := match a, b with
  | .fin n m e, .fin n' m' e' => .fin (n != n') (m * m') (e + e')
  | .nan, _ => .nan
  | _, .nan => .nan
  | .inf n, .inf n' => .inf (n != n')
  | .inf n, .fin n' m _ => if m = 0 then .nan else .inf (n != n')
  | .fin n m _, .inf n' => if m = 0 then .nan else .inf (n != n')

/-- The value of an element code before its scale (Tables 9.2, 9.3). -/
def elemVal (code : Nat) (f : MFmt) (x : Nat) : FV :=
  match f.ff with
  | some y => decodeF y x
  | none => ofInt false (signed x f.w) (if code = 10 then -6 else 0)

/-- The value of an element under its scale code (R209). -/
def scaledVal (f : MFmt) (sc : Nat) (v : FV) : FV :=
  if f.scale = 0 then v
  else if f.scale = 1 then (if sc = 255 then .nan else scaleFV v ((sc : Int) - 127))
  else mulFV v (decodeF bf16 sc)

/-- Element i of a packed element string of w-bit elements. -/
def elemAt (l : List Byte) (w i : Nat) : Nat :=
  bits (ofBytes ((l.drop (w * i / 8)).take ((w * i % 8 + w + 7) / 8))) (w * i % 8) w

/-- A source: its values, element codes and scale codes. -/
structure MSrc where
  vals : List FV
  codes : List Nat
  scales : List Nat
  deriving DecidableEq, Repr

/-- A source of count elements in ROW order (R209). -/
def parseSrc (code : Nat) (f : MFmt) (count : Nat) (l : List Byte) : MSrc :=
  let scales := (List.range (if f.scale = 0 then 0 else count / f.unit)).map (fun i =>
    laneAt l (count * f.w / 8 + i * f.scale) f.scale)
  let codes := (List.range count).map (elemAt l f.w)
  { vals := codes.zipIdx.map (fun e => scaledVal f (nth 0 scales (e.2 / f.unit)) (elemVal code f e.1)),
    codes := codes, scales := scales }

/-- The lane's counts and its generator while it encodes. -/
structure Enc where
  gen : Nat
  sat : Nat
  nan : Nat
  deriving DecidableEq, Repr

/-- One step of the generator (R215). -/
def genStep (g : Nat) : Nat :=
  let s := if g = 0 then 1 else g
  let s := s ^^^ (s * 2 ^ 13 % 2 ^ 64)
  let s := s ^^^ (s / 2 ^ 7)
  s ^^^ (s * 2 ^ 17 % 2 ^ 64)

/-- ± m × 2^e in a binary format under a rounding code (R211, R212, R215). -/
def encFin (c : MCode) (f : FFmt) (neg : Bool) (m : Nat) (e : Int) (st : Enc) : Nat × Enc :=
  let lo := roundCode f .zero m e
  let (x, st) :=
    if lo.2 then (lo.1, st)
    else if c.rnd = 0 then ((roundCode f .nearest m e).1, st)
    else if c.rnd = 2 then (lo.1, st)
    else if f.maxCode ≤ lo.1 then (f.maxCode + 1, st)
    else
      let g := genStep st.gen
      ((roundCode f (.stoch (g / 2 ^ 48)) m e).1, { st with gen := g })
  if f.maxCode < x then
    (if c.ovf && f.top == .ieee then (signCode f neg + f.infCode, st)
     else (signCode f neg + f.maxCode, { st with sat := st.sat + 1 }))
  else (signCode f neg + x, st)

/-- The integer nearest num ÷ den under a rounding code, clamped to a limit (R213, R214, R215). -/
def encInt (c : MCode) (limit num den : Nat) (st : Enc) : Nat × Enc :=
  let k := num / den
  let r := num % den
  let (x, st) :=
    if r = 0 then (k, st)
    else if c.rnd = 0 then (if den < 2 * r ∨ (2 * r = den ∧ k % 2 = 1) then k + 1 else k, st)
    else if c.rnd = 2 then (k, st)
    else if limit ≤ k then (limit + 1, st)
    else
      let g := genStep st.gen
      (if g / 2 ^ 48 < r * 65536 / den then k + 1 else k, { st with gen := g })
  if limit < x then (limit, { st with sat := st.sat + 1 }) else (x, st)

/-- The w-bit code of ± q. -/
def intCode (neg : Bool) (q w : Nat) : Nat := toCode (if neg then -(q : Int) else (q : Int)) w

/-- A quotient of exact values as a fraction of naturals. -/
def ratio (m : Nat) (e : Int) (m' : Nat) (e' : Int) : Nat × Nat :=
  (m * 2 ^ (e - e').toNat, m' * 2 ^ (e' - e).toNat)

/-- The finite value of largest magnitude, 0 where there is none. -/
def amaxOf (l : List FV) : Nat × Int :=
  l.foldl (fun a v => match v with
    | .fin _ m e => if ltFV (.fin false a.1 a.2) (.fin false m e) then (m, e) else a
    | _ => a) (0, 0)

/-- Whether a value makes the output NaN (R211, R212). -/
def toNan (c : MCode) (f : MFmt) (v : FV) : Bool := match v with
  | .nan => true
  | .inf _ => c.ovf && !f.hasInf
  | .fin _ _ _ => false

/-- An element of an unscaled or an MX output; `x` is the MX scale exponent. -/
def encElem (c : MCode) (f : MFmt) (x : Int) (v : FV) (st : Enc) : Nat × Enc :=
  match f.ff, v with
  | some y, .fin n m e => encFin c y n m (e - x) st
  | some y, .inf n =>
    if c.ovf then (signCode y n + y.infCode, st) else (signCode y n + y.maxCode, { st with sat := st.sat + 1 })
  | none, .fin n m e =>
    let q := ratio m (e - x + 6) 1 0
    match encInt c 127 q.1 q.2 st with
    | (k, t) => (intCode n k 8, t)
  | none, .inf n => (intCode n 127 8, { st with sat := st.sat + 1 })
  | _, .nan => (0, st)

/-- A list of values encoded in order. -/
def encList (g : FV → Enc → Nat × Enc) : List FV → Enc → List Nat × Enc
  | [], st => ([], st)
  | v :: l, st => match g v st with
    | (x, t) => (match encList g l t with
      | (xs, u) => (x :: xs, u))

/-- The scale exponent of an MX block (R213). -/
def mxScale (code : Nat) (l : List FV) : Int :=
  match amaxOf l with
  | (0, _) => -127
  | (m, e) => max (-127) (min 127 ((Nat.log2 m : Int) + e - mxEmax code))

/-- The bfloat16 scale of a GINT group: amax ÷ qmax to nearest even (R214). -/
def gintScale (qmax : Nat) (a : Nat × Int) : Nat :=
  let n := a.1 * 2 ^ 64
  encodeIeee bf16 (.fin false (2 * (n / qmax) + b2n (n % qmax != 0)) (a.2 - 65))

/-- One element of a GINT group (R212, R214); 0 ÷ 0, where the scale underflowed, is open (log 24). -/
def gintElem (c : MCode) (qmax w ep : Nat) (sc : FV) (v : FV) (st : Enc) : Nat × Enc :=
  match v, sc with
  | .inf n, _ => (intCode n qmax w, { st with sat := st.sat + 1 })
  | .fin n m e, .fin _ sm se =>
    if sm = 0 then
      (if m = 0 then
         (toCode (((Config.freeWord ep st.sat).toNat % (2 * qmax + 1) : Nat) - (qmax : Int)) w, st)
       else (intCode n qmax w, { st with sat := st.sat + 1 }))
    else
      let r := ratio m e sm se
      (match encInt c qmax r.1 r.2 st with
       | (q, t) => (intCode n q w, t))
  | _, _ => (0, st)

/-- One element of a GINT group that has no finite value but 0 (R214); an infinity is still the largest element of its sign and
a saturation (R212; log 78). -/
def gintZero (qmax w : Nat) (v : FV) (st : Enc) : Nat × Enc := match v with
  | .inf n => (intCode n qmax w, { st with sat := st.sat + 1 })
  | _ => (0, st)

/-- One output block, group or element: its element codes and its scale code (R211 to R214). -/
def encGroup (c : MCode) (f : MFmt) (ep : Nat) (l : List FV) (st : Enc) : List Nat × Nat × Enc :=
  if l.any (toNan c f) then
    let t := { st with nan := st.nan + 1 }
    (match f.ff, f.scale with
     | some y, 0 => ([y.nanCode], 0, t)
     | _, 1 => (List.replicate f.unit 0, 255, t)
     | _, _ => (List.replicate f.unit 0, 0x7FC0, t))
  else if f.scale = 0 then (match encList (encElem c f 0) l st with
    | (xs, t) => (xs, 0, t))
  else if f.scale = 1 then
    let x := mxScale c.outF l
    (match encList (encElem c f x) l st with
     | (xs, t) => (xs, (x + 127).toNat, t))
  else
    let qmax := if c.outF = 11 then 127 else 7
    let a := amaxOf l
    if a.1 = 0 then (match encList (gintZero qmax f.w) l st with
      | (xs, t) => (xs, 0, t))
    else
      let sc := gintScale qmax a
      (match encList (gintElem c qmax f.w ep (decodeF bf16 sc)) l st with
       | (xs, t) => (xs, sc, t))

/-! ## Layouts (R216 to R219) -/

/-- The tiles of an R × C matrix: the (row, column) places of each, in tile order (R216, R218). -/
def tilePlaces (R C th tw : Nat) : List (List (Nat × Nat)) :=
  (List.range ((R + th - 1) / th)).flatMap (fun i => (List.range ((C + tw - 1) / tw)).map (fun j =>
    (List.range (min th (R - i * th))).flatMap (fun r => (List.range (min tw (C - j * tw))).map (fun c =>
      (i * th + r, j * tw + c)))))

/-- The output order: chunks of source indices, each stored as its elements and then its scales. -/
def chunks (c : MCode) (count : Nat) : List (List Nat) :=
  let R := c.rows count
  let C := c.width count
  if c.layout = 0 then [List.range count]
  else if c.layout = 1 then [(List.range C).flatMap (fun r => (List.range R).map (fun k => k * C + r))]
  else if c.trans then
    (tilePlaces C R c.tile.1 c.tile.2).map (fun l => l.map (fun p => p.2 * C + p.1))
  else (tilePlaces R C c.tile.1 c.tile.2).map (fun l => l.map (fun p => p.1 * C + p.2))

/-- The chunks of a decoded CWS stream: the same sizes, in the order in which the elements came (R223). -/
def inOrder : Nat → List (List Nat) → List (List Nat)
  | _, [] => []
  | n, l :: r => (List.range l.length).map (· + n) :: inOrder (n + l.length) r

/-- A list cut into groups of n. -/
def groupsOf (n : Nat) : Nat → List Nat → List (List Nat)
  | 0, _ => []
  | f + 1, l => if l.isEmpty then [] else l.take n :: groupsOf n f (l.drop n)

/-- Whether a group of indices is a whole block of the source. -/
def wholeBlock (unit : Nat) (l : List Nat) : Bool :=
  let a := l.headD 0
  a % unit == 0 && l == (List.range unit).map (· + a)

/-- The elements of a group of w bits, packed. -/
def packCodes (w : Nat) (l : List Nat) : List Byte :=
  toBytes (l.length * w / 8) (l.zipIdx.foldl (fun n e => n + e.1 * 2 ^ (w * e.2)) 0)

/-- A piece of an output: its bytes, with the saturations and the NaNs that it writes (R211, R212). -/
structure Piece where
  bytes : List Byte
  sat : Nat
  nan : Nat
  deriving DecidableEq, Repr

/-- A group converted, or copied with its scale (R219): its elements, its scale, whose NaN is the whole group's. -/
def convGroup (c : MCode) (f : MFmt) (ep : Nat) (src : MSrc) (copy : Bool) (g : List Nat) (st : Enc) : Piece × Piece × Enc :=
  let vals := g.map (nth .nan src.vals)
  let (xs, sc, t) :=
    if copy then (g.map (nth 0 src.codes), nth 0 src.scales (g.headD 0 / f.unit), { st with nan := st.nan + b2n (vals.any (· == .nan)) })
    else encGroup c f ep vals st
  let n := t.nan - st.nan
  ({ bytes := packCodes f.w xs, sat := t.sat - st.sat, nan := if f.scale = 0 then n else 0 },
   { bytes := toBytes f.scale sc, sat := 0, nan := if f.scale = 0 then 0 else n }, t)

/-- The groups of a chunk converted in order, elements and scales, up to one that needs an element from `av` on, which its
source did not give: whether it came to the end. -/
def convChunk (c : MCode) (f : MFmt) (ep : Nat) (src : MSrc) (copy : Bool) (av : Nat) :
    List (List Nat) → Enc → List Piece × List Piece × Bool × Enc
  | [], st => ([], [], true, st)
  | g :: r, st =>
    if g.any (fun i => decide (av ≤ i)) then ([], [], false, st)
    else
      match convGroup c f ep src copy g st with
      | (e, x, t) => match convChunk c f ep src copy av r t with
        | (es, ss, whole, u) => (e :: es, x :: ss, whole, u)

/-- Chunks converted in order, each its elements and then its scales. -/
def convAll (c : MCode) (f : MFmt) (ep : Nat) (src : MSrc) (copy : Bool) (av : Nat) :
    List (List (List Nat)) → Enc → List Piece × Enc
  | [], st => ([], st)
  | l :: r, st => match convChunk c f ep src copy av l st with
    | (es, _, false, t) => (es, t)
    | (es, ss, true, t) => (match convAll c f ep src copy av r t with
      | (rest, u) => (es ++ ss ++ rest, u))

/-- The output of a conversion (R210, R211, R219), in order, as far as the first `av` elements of its source give it. -/
def convert (c : MCode) (count ep : Nat) (src : MSrc) (av : Nat) (st : Enc) : List Piece × Enc :=
  let f := mfmt c.outF c.gsz
  let cs := if c.inF = 13 then inOrder 0 (chunks c count) else chunks c count
  let gs := cs.map (fun l => groupsOf f.unit l.length l)
  let copy := c.inF == c.outF && gs.all (fun l => l.all (wholeBlock f.unit))
  convAll c f ep src copy av gs st

/-- The bytes of pieces. -/
def pieceBytes (l : List Piece) : List Byte := l.flatMap (·.bytes)

/-- The saturations and NaNs of the pieces that lie whole in the first k bytes. -/
def piecesDone : Nat → List Piece → Nat × Nat
  | _, [] => (0, 0)
  | k, p :: r =>
    if k < p.bytes.length then (0, 0)
    else (p.sat + (piecesDone (k - p.bytes.length) r).1, p.nan + (piecesDone (k - p.bytes.length) r).2)

/-- The cause of Table 9.8 that a count and the codes show, 0 where there is none. -/
def mintCause (c : MCode) (isConvert : Bool) (count : Nat) : Nat :=
  let i := mfmt c.inF c.gsz
  let o := mfmt c.outF c.gsz
  let R := c.rows count
  let C := c.width count
  if c.reserved then 1
  else if c.inF = 13 ∧ (c.trans ∨ c.layout = 1 ∨ (isConvert ∧ c.layout ≠ 0)) then 7
  else if c.pitch ≠ 0 ∧ (4 < c.inF ∨ c.cols = 0) then 8
  else if count % i.unit ≠ 0 ∨ count % o.unit ≠ 0 then 2
  else if c.cols = 0 ∧ c.layout ≠ 0 then 3
  else if c.cols ≠ 0 ∧ count % C ≠ 0 then 3
  else if (c.layout = 1 ∨ c.trans) ∧ (C % c.tile.1 ≠ 0 ∨ R % c.tile.2 ≠ 0) then 3
  else if 2 ≤ c.layout ∧ (chunks c count).any (fun l => l.length % o.unit ≠ 0) then 2
  else 0

/-- The status of a cause (Table 9.8). -/
def causeSt (n : Nat) : Status := if n = 2 ∨ n = 3 ∨ n = 4 then .faultAlign else .faultProt

/-! ## The Cerlas Weight Stream (R220 to R223) -/

/-- The length a header's fields imply, in units of 8 B (R221). -/
def cwsLen (h : Nat) : Nat :=
  let c := 32 * (bits h 4 6 + 1)
  if bits h 0 2 = 2 then 1
  else if bits h 0 2 = 1 then 1 + c / 4
  else (8 + bits h 10 4 + c / 2 + c + bits h 16 12 + 7) / 8

/-- Whether a header is malformed in itself (R222); `first` is the ELEM of the conversion's first block. -/
def cwsBad (h : Nat) (first : Option Bool) : Bool :=
  bits h 0 2 == 3 || bit h 3 || bits h 14 2 != 0 || bits h 28 4 != 0 || bits h 44 4 != 0 ||
  (bits h 0 2 == 0 && decide (2048 < bits h 16 12)) || bits h 32 12 != cwsLen h ||
  (match first with
   | some e => e != bit h 2
   | none => false)

/-- The elements of a CODED block from its index i on, with the escapes used: none where it is malformed. -/
def cwsCoded (nsym : Nat) (table index low esc : List Byte) : Nat → Nat → Nat → Option (List Nat × Nat)
  | 0, _, used => some ([], used)
  | n + 1, i, used =>
    let b := (nth 0#8 index (i / 2)).toNat
    let x := if i % 2 = 0 then b % 16 else b / 16
    let lo := (nth 0#8 low i).toNat
    let put (hi : Byte) (u : Nat) : Option (List Nat × Nat) :=
      (cwsCoded nsym table index low esc n (i + 1) u).map (fun r => ((hi.toNat * 256 + lo) :: r.1, r.2))
    if x < nsym then put (nth 0#8 table x) used
    else if x = 15 ∧ used < esc.length then put (nth 0#8 esc used) (used + 1)
    else none

/-- The elements of a block from its header and payload: none where it is malformed (R221, R222). -/
def cwsElems (h : Nat) (p : List Byte) : Option (List Nat) :=
  let c := 32 * (bits h 4 6 + 1)
  if bits h 0 2 = 2 then some (List.replicate c 0)
  else if bits h 0 2 = 1 then some ((List.range c).map (fun i => laneAt p (2 * i) 2))
  else
    let ns := bits h 10 4
    let ne := bits h 16 12
    let index := (p.drop ns).take (c / 2)
    let low := (p.drop (ns + c / 2)).take c
    let esc := (p.drop (ns + c / 2 + c)).take ne
    let pad := p.drop (ns + c / 2 + c + ne)
    match cwsCoded ns (p.take ns) index low esc c 0 0 with
    | some (l, used) => if used = ne ∧ pad.all (· == 0#8) then some l else none
    | none => none

/-- The elements of a block from its header and payload, once its check passes; or the cause of Table 9.8 (R222). -/
def cwsBlock (h : Nat) (p : List Byte) : Nat ⊕ List Nat :=
  match cwsElems h p with
  | none => .inl 5
  | some l => if (l.foldl (· + ·) 0) % 65536 ≠ bits h 48 16 then .inl 6 else .inr l

/-- What a CWS source gave: its elements, whether they are binary16, the bytes it took; the cause that ended it, at the block
`used`; whether it came to its goal. -/
structure CwsRes where
  cause : Nat
  elems : List Nat
  half : Bool
  used : Nat
  whole : Bool
  deriving DecidableEq, Repr

/-- How far a header lets the decoding of a stream go (R222, R223): the position after its block, or a cause. `goal` is in
elements (MINT) or bytes (CONVERT). -/
def cwsNext (h : Nat) (byBytes : Bool) (goal : Nat) (r : CwsRes) (first : Option Bool) : Nat ⊕ Nat :=
  let next := if byBytes then r.used + 8 * cwsLen h else r.elems.length + 32 * (bits h 4 6 + 1)
  if cwsBad h first then .inl 5 else if goal < next then .inl 2 else .inr next

/-- Decodes blocks of a stream's bytes until `goal` is met, a block fails, or the bytes end. -/
def cwsParse (l : List Byte) (byBytes : Bool) (goal : Nat) : Nat → CwsRes → Option Bool → CwsRes
  | 0, r, _ => r
  | f + 1, r, first =>
    if goal ≤ (if byBytes then r.used else r.elems.length) then { r with whole := true }
    else if byBytes ∧ goal < r.used + 8 then { r with cause := 2 }
    else if l.length < r.used + 8 then r
    else
      let h := ofBytes ((l.drop r.used).take 8)
      match cwsNext h byBytes goal r first with
      | .inl c => { r with cause := c }
      | .inr _ =>
        let n := 8 * (cwsLen h - 1)
        if l.length < r.used + 8 + n then r
        else match cwsBlock h ((l.drop (r.used + 8)).take n) with
          | .inl c => { r with cause := c }
          | .inr xs => cwsParse l byBytes goal f
              { r with elems := r.elems ++ xs, half := bit h 2, used := r.used + 8 * cwsLen h } (some (bit h 2))

/-- A stream before its first block. -/
def cwsStart : CwsRes := { cause := 0, elems := [], half := false, used := 0, whole := false }

/-- The bytes of a stream read block by block, as far as its decoding goes, and the error that ended them. -/
def cwsRead (v : Via) (host : Bool) (a : Nat) (byBytes : Bool) (goal : Nat) : Nat → List Byte → State → State × Fetched
  | 0, l, s => (s, { bytes := l, err := none })
  | f + 1, l, s =>
    let r := cwsParse l byBytes goal (goal / 8 + 1) cwsStart none
    if r.whole ∨ r.cause ≠ 0 then (s, { bytes := l, err := none })
    else
      let n := if l.length < r.used + 8 then 8 else 8 * (cwsLen (ofBytes ((l.drop r.used).take 8)) - 1)
      match readSpan s v host (a + l.length) n with
      | (t, some e, got) => (t, { bytes := l ++ got, err := some e })
      | (t, none, got) => cwsRead v host a byBytes goal f (l ++ got) t

/-! ## A conversion -/

/-- What a conversion did: its error with the cause of Table 9.8 (0 none), the bytes it took and wrote, the generator
after it, the bytes performed. -/
structure MRes where
  err : Option XErr
  cause : Nat
  off : Nat
  used : Nat
  size : Nat
  gen : Nat
  out : List Byte
  deriving DecidableEq, Repr

/-- The error of a cause of Table 9.8. -/
def causeErr (cause : Nat) : Option XErr :=
  if cause = 0 then none else some { st := causeSt cause, addr := 0, cva := false, host := false }

/-- A conversion that a cause of Table 9.8 ends before it writes. -/
def mintFail (gen cause off : Nat) : MRes :=
  { err := causeErr cause, cause := cause, off := off, used := 0, size := 0, gen := gen, out := [] }

/-- The source bytes of rows at a pitch (R224), or of a packed source: those before the first error, and that error. -/
def readRows (v : Via) (host : Bool) (a step n : Nat) : Nat → Nat → State → State × Fetched
  | 0, _, s => (s, { bytes := [], err := none })
  | f + 1, r, s => match readSpan s v host (a + r * step) n with
    | (t, some e, l) => (t, { bytes := l, err := some e })
    | (t, none, l) => (match readRows v host a step n f (r + 1) t with
      | (u, rest) => (u, { rest with bytes := l ++ rest.bytes }))

/-- The chunks of an output as addresses and bytes (R217). -/
def outPieces (deal : Bool) (dst : Nat) (l : List Byte) : List (Nat × List Byte) :=
  if deal then
    (List.range ((l.length + 127) / 128)).map (fun j => (dst + j % 8 * 2 ^ 21 + j / 8 * 128, (l.drop (128 * j)).take 128))
  else [(dst, l)]

/-- The pieces written in order, until the first error. -/
def writePieces (v : Via) : List (Nat × List Byte) → State → State × Option XErr × List Byte
  | [], s => (s, none, [])
  | (a, l) :: r, s => match writeSpan s v false none a (allOn l) with
    | (t, some e, n) => (t, some e, l.take n)
    | (t, none, _) => (match writePieces v r t with
      | (u, e, rest) => (u, e, l ++ rest))

/-- The bank that lane L of a dealt output lands in: its die and number (R217). -/
def dealBank (s : State) (v : Via) (dst L : Nat) : State × Option Status × Option (Nat × Nat) :=
  match viaXlate s v (dst + L * 2 ^ 21) 1 .write with
  | (.err st, t) => (t, some st, none)
  | (.ok p _, t) => (t, none, if bankTarget p then some (ppaDie p, ppaOff p / 2 ^ 21) else none)

/-- Whether the 8 lanes of a dealt output lie in the banks of one home set, lane L from `f` lanes before the end. -/
def dealCheck (v : Via) (dst : Nat) : Nat → Option (Nat × Nat) → State → State × Option XErr × Bool
  | 0, _, s => (s, none, true)
  | f + 1, first, s => match dealBank s v dst (7 - f) with
    | (t, some st, _) => (t, some (xErr v false st (dst + (7 - f) * 2 ^ 21)), true)
    | (t, none, none) => (t, none, false)
    | (t, none, some b) =>
      match first with
      | none => if b.2 % 8 = 0 then dealCheck v dst f (some b) t else (t, none, false)
      | some a => if b.1 = a.1 ∧ b.2 = a.2 + (7 - f) then dealCheck v dst f first t else (t, none, false)

/-- The bytes of a dealt or plain output that can be written: all, or the granules before the first it cannot make (R58). -/
def outPart (c : MCode) (dst : Nat) (whole : Bool) (l : List Byte) : List Byte :=
  if whole then l else l.take (wholeGranules (if c.deal then 0 else dst) l.length (l.length + 128))

/-- An output whose bytes overlap a source is undefined there (R167, R226): the source's rows, one by one. -/
def overlapRows (ctr : Nat) (same : Bool) (rows : List (Nat × Nat)) (p : Nat × List Byte) : List Byte :=
  rows.foldl (fun l r => overlapBytes ctr r.1 r.2 p.1 same l) p.2

/-- The output of a conversion is written, and the lane's counts take what was written (R211, R212, Table 15.7). A write that
fails ends it before the source's own error does. -/
def mintWrite (s : State) (v : Via) (c : MCode) (same : Bool) (rows : List (Nat × Nat)) (dst : Nat) (ps : List Piece)
    (whole : Bool) (r : MRes) : State × MRes :=
  let l := outPart c dst whole (pieceBytes ps)
  match writePieces v ((outPieces c.deal dst l).map (fun p => (p.1, overlapRows s.freeCtr same rows p)))
      { s with freeCtr := s.freeCtr + 1 } with
  | (t, err, out) =>
    let n := piecesDone out.length ps
    let t := (t.countRg (Reg.mintSat v.m) n.1).countRg (Reg.mintNan v.m) n.2
    (countEvent t 0x12 v.m out.length,
     match err with
     | some e => { r with err := some e, cause := 0, off := 0, size := l.length, out := out }
     | none => { r with size := l.length, out := out })

/-- A source of `count` elements whose first `av` were read is encoded and written, once DEAL's lanes are checked (R217); `r`
is what its reading came to. -/
def mintStore (s : State) (v : Via) (c : MCode) (same : Bool) (rows : List (Nat × Nat)) (dst count av gen : Nat) (m : MSrc)
    (r : MRes) : State × MRes :=
  match if c.deal then dealCheck v dst 8 none s else (s, none, true) with
  | (t, some e, _) => (t, { mintFail gen 0 0 with err := some e })
  | (t, none, false) => (t, mintFail gen 4 0)
  | (t, none, true) =>
    match convert c count t.freeCtr m av { gen := gen, sat := 0, nan := 0 } with
    | (ps, e) => mintWrite t v c same rows dst ps (decide (count ≤ av)) { r with gen := e.gen }

/-- The elements of a packed source of which the first n bytes were read: an element needs its scale too (R209). -/
def availElems (i : MFmt) (count n : Nat) : Nat :=
  if i.scale = 0 then min count (8 * n / i.w)
  else min count ((n - count * i.w / 8) / i.scale * i.unit)

/-- The rows of a source: address and bytes of each (R224). -/
def srcRows (c : MCode) (src n rows : Nat) : List (Nat × Nat) :=
  if c.pitch = 0 then [(src, n)] else (List.range rows).map (fun r => (src + r * (c.pitch * 128), n / max 1 rows))

/-- What the reading of a conversion's source gives (R208 to R226): nothing where a check ends the conversion first. -/
def mintRead (s : State) (v : Via) (host : Bool) (c : MCode) (isConvert : Bool) (src count : Nat) : State × Fetched :=
  let cws := c.inF == 13
  if mintCause c isConvert (if cws && isConvert then 0 else count) ≠ 0 ∨ (cws ∧ src % 8 ≠ 0) then
    (s, { bytes := [], err := none })
  else if cws then cwsRead v host src isConvert count (count / 4 + 2) [] s
  else
    let i := mfmt c.inF c.gsz
    let n := count / i.unit * i.bytes
    if c.pitch = 0 then readRows v host src 0 n 1 0 s
    else readRows v host src (c.pitch * 128) (n / max 1 (c.rows count)) (c.rows count) 0 s

/-- A conversion of a CWS source that was read (R222, R223). What a stream gave before a block that fails, or before a read
that fails, is converted and written (R58, R144; log 78). -/
def mintCws (s : State) (v : Via) (host : Bool) (c : MCode) (isConvert : Bool) (src dst goal gen : Nat) (got : Fetched) :
    State × MRes :=
  let early := mintCause c isConvert (if isConvert then 0 else goal)
  if early ≠ 0 then (s, mintFail gen early 0)
  else if src % 8 ≠ 0 then (s, mintFail gen 5 0)
  else
    let r := cwsParse got.bytes isConvert goal (goal / 8 + 1) cwsStart none
    let n := r.elems.length
    let last := if r.whole then mintCause c isConvert n else 0
    if last ≠ 0 then (s, mintFail gen last 0)
    else
      let off := if r.cause = 5 ∨ r.cause = 6 then r.used else 0
      let err := if r.cause ≠ 0 then causeErr r.cause else if r.whole then none else got.err
      mintStore s v c (!host) [(src, got.bytes.length)] dst
        (if r.whole then n else if isConvert then n + 2048 else goal) n gen
        { vals := r.elems.map (decodeF (if r.half then f16 else bf16)), codes := [], scales := [] }
        { mintFail gen 0 0 with err := err, cause := r.cause, off := off, used := r.used }

/-- A conversion of count elements, or of a CWS stream, whose source was read (R208 to R226). -/
def mintRun (s : State) (v : Via) (host : Bool) (c : MCode) (isConvert : Bool) (src dst count gen : Nat) (got : Fetched) :
    State × MRes :=
  if c.inF = 13 ∧ !c.reserved then mintCws s v host c isConvert src dst count gen got
  else
    let cause := mintCause c isConvert count
    if cause ≠ 0 then (s, mintFail gen cause 0)
    else
      let i := mfmt c.inF c.gsz
      let n := count / i.unit * i.bytes
      let rows := c.rows count
      let used := if c.pitch = 0 then n else rows * c.pitch * 128
      mintStore s v c (!host) (srcRows c src n rows) dst count (availElems i count got.bytes.length) gen
        (parseSrc c.inF i count got.bytes) { mintFail gen 0 0 with err := got.err, used := used }

/-- MINT_ERRm of a conversion fault that is taken (R227, Table 9.9). -/
def mintErrSet (s : State) (k : Nat) (r : MRes) : State :=
  if r.cause = 0 then s
  else s.driveField (Reg.mintErr (k / 8)) 0 32 (2 ^ 31 + k % 8 * 2 ^ 28 + r.cause * 2 ^ 24 + min r.off 0xFFFFFF)

end Sys2Proof.Machine
end

