-- ==== Sys2Proof/Machine/Digests.lean ====
section
/-! DEFINITION. The digests of a mover (R376 to R378). -/

namespace Sys2Proof.Machine

/-- The empty digest (R376). -/
def digestEmpty : Digest :=
  { count := 0, sum := 0#64, min := 0x7FF0000000000000#64, max := 0xFFF0000000000000#64, nan := 0, inf := 0,
    hash := 0#64, fmt := 0, folders := [] }

/-- Digest d of mover m. -/
def State.digest (s : State) (m d : Nat) : Digest := tget digestEmpty s.obs.digests (8 * m + d)

/-- The state with a digest replaced. -/
def State.setDigest (s : State) (m d : Nat) (x : Digest) : State :=
  { s with obs := { s.obs with digests := tset digestEmpty s.obs.digests (8 * m + d) x } }

/-- mix of R376. -/
def digestMix (x : Nat) : Nat :=
  let x := (x ^^^ (x / 2 ^ 30)) * 0xBF58476D1CE4E5B9 % 2 ^ 64
  let x := (x ^^^ (x / 2 ^ 27)) * 0x94D049BB133111EB % 2 ^ 64
  x ^^^ (x / 2 ^ 31)

/-- Digest d of mover m emptied; FMT stays. -/
def digestClear (s : State) (m d : Nat) : State := s.setDigest m d { digestEmpty with fmt := (s.digest m d).fmt }

/-- The bytes of an element of a digest format. -/
def foldSize (fmt : Nat) : Nat := nth 1 [4, 2, 2, 1, 1, 1, 4, 1] fmt

/-- The value of an element of a digest format. -/
def foldVal (fmt x : Nat) : FV :=
  match fmt with
  | 0 => decodeF f32 x
  | 1 => decodeF f16 x
  | 2 => decodeF bf16 x
  | 3 => decodeF e4m3 x
  | 4 => decodeF e5m2 x
  | 5 => ofInt false (signed x 8) 0
  | _ => ofInt false (signed x 32) 0

/-- The rank of a binary64 code that is no NaN: −0 below +0. -/
def rank64 (c : Nat) : Int := if bit c 63 then -((c % 2 ^ 63 : Nat) : Int) - 1 else (c : Int)

/-- MIN and MAX after an element. -/
def foldBounds (g : Digest) (c : Nat) : Digest :=
  { g with min := if rank64 c < rank64 g.min.toNat then BitVec.ofNat 64 c else g.min,
           max := if rank64 g.max.toNat < rank64 c then BitVec.ofNat 64 c else g.max }

/-- One element folded (R376). -/
def foldElem (fmt : Nat) (g : Digest) (x : Nat) : Digest :=
  let g := { g with count := (g.count + 1) % 2 ^ 64, hash := g.hash + BitVec.ofNat 64 (digestMix x) }
  if fmt = 7 then g
  else
    let v := foldVal fmt x
    match v with
    | .nan => { g with nan := min (g.nan + 1) 0xFFFFFFFF }
    | .inf _ => foldBounds { g with inf := min (g.inf + 1) 0xFFFFFFFF } (encodeIeee f64 v)
    | .fin _ _ _ =>
      let c := encodeIeee f64 v
      foldBounds { g with sum := BitVec.ofNat 64 (addCode f64 g.sum.toNat c) } c

/-- The elements of performed bytes, in order. -/
def foldElems (fmt : Nat) (l : List Byte) : List Nat :=
  (List.range (l.length / foldSize fmt)).map (fun i => laneAt l (i * foldSize fmt) (foldSize fmt))

/-- The bytes that a program context wrote fold into one digest (R377). -/
def foldInto (s : State) (k d fmt : Nat) (l : List Byte) : State :=
  let xs := foldElems fmt l
  let g := s.digest (k / 8) d
  if xs.isEmpty then s
  else s.setDigest (k / 8) d { xs.foldl (foldElem fmt) g with folders := addMem k g.folders }

/-- The bytes that a program context wrote fold into its open digests; `folds` holds them with their formats. -/
def foldBytes (s : State) (k : Nat) (folds : Table Nat) (l : List Byte) : State :=
  folds.foldl (fun t f => foldInto t k f.1 f.2 l) s

/-- The 64 B record of a digest (Table 15.6). -/
def digestRecord (s : State) (m d : Nat) : List Byte :=
  let g := s.digest m d
  let isOn := s.work.pctxs.any (fun e => e.1 / 8 == m && (match e.2.stream with
    | some x => (tfind x.folds d).isSome
    | none => false))
  dwBytes [g.count, g.sum.toNat, g.min.toNat, g.max.toNat, g.nan + g.inf * 2 ^ 32, g.hash.toNat, s.now,
           g.fmt + b2n isOn * 2 ^ 8 + b2n (decide (1 < g.folders.length)) * 2 ^ 9]

end Sys2Proof.Machine
end

