-- ==== Sys2Proof/Machine/Commands.lean ====
section
/-! DEFINITION. The commands of Table 6.3 but RELAY and STREAM: the checks at the start (R130, R143) and their effects
(R65, R66, R80, R81, R140, R141, R226, R267, R270, R378). -/

namespace Sys2Proof.Machine

/-! ## The checks at the start (R143) -/

/-- Whether an opcode is reserved (Table 6.3). -/
def opReserved (op : Nat) : Bool := op == 0 || op == 7 || decide (0x14 ≤ op)

/-- CMDR_AUTHr.PRIV. -/
def cmdPriv (s : State) (r : Nat) : Bool := s.rgBit (Reg.cmdrAuth r) 31

/-- Whether a descriptor breaks the authority of its ring (R130). -/
def authFails (s : State) (r : Nat) (d : Desc) : Bool :=
  !cmdPriv s r &&
  (!dCtxV d || (decide (0x0C ≤ dOp d) && decide (dOp d ≤ 0x0F)) ||
   (!s.rgBit (Reg.cmdrAuth r) 6 &&
    (decide (40960 ≤ dCtx d) || !(s.ctx (dCtx d)).bound || (s.ctx (dCtx d)).domain != s.rgField (Reg.cmdrAuth r) 0 6)))

/-- The physical flag of a flag field of a descriptor (R138, R253). -/
def dFlag (s : State) (d : Desc) (v : Nat) : Option Nat :=
  if dCtxV d && dOp d != 0x0C then flagOfIndex s (dCtx d) v else if v < 16384 then some v else none

/-- Whether a flag field of a descriptor lies outside its window (check 7). -/
def flagFails (s : State) (d : Desc) : Bool :=
  (dWv d && (dFlag s d (dWflag d)).isNone) || (dSv d && (dFlag s d (dSflag d)).isNone) ||
  ((dOp d == 0x08 || dOp d == 0x09) && (dFlag s d (bits (dAux0 d) 0 14)).isNone)

/-- The codes of a CONVERT. -/
def dMint (d : Desc) : MCode := mcode (dAux0 d) (dAux1 d)

/-- Whether an AUX field holds a reserved encoding (check 8). -/
def auxFails (d : Desc) : Bool :=
  let op := dOp d
  let a := dAux0 d
  (op == 0x03 && decide (3 < bits a 0 3)) || (op == 0x04 && (dMint d).reserved) ||
  (op == 0x05 && (bits a 0 10 == 0 || decide (512 < bits a 0 10))) || (op == 0x08 && decide (1 < bits a 14 2)) ||
  (op == 0x09 && bits a 14 2 == 3) || (op == 0x0E && bits a 23 2 == 3)

/-- Checks 1 to 7 of R143: the status of the first that fails. -/
def startEarly (s : State) (r : Nat) (d : Desc) : Status :=
  if opReserved (dOp d) || decide (4 < dScope d) || authFails s r d || (dCtxV d && decide (40960 ≤ dCtx d)) then .faultProt
  else if dCtxV d && dOp d != 0x0C && dOp d != 0x0D && !(s.ctx (dCtx d)).bound then .faultXlate
  else if dCtxV d && (s.ctx (dCtx d)).bound && dOp d != 0x0C && dClass d != (s.ctx (dCtx d)).cls then .faultProt
  else if flagFails s d then .faultProt
  else .ok

/-- Checks 1 to 8 of R143: the status of the first that fails. -/
def startCheck (s : State) (r : Nat) (d : Desc) : Status :=
  if startEarly s r d = .ok ∧ auxFails d then .faultProt else startEarly s r d

/-- The command of a program context ends with an error at an address, with its FAULT record (R84, R144); QUARANTINED
is no fault of a translation and writes none. -/
def cmdFault (s : State) (k : Nat) (x : PCtx) (e : XErr) : State :=
  let t := if e.st = .quarantined then s else faultRec s (128 + k / 8) (dTag x.desc) e.st e.addr e.cva e.host
  pctxDone t k e.st

/-- An error without an address. -/
def bareErr (st : Status) : XErr := { st := st, addr := 0, cva := false, host := false }

/-- The end of a command's transfers. -/
def cmdEnd (s : State) (k : Nat) (x : PCtx) (e : Option XErr) : State :=
  match e with
  | some e => cmdFault s k x e
  | none => pctxDone s k .ok

/-- A command done, or ended by a check of R143 that names no address. -/
def cmdEndSt (s : State) (k : Nat) (x : PCtx) (st : Status) : State :=
  if st = .ok then pctxDone s k .ok else cmdFault s k x (bareErr st)

/-- The physical SFLAG found at the start (R138). -/
def dSetFlag (s : State) (d : Desc) : Option Nat := if dSv d then dFlag s d (dSflag d) else none

/-- The table words that the start of a command reads: its context's entry, the flag that it waited for (R309). -/
def cmdWords (s : State) (d : Desc) : List (Tab × Nat) :=
  (if dCtxV d then [(.context, dCtx d)] else []) ++ (wflagOf s d).toList.map (fun p => (.flag, p))

/-- A command row: the head of ring r starts when it carries the row's opcode and passes `p`; the checks of R143 come
first, then a quarantined mover's answer (R110), then the effect. A reserved opcode has no row: any row starts it, and
check 1 ends it. -/
def cmdRun (s : State) (r op : Nat) (p : Desc → Bool) (eff : State → Nat → PCtx → State) : State :=
  match cmdStart s (r % 1024) (fun d => opReserved (dOp d) || (dOp d == op && p d)) with
  | none => s
  | some (k, x, t) =>
    match startCheck t (r % 1024) x.desc with
    | .ok => (match tableReads t (pctxSrc t k) (dTag x.desc) (cmdWords t x.desc) with
      | (false, t) => cmdFault t k x (bareErr .eccUncorr)
      | (true, t) =>
        if moverQuar t (k / 8) then pctxDone t k .quarantined
        else
          let y := { x with sflag := dSetFlag t x.desc }
          eff (t.setPctx k y) k y)
    | st =>
      let aux : Bool := dOp x.desc == 0x04 && startEarly t (r % 1024) x.desc == .ok
      cmdFault (if aux then mintErrSet t k (mintFail 0 1 0) else t) k x (bareErr st)

/-- A row without a further condition. -/
def anyDesc (_ : Desc) : Bool := true

/-- A command whose accesses pass the issue point first: one of its segments that waits holds it, and it goes on from there
once it is decided again; then the effect takes place (R116, R118). -/
def issueCmd (eff : State → Nat → PCtx → State) (s : State) (k : Nat) (x : PCtx) : State :=
  match issueRun s (.pctx k true) (pctxRq s k x) x.issued (fun t => eff t k x) with
  | (t, n, false) => t.setPctx k { x.waits t.now .issue with issued := n }
  | (t, _, true) =>
    let y := { x with wait := none }
    eff (t.setPctx k y) k y

/-! ## COPY, FILL, REDUCE, CONVERT (R140, R226) -/

/-- The effect of COPY. -/
def copyEff (s : State) (k : Nat) (x : PCtx) : State :=
  match copySpan s (pctxVia s k x) false false none (dSrc x.desc) (dDst x.desc) (dLen x.desc) with
  | (t, e, _) => cmdEnd t k x e

/-- COPY (R140). -/
def execCopy (r : Nat) (s : State) : Res := gateIn dFAB s (fun s => cmdRun s r 0x01 anyDesc (issueCmd copyEff))

/-- The bytes of a FILL: byte i takes byte i mod width of the pattern. -/
def fillBytes (d : Desc) : List Byte :=
  let p := toBytes (2 ^ bits (dAux0 d) 0 2) (dAux2 d)
  (List.range (dLen d)).map (fun i => nth 0#8 p (i % 2 ^ bits (dAux0 d) 0 2))

/-- The effect of FILL. -/
def fillEff (s : State) (k : Nat) (x : PCtx) : State :=
  match writeSpan s (pctxVia s k x) false none (dDst x.desc) (allOn (fillBytes x.desc)) with
  | (t, e, _) => cmdEnd t k x e

/-- FILL (R140). -/
def execFill (r : Nat) (s : State) : Res := gateIn dFAB s (fun s => cmdRun s r 0x02 anyDesc (issueCmd fillEff))

/-- The blocks of a REDUCE from block b on, until the first error. -/
def reduceBlocks (v : Via) (alias_ src dst n stride : Nat) : Nat → Nat → State → State × Option XErr
  | 0, _, s => (s, none)
  | f + 1, b, s => match copySpan s v false false (some alias_) (src + b * stride) dst n with
    | (t, some e, _) => (t, some e)
    | (t, none, _) => reduceBlocks v alias_ src dst n stride f (b + 1) t

/-- The first granule of an accumulator that translates to no BANK space, of the granules from a on (R140). -/
def accBad (v : Via) : Nat → Nat → Nat → State → Option Nat
  | 0, _, _, _ => none
  | f + 1, a, n, s =>
    if n = 0 then none
    else
      let k := min n (128 - a % 128)
      match viaXlate s v a k .write with
      | (.ok p _, t) => if (redTarget (some 3) p).isNone then some a else accBad v f (a + k) (n - k) t
      | (.err _, t) => accBad v f (a + k) (n - k) t

/-- The effect of REDUCE: LENGTH and the stride are multiples of the lane size, whatever LENGTH is (DESIGN CHOICE, log 72: of
a LENGTH of 0 R140 says OK as well); the accumulator lies in BANK space, which check 9 of R143 tests before any request. -/
def reduceEff (s : State) (k : Nat) (x : PCtx) : State :=
  let d := x.desc
  let v := pctxVia s k x
  let al := bits (dAux0 d) 0 3 + 3
  if dLen d % laneBytes al ≠ 0 ∨ dAux1 d % laneBytes al ≠ 0 then cmdFault s k x (bareErr .faultAlign)
  else match accBad v (dLen d / 128 + 2) (dDst d) (dLen d) s with
    | some a => cmdFault s k x (xErr v false .faultProt a)
    | none => (match reduceBlocks v al (dSrc d) (dDst d) (dLen d) (dAux1 d) (bits (dAux0 d) 8 8 + 1) 0 s with
      | (t, e) => cmdEnd t k x e)

/-- REDUCE (R140). -/
def execReduce (r : Nat) (s : State) : Res := gateIn dFAB s (fun s => cmdRun s r 0x03 anyDesc (issueCmd reduceEff))

/-- The effect of CONVERT: LENGTH counts source bytes; the generator is the command's, seeded from AUX2 (R215). -/
def convertEff (s : State) (k : Nat) (x : PCtx) : State :=
  let d := x.desc
  let c := dMint d
  let i := mfmt c.inF c.gsz
  let v := pctxVia s k x
  let count := if c.inF = 13 then dLen d else dLen d / i.bytes * i.unit
  if dLen d = 0 then pctxDone s k .ok
  else
    let r := if c.inF ≠ 13 ∧ mintCause c true 0 ≠ 8 ∧ dLen d % i.bytes ≠ 0 then (s, mintFail (dAux2 d) 2 0)
      else
        let t := mintRead s v false c true (dSrc d) count
        mintRun t.1 v false c true (dSrc d) (dDst d) count (dAux2 d) t.2
    cmdEnd (mintErrSet r.1 k r.2) k x r.2.err

/-- CONVERT (R226). -/
def execConvert (r : Nat) (s : State) : Res := gateIn dFAB s (fun s => cmdRun s r 0x04 anyDesc (issueCmd convertEff))

/-! ## SIGNAL, WAIT, FENCE, BARRIER -/

/-- A flag operation of a SIGNAL on another die follows the command's earlier writes on its lane (R248, R267). -/
def farSignal (s : State) (k : Nat) (x : PCtx) (die p : Nat) (set : Bool) : State :=
  if ¬ die ∈ s.build.dies then cmdFault s k x (bareErr .faultProt)
  else if portQuar s (routePort s die) then pctxDone s k .quarantined
  else releaseMake s { src := pctxSrc s k, ctx := dTag x.desc, scope := 5, effect := .farFlag die p set (dClass x.desc),
                       owner := .pctx k }

/-- The effect of SIGNAL (R257, R267). -/
def signalEff (s : State) (k : Nat) (x : PCtx) : State :=
  let a := dAux0 x.desc
  let set := bits a 14 2 == 0
  match dFlag s x.desc (bits a 0 14) with
  | none => cmdFault s k x (bareErr .faultProt)
  | some p =>
    if bit a 20 ∧ bits a 16 4 ≠ s.pwr.dieId then farSignal s k x (bits a 16 4) p set
    else cmdEndSt (flagOp s p set (pctxSrc s k) (dTag x.desc)) k x (flagSt s p)

/-- SIGNAL (R267). -/
def execSignal (r : Nat) (s : State) : Res := gateIn dFAB s (fun s => cmdRun s r 0x08 anyDesc signalEff)

/-- A WAIT on a physical flag that does not hold now: it spins, or registers (R261, R264). -/
def pctxWaitFlag (s : State) (k : Nat) (x : PCtx) (p mode scope : Nat) : State :=
  let y := x.waits s.now (.flag p)
  if dSpin s x.desc then s.setPctx k { y with spin := true }
  else
    waitAdd (s.setPctx k { y with spin := false })
      { flag := p, mode := mode, who := .pctx k, acq := true, scope := scope, dl := shortStamp s.now (dDeadline x.desc),
        src := pctxSrc s k, ctx := dTag x.desc, order := 0, overdue := false }

/-- The effect of WAIT. -/
def waitEff (s : State) (k : Nat) (x : PCtx) : State :=
  let mode := bits (dAux0 x.desc) 14 2
  match dFlag s x.desc (bits (dAux0 x.desc) 0 14) with
  | none => cmdFault s k x (bareErr .faultProt)
  | some p =>
    if flagSt s p ≠ .ok then cmdEndSt (flagRead s p (pctxSrc s k) (dTag x.desc)) k x (flagSt s p)
    else if waitHolds s p mode then pctxDone (waitNow s p mode (pctxSrc s k) (dTag x.desc)) k .ok
    else pctxWaitFlag s k x p mode (dScope x.desc)

/-- WAIT (R141). -/
def execWait (r : Nat) (s : State) : Res := gateIn dFAB s (fun s => cmdRun s r 0x09 anyDesc waitEff)

/-- FENCE (R141): it starts once the earlier commands of its ring completed; its completion is the release. -/
def execFence (r : Nat) (s : State) : Res :=
  gateIn dFAB s (fun s => cmdRun s r 0x0A anyDesc (fun t k _ => pctxDone t k .ok))

/-- The effect of BARRIER (R270). -/
def barrierEff (s : State) (k : Nat) (x : PCtx) : State :=
  let c := bits (dAux0 x.desc) 0 5
  barArrive (s.setPctx k (x.waits s.now (.barrier c))) c
    { src := pctxSrc s k, scope := dScope x.desc, ctx := dTag x.desc, who := some (.pctx k) }

/-- BARRIER (R270). -/
def execBarrier (r : Nat) (s : State) : Res := gateIn dFAB s (fun s => cmdRun s r 0x0B anyDesc barrierEff)

/-! ## CTX_BIND and CTX_UNBIND (R65, R66, R255, R256) -/

/-- The context entry that a 32 B image gives (Table 3.4). -/
def ctxOfImage (l : List Byte) : Ctx :=
  let w (i : Nat) : Nat := laneAt l (8 * i) 8
  { bound := false, domain := bits (w 0) 1 6, cls := bits (w 0) 7 4, spin := bit (w 0) 11, asid := bits (w 0) 16 16,
    flagBase := bits (w 0) 32 14, flagCount := bits (w 0) 48 11, homeNode := bits (w 1) 0 5, kvList := bits (w 2) 0 56,
    kvLen := bits (w 3) 0 21, kvShift := bits (w 3) 24 5, unbinding := false }

/-- Whether R65 lets an image be bound. -/
def bindOk (s : State) (c : Nat) (x : Ctx) : Bool :=
  isSealedDie s && !(s.ctx c).bound && domValid s x.domain && decide (x.flagCount ≤ 1024) &&
  decide (x.flagBase + x.flagCount ≤ 16384) &&
  (x.kvLen == 0 || (decide (4 ≤ x.kvShift) && decide (x.kvShift ≤ 16) && decide (x.kvLen * 2 ^ x.kvShift ≤ 16777216) &&
    !ppaFar x.kvList && (ppaSpace x.kvList == 0 || ppaSpace x.kvList == 8)))

/-- The effect of CTX_BIND: the entry is loaded, its window cleared, BOUND set. -/
def bindEff (s : State) (k : Nat) (x : PCtx) : State :=
  let c := dCtx x.desc
  if !dCtxV x.desc then cmdFault s k x (bareErr .faultProt)
  else
    match readSpan s { m := k / 8, rq := pctxRq s k x, ctx := none } false (dSrc x.desc) 32 with
    | (t, some e, _) => cmdFault t k x e
    | (t, none, l) =>
      let y := ctxOfImage l
      if bindOk t c y then
        let t := windowClear ((tableWrite t .context c).setCtx c y) y.flagBase y.flagCount (pctxSrc t k)
        pctxDone (t.setCtx c { y with bound := true }) k .ok
      else cmdFault t k x (bareErr .faultProt)

/-- CTX_BIND (R65). -/
def execCtxBind (r : Nat) (s : State) : Res := gateIn dFAB s (fun s => cmdRun s r 0x0C anyDesc (issueCmd bindEff))

/-- Whether a unit that waits acts for a context: a program context of one of its commands, or its engine wait. -/
def whoOfCtx (s : State) (c : Nat) (w : Who) : Bool :=
  match w with
  | .pctx k => (match s.pctx k with
    | some x => dOfCtx x.desc c
    | none => false)
  | .engine _ _ d _ => d == c
  | .ring _ => false

/-- An arrival whose unit is told no more. -/
def forget (p : Who → Bool) (a : Arrival) : Arrival :=
  { a with who := match a.who with
    | some w => if p w then none else some w
    | none => none }

/-- The units that a channel's arrivals would tell. -/
def barWhos (b : Bar) : List Who := (b.arrivals ++ b.heldBy ++ b.waiting).filterMap (fun a => a.who)

/-- Ends the flag and barrier waits of a context with FAULT_XLATE (R256); an arrival already made stays counted. -/
def endFlagWaits (s : State) (c : Nat) : State :=
  let mine := whoOfCtx s c
  let ws := (s.sync.waiters.filter (fun w => mine w.who)).map (fun w => w.who)
  let bs := (s.sync.bars.flatMap (fun b => barWhos b.2)).filter mine
  let bar (b : Nat × Bar) : Nat × Bar :=
    (b.1, { b.2 with arrivals := b.2.arrivals.map (forget mine), heldBy := b.2.heldBy.map (forget mine),
                     waiting := b.2.waiting.map (forget mine) })
  let t := { s with sync := { s.sync with waiters := s.sync.waiters.filter (fun w => !mine w.who),
                                          bars := s.sync.bars.map bar } }
  (ws ++ bs).foldl (fun t w => tell t w .faultXlate false 0) t

/-- Whether a relay's reservation stands at a ring. -/
def relayStands (s : State) (k : Nat) : Bool :=
  s.float.slots.any (fun r => r.2.standing.any (fun w => match w.who with
    | .relay j _ => j == k
    | _ => false))

/-- The waits of one program context, but a barrier's, end with FAULT_XLATE: a spin wait, a slot, a cheque, room in a queue,
a relay's reservation. -/
def endWaits (s : State) (k : Nat) (x : PCtx) : State :=
  let t := match x.frontWait with
    | some (.flag _, _) => pctxTold s k .faultXlate
    | some _ => frontFault s k .faultXlate
    | none => s
  let t := match x.wait with
    | some (.flag _) | some (.put _) => pctxFault t k .faultXlate
    | _ => t
  if relayStands t k then relayFault t k .faultXlate else t

/-- Ends the waits of a context's commands with FAULT_XLATE (R256). -/
def endRingWaits (s : State) (c : Nat) : State :=
  (s.work.pctxs.filter (fun e => dOfCtx e.2.desc c)).foldl (fun t e => match t.pctx e.1 with
    | some x => endWaits t e.1 x
    | none => t) s

/-- The effect of CTX_UNBIND: steps 1 and 2 of R66 and the end of the waits (R256); step 4 is CTX_UNBIND_FINISH. -/
def unbindEff (s : State) (k : Nat) (x : PCtx) : State :=
  let c := dCtx x.desc
  if !dCtxV x.desc || !(s.ctx c).bound || (s.ctx c).unbinding then cmdFault s k x (bareErr .faultProt)
  else
    let t := (s.setCtx c { s.ctx c with unbinding := true }).setPctx k { x with unbindOf := some c }
    endRingWaits (endFlagWaits (abortCtx t c) c) c

/-- CTX_UNBIND (R66). -/
def execCtxUnbind (r : Nat) (s : State) : Res := gateIn dFAB s (fun s => cmdRun s r 0x0D anyDesc unbindEff)

/-- Whether started commands or accepted requests of a context remain (R66 step 3). -/
def ctxBusy (s : State) (c : Nat) : Bool :=
  s.work.pctxs.any (fun e => dOfCtx e.2.desc c && !e.2.record) || s.ports.any (fun p => p.2.tags.any (fun t => t.2 == c)) ||
    s.mesh.flights.any (fun f => f.2.seg.ctx == some c && f.2.seg.src / 256 == s.pwr.dieId) ||
    s.regu.waiting.any (fun w => match w.who with
      | .seg g => g.ctx == some c
      | _ => false)

/-- The end of an unbind (R66 step 4). -/
def unbindFinish (s : State) (c : Nat) : State :=
  match s.work.pctxs.find? (fun e => e.2.unbindOf == some c && !e.2.done) with
  | none => s
  | some e =>
    if ctxBusy s c then s
    else
      let x := s.ctx c
      let t := windowClear s x.flagBase x.flagCount (pctxSrc s e.1)
      pctxDone (t.setCtx c { x with bound := false, unbinding := false }) e.1 .ok

/-- CTX_UNBIND_FINISH (R66). -/
def execCtxUnbindFinish (ctx : Nat) (s : State) : Res := gateIn dFAB s (fun s => unbindFinish s ctx)

/-! ## FRAME_MAP and FRAME_UNMAP (R80, R81) -/

/-- The ledger operation of a FRAME_MAP or FRAME_UNMAP (Table 6.3). -/
def dMapOp (d : Desc) (k : Nat) : MapOp :=
  let a := dAux0 d
  { unmap := dOp d == 0x0F, modeOnly := dOp d == 0x0E && bit a 27, first := bits a 0 17, count := bits a 17 6 + 1,
    mode := bits a 23 2, w := bit a 25, a := bit a 26, asid := bits (dAux1 d) 0 16, vpn := bits (dAux2 d) 0 27,
    owner := k }

/-- The effect of a ledger operation: done with its status, or it waits in the table unit. -/
def mapEff (s : State) (k : Nat) (x : PCtx) : State :=
  match opSubmit s (dMapOp x.desc k) with
  | (.done st, t) => cmdEndSt t k x st
  | (.waits, t) => t

/-- FRAME_MAP (R80). -/
def execFrameMap (r : Nat) (s : State) : Res :=
  gateIn dFAB s (fun s => cmdRun s r 0x0E (fun d => !bit (dAux0 d) 27) mapEff)

/-- FRAME_MAP_MODE_ONLY (R80). -/
def execFrameMapModeOnly (r : Nat) (s : State) : Res :=
  gateIn dFAB s (fun s => cmdRun s r 0x0E (fun d => bit (dAux0 d) 27) mapEff)

/-- FRAME_UNMAP (R81). -/
def execFrameUnmap (r : Nat) (s : State) : Res := gateIn dFAB s (fun s => cmdRun s r 0x0F anyDesc mapEff)

/-! ## INVALIDATE and FLUSH (R140) -/

/-- The lines of a range swept granule by granule, until the first error. -/
def sweepSpan (v : Via) (drop : Bool) : Nat → Nat → Nat → State → State × Option XErr
  | 0, _, _, s => (s, none)
  | f + 1, a, n, s =>
    if n = 0 then (s, none)
    else
      let k := min n (128 - a % 128)
      match viaXlate s v a k .read with
      | (.err st, t) => (t, some (xErr v false st a))
      | (.ok p _, t) => sweepSpan v drop f (a + k) (n - k) (slcSweep t (if (t.line (p / 128)).isSome then [p / 128] else []) drop)

/-- The effect of INVALIDATE (drop) and FLUSH. -/
def sweepEff (drop : Bool) (s : State) (k : Nat) (x : PCtx) : State :=
  if slcBanks s = 0 then pctxDone s k .ok
  else if bit (dAux0 x.desc) 0 then pctxDone (slcSweep s (s.slc.lines.map (·.1)) drop) k .ok
  else match sweepSpan (pctxVia s k x) drop (dLen x.desc / 128 + 2) (dSrc x.desc) (dLen x.desc) s with
    | (t, e) => cmdEnd t k x e

/-- INVALIDATE (R140). -/
def execInvalidate (r : Nat) (s : State) : Res := gateIn dFAB s (fun s => cmdRun s r 0x10 anyDesc (sweepEff true))

/-- FLUSH (R140). -/
def execFlush (r : Nat) (s : State) : Res := gateIn dFAB s (fun s => cmdRun s r 0x11 anyDesc (sweepEff false))

/-! ## DIGEST_READ and STAMP -/

/-- The effect of DIGEST_READ: the record is taken and the digest emptied in one tc, then the record is written. -/
def digestReadEff (s : State) (k : Nat) (x : PCtx) : State :=
  let d := bits (dAux0 x.desc) 0 3
  let rec_ := digestRecord s (k / 8) d
  let t := if bit (dAux0 x.desc) 3 then digestClear s (k / 8) d else s
  match writeSpan t (pctxVia s k x) false none (dDst x.desc) (allOn rec_) with
  | (u, e, _) => cmdEnd u k x e

/-- DIGEST_READ (R378). -/
def execDigestRead (r : Nat) (s : State) : Res := gateIn dFAB s (fun s => cmdRun s r 0x12 anyDesc (issueCmd digestReadEff))

/-- STAMP (R50, Table 2.2). -/
def execStamp (r : Nat) (s : State) : Res :=
  gateIn dFAB s (fun s => cmdRun s r 0x13 anyDesc (fun t k x =>
    pctxDone (ledgerRec t (128 + k / 8) 0x0A (dTag x.desc) (dAux2 x.desc) (ringSeq x.ring x.seq 0x13)) k .ok))

end Sys2Proof.Machine
end

