-- ==== Sys2Proof/Machine/Relay.lean ====
section
/-! DEFINITION. Relays (R203 to R207). -/

namespace Sys2Proof.Machine

/-! ## The chain list and its checks (R203, R204) -/

/-- The links of a chain list, from its bytes: (die, node, ring) from entry i on. -/
def chainLinks (b : List Byte) (n : Nat) : List (Nat × Nat × Nat) :=
  (List.range n).map (fun k =>
    let e := ofBytes ((b.drop (16 + 8 * k)).take 8)
    (bits e 0 4, bits e 4 5, bits e 9 12))

/-- Whether a (die, node) appears twice. -/
def chainTwice : List (Nat × Nat × Nat) → Bool
  | [] => false
  | e :: l => l.any (fun f => f.1 == e.1 && f.2.1 == e.2.1) || chainTwice l

/-- The domain that a relay's reservation carries. -/
def relayDom (s : State) (x : PCtx) : Option Nat := if dCtxV x.desc then some (dDomain s x.desc) else none

/-- The checks of R204 on a chain: the status of the first that fails, OK with nothing to move for a LENGTH of 0. -/
def chainCheck (s : State) (y : Relay) : Status :=
  if y.len = 0 then .ok
  else if y.links.any (fun e => !(decide (e.1 ∈ s.build.dies))) then .chainGap
  else if chainTwice y.links then .faultProt
  else match y.srcRing with
    | some r => if !(s.slotRing r).en || decide ((s.slotRing r).size < y.piece) then .faultProt else .ok
    | none => .ok

/-- A relay at its start, from its descriptor and the bytes of its chain list. -/
def relayOf (d : Desc) (b : List Byte) : Relay :=
  let h := ofBytes (b.take 8)
  let g := bits h 0 13 + 1
  { links := chainLinks b (bits (dAux0 d) 0 10), piece := g, pieces := (dLen d + g * 128 - 1) / (g * 128), len := dLen d,
    src := dSrc d, srcRing := if bit h 16 then some (bits h 17 12) else none, resv := 0, resvAt := 0,
    granted := false, srcSlot := none, sent := 0, slots := [], failed := false }

/-- The effect of RELAY's start: the chain list is read and the chain checked (R203, R204). -/
def relayEff (s : State) (k : Nat) (x : PCtx) : State :=
  let a := dAux2 x.desc
  if a % 8 ≠ 0 then cmdFault s k x { st := .faultAlign, addr := a, cva := dCtxV x.desc, host := false }
  else
    match readSpan s (pctxVia s k x) false a (16 + 8 * bits (dAux0 x.desc) 0 10) with
    | (t, some e, _) => cmdFault t k x e
    | (t, none, b) =>
      let y := relayOf x.desc b
      match chainCheck t y with
      | .ok => if y.len = 0 then pctxDone t k .ok else t.setPctx k { x with relay := some y }
      | st => cmdFault t k x (bareErr st)

/-- RELAY (R204). -/
def execRelay (r : Nat) (s : State) : Res := gateIn dFAB s (fun s => cmdRun s r 0x05 anyDesc (issueCmd relayEff))

/-! ## Reservation (R205) -/

/-- Whether a link stands behind a die-link port that is quarantined (R110, R207). -/
def relayCut (s : State) (die : Nat) : Bool := die != s.pwr.dieId && portQuar s (routePort s die)

/-- A link of a relay. -/
def Relay.link (y : Relay) (i : Nat) : Nat × Nat × Nat := nth (0, 0, 0) y.links i

/-- Whether what goes to a link comes from this die: its predecessor, or the source, lies here. -/
def relayFromHere (s : State) (y : Relay) (link : Nat) : Bool := link == 0 || (y.link (link - 1)).1 == s.pwr.dieId

/-- What a relay's messages carry: a piece, and the chain from a link on. -/
def relayHop (s : State) (x : PCtx) (y : Relay) (piece link : Nat) : RelayHop :=
  { die := s.pwr.dieId, dom := relayDom s x, lane := dClass x.desc, dl := shortStamp s.now (dDeadline x.desc), size := y.piece,
    piece := piece, link := link, chain := y.links.drop link, off := 0, data := [] }

/-- The header has passed the links of other dies up to a link: they hold slots of their own dies. -/
def Relay.passed (y : Relay) (link : Nat) : Relay :=
  { y with slots := y.slots ++ (List.range (link - y.resvAt)).map (fun i => (y.resv, y.resvAt + i, 0)), resvAt := link }

/-- The header at a ring of this die: a producer acquire, which waits when no slot is free (R186, R188). -/
def relayAcquire (s : State) (k : Nat) (x : PCtx) (y : Relay) : State :=
  let r := (y.link y.resvAt).2.2 % 4096
  match ringCheck s r (pctxSrc s k) (dTag x.desc) (relayDom s x) with
  | (.ok, t) =>
    if y.resv = 0 ∧ (t.slotRing r).size < y.piece then relayFault t k .faultProt
    else slotStand t r 0 { who := .relay k y.resvAt, src := pctxSrc t k, since := t.now, due := waitDue x.desc t.now }
  | (st, t) => relayFault t k st

/-- Whether a relay's reservation is under way: no error, a piece without a grant, and it stands at no ring. -/
def relayMoves (s : State) (k : Nat) (x : PCtx) (y : Relay) : Bool :=
  !x.done && !y.failed && !y.granted && !relayStands s k && decide (y.resv < y.pieces)

/-- The header of a relay of this die goes on from this die to its next link, here or on another die (R205). -/
def relayReserve (s : State) (k : Nat) : State :=
  match s.pctx k with
  | none => s
  | some x =>
    match x.relay with
    | none => s
    | some y =>
      let e := y.link y.resvAt
      if !relayMoves s k x y || decide (y.links.length ≤ y.resvAt) || !relayFromHere s y y.resvAt then s
      else if relayCut s e.1 then relayFault s k .quarantined
      else if e.1 = s.pwr.dieId then relayAcquire s k x y
      else
        let t := s.setPctx k { x with relay := some (y.passed (y.resvAt + 1)) }
        relayOut t e.1 (dClass x.desc) k (.header (relayHop s x y y.resv y.resvAt))

/-- The header of a relay of this die comes back from another die to a link here (R205). -/
def relayBack (s : State) (k : Nat) (h : RelayHop) : State :=
  match s.pctx k with
  | none => s
  | some x =>
    match x.relay with
    | none => s
    | some y =>
      if !relayMoves s k x y || y.resv != h.piece || decide (h.link < y.resvAt) || decide (y.links.length ≤ h.link) then s
      else
        let z := y.passed h.link
        let w := { x with relay := some z }
        relayAcquire (s.setPctx k w) k w z

/-- RELAY_RESERVATION (R205): the header goes on, or one from another die arrives. -/
def execRelayReservation (m p : Nat) (hop : Option RelayHop) (s : State) : Res :=
  let k := m % 32 * 8 + p % 8
  gateIn dFAB s (fun s => match hop with
    | none => relayReserve s k
    | some h => if h.die = s.pwr.dieId then relayBack s k h else hopArrive s k h)

/-! ## Transfer (R205, R206) -/

/-- A link of this die's relay detects an error in piece j, or the port behind which it and the links after it lie is
quarantined (`past`): none of them will release the piece. -/
def linkFails (s : State) (k j link : Nat) (past : Bool) (st : Status) : State :=
  let gone (e : Nat × Nat × Nat) : Bool := e.1 == j && (e.2.1 == link || (past && decide (link < e.2.1)))
  let t := match s.pctx k with
    | some x => (match x.relay with
      | some y => s.setPctx k { x with relay := some { y with slots := y.slots.filter (fun e => !gone e) } }
      | none => s)
    | none => s
  relayFault t k st

/-- An error at the link that a message has reached: of this die's relay, or reported to its source (R207). -/
def linkError (s : State) (key : Nat) (h : RelayHop) (past : Bool) (st : Status) : State :=
  if h.die = s.pwr.dieId then linkFails s key h.piece h.link past st else hopFails s key h st

/-- The slot that a link of this die holds for a piece. -/
def linkSlot (s : State) (key : Nat) (h : RelayHop) (ring : Nat) : Option Nat :=
  if h.die = s.pwr.dieId then
    ((s.pctx key).bind (·.relay)).bind (fun y =>
      (y.slots.find? (fun e => e.1 == h.piece && e.2.1 == h.link)).map (·.2.2))
  else (s.slotRing ring).oldest 0 (holdFar h.die key)

/-- The bytes of a message written granule by granule into a slot, with the records of its ranges (R51, R206): the first
error. -/
def linkWrite (rq : Rq) : Nat → Nat → List Byte → State → State × Option Status
  | 0, _, _, s => (s, none)
  | f + 1, a, l, s =>
    if l.isEmpty then (s, none)
    else
      let n := min l.length (128 - a % 128)
      match passWrite s rq a (allOn (l.take n)) with
      | (t, st) =>
        if stOk st then linkWrite rq f (a + n) (l.drop n) (rangeRecs t rq.src rq.ctx a n) else (t, some st)

/-- A message of a relay's granules reaches its next links in one pass (R205, R206): each link here writes them into its slot,
the first link that lies on another die gets them by its die-link port. -/
def relayPass (key : Nat) : Nat → RelayHop → State → State
  | 0, _, s => s
  | f + 1, h, s =>
    match h.chain with
    | [] => s
    | e :: _ =>
      if relayCut s e.1 then linkError s key h true .quarantined
      else if e.1 ≠ s.pwr.dieId then relayOut s e.1 h.lane key (.granules h)
      else
        let ring := e.2.2 % 4096
        let rq : Rq := { src := h.die * 256 + 128 + key / 8, ctx := none, cls := some h.lane, dl := some h.dl }
        let t := match linkSlot s key h ring with
          | none => linkError (slotOpErr s ring) key h false .faultProt
          | some i => (match linkWrite rq (h.data.length / 128 + 2) ((s.slotRing ring).ppa i + h.off) h.data s with
            | (t, none) => t
            | (t, some st) => linkError t key h false st)
        relayPass key f (hopNext h) t

/-- The granules of a flit of a relay arrive (R206): they cross the die, or reach the links here. -/
def relayFlit (s : State) (p : Nat) (f : Flit) (key : Nat) (h : RelayHop) : State :=
  if !linkUp s p then s
  else if !f.crcOk then replay s p
  else
    let t := countEvent s 0x0A (p * 16 + f.lane) 1
    if f.dest ≠ s.pwr.dieId then relayOut t f.dest f.lane key (.granules h)
    else if quarantined s (162 + p) then linkError t key h true .quarantined
    else relayPass key (h.chain.length + 1) h t

/-- LINK_FLIT_RECEIVE (R391). -/
def execLinkFlitReceive (port : Nat) (f : Flit) (s : State) : Res :=
  gate dEDGE 3 f.seg.src (.linkFlitReceive port f) s (fun s => match f.relay with
    | none => linkFlit s (port % 4) f
    | some (key, h) => relayFlit s (port % 4) f key h)

/-- The bytes of a piece. -/
def pieceLen (y : Relay) (j : Nat) : Nat := min (y.piece * 128) (y.len - j * (y.piece * 128))

/-- Where a relay reads a piece: a range from SRC in its command's context, or the slot it took of its source ring. -/
def pieceRead (s : State) (k : Nat) (x : PCtx) (y : Relay) : State × Option XErr × List Byte :=
  let n := pieceLen y y.resv
  match y.srcRing, y.srcSlot with
  | some r, some i => readSpan s { pctxVia s k x with ctx := none } false ((s.slotRing r).ppa i) n
  | _, _ => readSpan s (pctxVia s k x) false (dSrc x.desc + y.resv * (y.piece * 128)) n

/-- The source's slot gets its consumer release once its last granule has been read (R205). -/
def pieceFree (s : State) (k : Nat) (y : Relay) : State :=
  match y.srcRing, y.srcSlot with
  | some r, some i =>
    slotGiveC (s.setSlotRing r { s.slotRing r with holders := (s.slotRing r).holders.erase (holdPctx k, 1, i) }) r i
      (pctxSrc s k) none
  | _, _ => s

/-- A piece's bytes leave its source granule by granule. -/
def pieceSend (key : Nat) (h : RelayHop) (b : List Byte) (s : State) : State :=
  (List.range ((b.length + 127) / 128)).foldl (fun t i =>
    relayPass key (h.chain.length + 1) { h with off := 128 * i, data := (b.drop (128 * i)).take 128 } t) s

/-- The transfer of the granted piece (R205): its reads pass the issue point (R116), it is read once, and its granules go down
the chain. After an error at the source the granules before it are at the links, which release nothing. -/
def relayTransfer (s : State) (k : Nat) (x : PCtx) (y : Relay) : State :=
  match issueRun s (.pctx k false) (pctxRq s k x) x.issued (fun t => (pieceRead t k x y).1) with
  | (t, n, false) => t.setPctx k { x.waits t.now .issue with issued := n }
  | (t, _, true) =>
    match pieceRead t k x y with
    | (t, e, b) =>
      let j := y.resv
      let z := { y with resv := j + 1, resvAt := 0, granted := false, srcSlot := none,
                        sent := if e.isSome then y.sent else j + 1 }
      let t := (pieceFree t k y).setPctx k { x with relay := some z, wait := none, issued := 0 }
      let t := pieceSend k (relayHop s x y j 0) b t
      match e with
      | some f => relayStop (faultRec t (128 + k / 8) (dTag x.desc) f.st f.addr f.cva f.host) k f.st
      | none => t

/-- A granted piece is transferred, once its source ring has given it a full slot (R205). -/
def relayGo (s : State) (k : Nat) : State :=
  match s.pctx k with
  | none => s
  | some x =>
    match x.relay with
    | none => s
    | some y =>
      if x.done || y.failed || !y.granted then s
      else if moverQuar s (k / 8) then relayFault s k .quarantined
      else if y.srcRing.isSome && y.srcSlot.isNone then s
      else relayTransfer s k x y

/-- A relay asks for a full slot of its source ring (R186, R205). -/
def relaySource (s : State) (k : Nat) (x : PCtx) (r : Nat) : State :=
  match ringCheck s r (pctxSrc s k) (dTag x.desc) (relayDom s x) with
  | (.ok, t) => slotStand t r 1 { who := .relay k 512, src := pctxSrc t k, since := t.now, due := waitDue x.desc t.now }
  | (st, t) => relayFault t k st

/-- The grant of a piece returns to the source, which starts its transfer: every link holds a slot, or the links behind the
header's last place on this die lie on other dies. -/
def relayGrant (s : State) (k : Nat) : State :=
  match s.pctx k with
  | none => s
  | some x =>
    match x.relay with
    | none => s
    | some y =>
      let away := (y.links.drop (y.resvAt - 1)).all (fun e => e.1 != s.pwr.dieId)
      if !relayMoves s k x y || (decide (y.resvAt < y.links.length) && (y.resvAt == 0 || !away)) then s
      else
        let w := { x with relay := some { y.passed y.links.length with granted := true } }
        let t := s.setPctx k w
        relayGo (match y.srcRing with
          | some r => relaySource t k w r
          | none => t) k

/-- RELAY_GRANT (R205). -/
def execRelayGrant (m p : Nat) (s : State) : Res := gateIn dFAB s (fun s => relayGrant s (m % 32 * 8 + p % 8))

/-! ## The links' releases, and errors (R205, R207) -/

/-- A relay ends when every link has released its last piece, or, failed, when no piece in transfer is left. -/
def relayEnd (s : State) (k : Nat) (y : Relay) : State :=
  if (y.failed && !y.busy) || (decide (y.pieces ≤ y.resv) && y.slots.isEmpty) then pctxDone s k .ok else s

/-- A link of this die releases a slot that it holds, with what comes before a release at its ring's scope (R187, Table
10.3). -/
def linkRelease (s : State) (ring slot holder src : Nat) : State :=
  let z := s.slotRing ring
  slotFull ((releaseClean s src z.scope).setSlotRing ring { z with holders := z.holders.erase (holder, 0, slot) }) ring slot src

/-- The last granule of a link's oldest sent piece is at its point of coherence: a producer release at its ring's
SCOPE (R187, Table 10.3); of a link on another die its report arrives. A ring disabled meanwhile fails it (R189, R190). -/
def relayRelease (s : State) (k link : Nat) : State :=
  match s.pctx k with
  | none => s
  | some x =>
    match x.relay with
    | none => s
    | some y =>
      match y.slots.find? (fun e => e.2.1 == link && decide (e.1 < y.sent)) with
      | none => s
      | some e =>
        let l := y.link link
        let r := l.2.2 % 4096
        let z := s.slotRing r
        let own : Bool := l.1 == s.pwr.dieId
        if x.done || (own && !releaseReady s (pctxSrc s k) z.scope) then s
        else if own && (relayDenied z (relayDom s x) || !z.holders.contains (holdPctx k, 0, e.2.2)) then
          linkFails (slotOpErr s r) k e.1 link false .faultProt
        else
          let y := { y with slots := y.slots.erase e }
          let t := s.setPctx k { x with relay := some y }
          relayEnd (if own then linkRelease t r e.2.2 (holdPctx k) (pctxSrc s k) else t) k y

/-- A link here of a relay of another die releases the oldest slot that the relay holds at its ring, and reports it to the
source; with none held, or its ring disabled, it reports the error (R189, R205, R207). -/
def hopRelease (s : State) (key : Nat) (h : RelayHop) : State :=
  let r := hopRing h
  let z := s.slotRing r
  let src := h.die * 256 + 128 + key / 8
  match z.oldest 0 (holdFar h.die key) with
  | none => hopFails (slotOpErr s r) key h .faultProt
  | some i =>
    if relayDenied z h.dom then hopFails (slotOpErr s r) key h .faultProt
    else if releaseReady s src z.scope then
      relayOut (linkRelease s r i (holdFar h.die key) src) h.die h.lane key (.released h.link h.piece)
    else s

/-- RELAY_LINK_RELEASE (R205). -/
def execRelayLinkRelease (m p link : Nat) (hop : Option RelayHop) (s : State) : Res :=
  let k := m % 32 * 8 + p % 8
  gateIn dFAB s (fun s => match hop with
    | none => relayRelease s k link
    | some h => hopRelease s k h)

/-- A link's report reaches the source (R207): the link releases nothing more, and no new piece starts. -/
def relayReport (s : State) (k link : Nat) (st : Status) : State :=
  match s.pctx k with
  | none => s
  | some x =>
    match x.relay with
    | none => s
    | some y =>
      if x.done || stOk st then s
      else
        relayFault (s.setPctx k { x with relay := some { y with slots := y.slots.filter (fun e => e.2.1 != link) } }) k st

/-- RELAY_ERROR_REPORT (R207). -/
def execRelayErrorReport (m p link : Nat) (st : Status) (s : State) : Res :=
  gateIn dFAB s (fun s => relayReport s (m % 32 * 8 + p % 8) link st)

end Sys2Proof.Machine
end

