-- ==== Sys2Proof/Machine/Ports.lean ====
section
/-! DEFINITION. The engine ports: their operations (R383 to R386) and SYNC requests (R387, R388). -/

namespace Sys2Proof.Machine

/-! ## Acceptance (R383, R384, R386) -/

/-- The fields of a request within their widths (Table 16.2). -/
def portNorm (q : PortReq) : PortReq :=
  { q with port := q.port % 128, tag := q.tag % 256, ctx := q.ctx % 65536, addr := q.addr % 2 ^ 48, cnt := q.cnt % 16,
           dl := q.dl % 2 ^ 24, scope := q.scope % 8, aop := q.aop % 8 }

/-- The operations of Table 16.3 by their codes: whether a port of a kind (0 MRP, 1 MWP, 2 VXP, 3 SCP) permits one. -/
def portPermits (kind op : Nat) : Bool :=
  if op = 0 ∨ op = 2 then kind != 1
  else if op = 1 ∨ op = 3 then kind != 0
  else if op = 4 then kind == 2 || kind == 3
  else op == 5 || op == 6

/-- Whether a request of an operation takes write-data beats. -/
def opWrites (op : Nat) : Bool := op == 1 || op == 3 || op == 4

/-- The bytes of a write's data. -/
def writeBytes (q : PortReq) (atomic : Bool) : Nat := if atomic then 128 else (q.cnt + 1) * 128

/-- KIND of a SYNC request (Table 16.4). -/
def syncKind (q : PortReq) : Nat := bits q.addr 0 4

/-- Whether a request uses a reserved code: a scope, an x.req_aop, a KIND. -/
def portReserved (q : PortReq) (op : Nat) : Bool :=
  (decide (2 ≤ op) && op != 4 && decide (4 < q.scope)) || (op == 4 && decide (5 < q.aop)) ||
  (op == 5 && decide (9 < syncKind q))

/-- The answer given 1 tc after acceptance (R384): the lowest error code that applies, OK where the request issues. -/
def portCheck (s : State) (q : PortReq) (op : Nat) : Status :=
  if !portPermits (q.port % 4) op || portReserved q op || (s.port q.port).tags.any (fun t => t.1 == q.tag) then .faultProt
  else if (op != 5 && op != 6 && q.addr % 128 != 0) || (op == 4 && q.cnt != 0) then .faultAlign
  else if s.rgBit (Reg.meshQuar (q.port / 32)) (q.port % 32) then .quarantined
  else .ok

/-- Whether a port's issue queue holds 16 requests, those that wait for their beats among them (R386). -/
def portFull (s : State) (port : Nat) : Bool :=
  decide (16 ≤ (s.port port).writes.length + (s.port port).queue.length)

/-- Whether a port's handshake may complete in this tc (R383, R386): one request a tc, room in its issue queue at the start of
the tc and now, and a tc that the governor does not withhold (R350). -/
def portReady (s : State) (port : Nat) : Bool :=
  !portFull s port && !(s.port port).full && (s.port port).took != some s.clk.tc && !withheldNow s

/-- Every port's queue as it stands at the start of a tc (R386). -/
def portsMark (s : State) : State :=
  { s with ports := s.ports.map (fun p => (p.1, { p.2 with full := portFull s p.1 })) }

/-- A request stands at its handshake until the next tc. -/
def portStands (s : State) (q : PortReq) (c : Instr) : State :=
  edgeWait (s.setPort q.port { s.port q.port with stands := some ((s.port q.port).stands.getD q.tag) })
    (dHome (q.port / 4)) (some (nextTc s)) c

/-- An engine port presents a request (R386): where its handshake may complete, `eff` acts on it; a presented request ends its
node's quiescence (R266). Behind a latched group it waits (R347), and behind one that stands at the handshake. -/
def portGate (q : PortReq) (c : Instr) (s : State) (eff : State → PortReq → State) : Res :=
  let q := portNorm q
  let n := q.port / 4
  gate (dHome n) 1 (s.src q.port) c s (fun s =>
    let t := lendOff s n
    if clampOn t n then edgeWait t (dHome n) (some n) c
    else if !portReady t q.port || (t.port q.port).stands.any (· != q.tag) then portStands t q c
    else eff (t.setPort q.port { t.port q.port with stands := none, took := some t.clk.tc }) q)

/-- A request accepted: its tag is in use, and it has its place in its node's order. -/
def portAccept (s : State) (q : PortReq) : State :=
  s.setPort q.port { s.port q.port with tags := (s.port q.port).tags ++ [(q.tag, q.ctx)],
                                        count := nextOrder s (q.port / 4) }

/-- A request answered at once with an error: no tag is taken, an earlier request keeps its own. -/
def portRefuse (s : State) (q : PortReq) (st : Status) : State := s.emit (.beat q.port q.tag 1 st 0 true [])

/-- A request that passes R384 issues. -/
def portIssue (op : Nat) (s : State) (q : PortReq) (eff : State → PortReq → State) : State :=
  match portCheck s q op with
  | .ok => eff (portAccept s q) q
  | st => portRefuse s q st

/-! ## Reads and fences -/

/-- An accepted read: of a context that is not bound or whose unbind runs, every granule fails (R66, R385). -/
def portReadReq (op : Nat) (s : State) (q : PortReq) : State :=
  match portCtxSt s q.ctx with
  | .ok => portAccess s { q := q, op := op, order := (s.port q.port).count, data := [], issued := 0 }
  | st => portBeats q.port q.tag 17 ((List.range (q.cnt + 1)).map (fun _ => (st, List.replicate 128 0#8))) s

/-- PORT_RD (R384). -/
def execPortRd (q : PortReq) (s : State) : Res :=
  portGate q (.portRd q) s (fun s q => portIssue 0 s q (portReadReq 0))

/-- PORT_RD_ACQ (R384, R243). -/
def execPortRdAcq (q : PortReq) (s : State) : Res :=
  portGate q (.portRdAcq q) s (fun s q => portIssue 2 s q (portReadReq 2))

/-- A release or an answer of a port request. -/
def portRelease (s : State) (q : PortReq) (scope : Nat) (e : Effect) : State :=
  releaseMake s { src := s.src q.port, ctx := ctxTag s q.ctx, scope := scope, effect := e,
                  owner := .port q.port q.tag (s.ctx q.ctx).homeNode (s.port q.port).count }

/-- An operation of a context that is bound and not unbinding (R66). -/
def portCtx (s : State) (q : PortReq) (eff : State → State) : State :=
  match portCtxSt s q.ctx with
  | .ok => eff s
  | st => portDone s q.port q.tag st

/-- PORT_FENCE (R384): the waits of Table 10.3 for the scope. -/
def execPortFence (q : PortReq) (s : State) : Res :=
  portGate q (.portFence q) s (fun s q => portIssue 6 s q (fun t q => portCtx t q (fun t => portRelease t q q.scope .nothing)))

/-! ## Writes and their beats (R383) -/

/-- A write whose beats are complete issues; a store-release is performed after its waits (R239). -/
def portPerform (s : State) (w : PWrite) : State :=
  if w.refused then s
  else if w.release then
    releaseMake s { src := s.src w.q.port, ctx := ctxTag s w.q.ctx, scope := w.q.scope,
                    effect := .portWrite w.q w.order w.bytes,
                    owner := .port w.q.port w.q.tag (portHomeNode s w.q) w.order }
  else portAccess s { q := w.q, op := if w.atomic then 4 else 1, order := w.order, data := w.bytes, issued := 0 }

/-- The bytes of a write-data beat: MWP and VXP 256, SCP 64. -/
def beatBytes (port : Nat) : Nat := if port % 4 = 3 then 64 else 256

/-- One beat goes to the oldest accepted write whose beats are due. -/
def portBeat (s : State) (port : Nat) (b : List WByte) : State :=
  let x := s.port port
  match x.writes with
  | [] => s
  | w :: l =>
    let k := min (beatBytes port) (writeBytes w.q w.atomic - w.bytes.length)
    let w := { w with bytes := w.bytes ++ (b ++ List.replicate k (0#8, false)).take k }
    if writeBytes w.q w.atomic ≤ w.bytes.length then portPerform (s.setPort port { x with writes := l }) w
    else s.setPort port { x with writes := w :: l }

/-- Beats one after another. -/
def portBeatsIn (s : State) (port : Nat) (b : List WByte) : State :=
  let k := beatBytes port
  (List.range ((b.length + k - 1) / k)).foldl (fun t i => portBeat t port ((b.drop (i * k)).take k)) s

/-- An accepted write waits for its beats, refused or not. -/
def portPush (s : State) (q : PortReq) (op : Nat) (refused : Bool) : State :=
  let p := s.port q.port
  let w : PWrite := { q := q, order := p.count, release := op == 3, atomic := op == 4, refused := refused, bytes := [] }
  s.setPort q.port { p with writes := p.writes ++ [w] }

/-- An accepted write takes its tag; of a context that is not bound or whose unbind runs it fails (R66). -/
def portTake (s : State) (q : PortReq) (op : Nat) : State :=
  match portCtxSt s q.ctx with
  | .ok => portPush (portAccept s q) q op false
  | st => portPush (portDone (portAccept s q) q.port q.tag st) q op true

/-- A write request with the beats that come with it. A port that does not write has no beats. -/
def portWriteReq (op : Nat) (q : PortReq) (b : List WByte) (c : Instr) (s : State) : Res :=
  portGate q c s (fun s q =>
    let t := match portCheck s q op with
      | .ok => portTake s q op
      | st => if portPermits (q.port % 4) op then portPush (portRefuse s q st) q op true else portRefuse s q st
    portBeatsIn t q.port b)

/-- PORT_WR (R384). -/
def execPortWr (q : PortReq) (beats : List WByte) (s : State) : Res := portWriteReq 1 q beats (.portWr q beats) s

/-- PORT_WR_REL (R384, R239). -/
def execPortWrRel (q : PortReq) (beats : List WByte) (s : State) : Res := portWriteReq 3 q beats (.portWrRel q beats) s

/-- PORT_ATOMIC (R384). -/
def execPortAtomic (q : PortReq) (beats : List WByte) (s : State) : Res := portWriteReq 4 q beats (.portAtomic q beats) s

/-- PORT_WRITE_BEAT (R383). -/
def execPortWriteBeat (port : Nat) (beat : List WByte) (s : State) : Res :=
  let p := port % 128
  gate (dHome (p / 4)) 1 (s.src p) (.portWriteBeat port beat) s (fun s =>
    if clampOn s (p / 4) then edgeWait s (dHome (p / 4)) (some (p / 4)) (.portWriteBeat port beat) else portBeat s p (beat.take (beatBytes p)))

/-! ## SYNC requests (R387, R388, R253, R262) -/

/-- SIDE. -/
def syncSide (q : PortReq) : Nat := bits q.addr 4 1
/-- ORD. -/
def syncOrd (q : PortReq) : Bool := bit q.addr 5

/-- A SYNC request of a row's KIND; one with a reserved KIND is answered with FAULT_PROT, one with another row's KIND is
not this row's. -/
def syncGate (kind : Nat) (q : PortReq) (c : Instr) (s : State) (eff : State → PortReq → State) : Res :=
  portGate q c s (fun s q =>
    if syncKind q = kind ∨ 9 < syncKind q then
      portIssue 5 s q (fun t q => portCtx t q (fun t => eff t q))
    else s)

/-- DONE for a SYNC request. -/
def syncDone (s : State) (q : PortReq) (st : Status) : State := portDone s q.port q.tag st

/-- NOT_AVAIL with a reason (R387). -/
def notAvail (s : State) (q : PortReq) (reason : Nat) : State :=
  portEnd s q.port q.tag 3 .ok 0 (toBytes 1 reason)

/-- Whether a FENCE of the port still waits, behind which a flag set or cleared acts as a release (R243, Table 10.4). -/
def fenceWaits (s : State) (port : Nat) : Bool :=
  s.sync.releases.any (fun r => match r.2.owner, r.2.effect with
    | .port p _ _ _, .nothing => p == port
    | _, _ => false)

/-- FLAG_SET and FLAG_CLR (R257, R267): a release with ORD; with RMT on die DIE behind the port's data on its lane (R248), and
its acknowledgement comes with it; behind a FENCE that waits, after it. -/
def syncSet (set : Bool) (s : State) (q : PortReq) : State :=
  match flagOfIndex s q.ctx (syncObj q) with
  | none => syncDone s q .faultProt
  | some p =>
    let die := bits q.addr 7 4
    if bit q.addr 6 ∧ die ≠ s.pwr.dieId then
      (if ¬ die ∈ s.build.dies then syncDone s q .faultProt
       else portRelease s q (if syncOrd q then q.scope else 5) (.farFlag die p set (s.ctx q.ctx).cls))
    else if syncOrd q then portRelease s q q.scope (.flag p set)
    else if fenceWaits s q.port then portRelease s q 0 (.flag p set)
    else syncDone (flagOp s p set (s.src q.port) (ctxTag s q.ctx)) q (flagSt s p)

/-- FLAG_SET (R387). -/
def execFlagSet (q : PortReq) (s : State) : Res := syncGate 0 q (.flagSet q) s (syncSet true)

/-- FLAG_CLR (R387). -/
def execFlagClr (q : PortReq) (s : State) : Res := syncGate 1 q (.flagClr q) s (syncSet false)

/-- The tokens of the engine entries in use. -/
def tokensUsed (s : State) : List Nat :=
  let tok (w : Who) : Option Nat := match w with
    | .engine t _ _ _ => some t
    | _ => none
  s.sync.waiters.filterMap (fun w => tok w.who) ++
  s.sync.wakes.filterMap (fun w => if w.kind = 0 then some w.id else none) ++
  s.sync.bars.flatMap (fun b => (barWhos b.2).filterMap tok)

/-- The lowest token that no entry of the pool uses. -/
def freeToken (s : State) : Nat := ((List.range 4097).find? (fun t => !(t ∈ tokensUsed s))).getD 4096

/-- The pool is full (R262): the node's bit of FLAG_POOL_WAIT is set. -/
def poolRefuse (s : State) (q : PortReq) : State :=
  notAvail (s.setRgBit Reg.flagPoolWait (portHomeNode s q) true) q 0

/-- FLAG_POOL_PEAK follows the entries in use. -/
def poolPeak (s : State) : State :=
  if s.rg Reg.flagPoolPeak < poolUsed s then s.driveField Reg.flagPoolPeak 0 13 (poolUsed s) else s

/-- WAITING with a token; where the wait is an acquire, later requests of its context wait for it (R240, R262). -/
def syncWaiting (s : State) (q : PortReq) (tok : Nat) (acq : Bool) : State :=
  let p := s.port q.port
  let t := if acq then s.setPort q.port { p with acquires := p.acquires ++ [(tok, q.ctx, p.count)] } else s
  portEnd t q.port q.tag 2 .ok 0 (toBytes 2 tok)

/-- A flag wait of mode 0 WAIT-SET, 1 WAIT-CLR or 2 WAIT-SET-THEN-CLR (R262, R264). -/
def syncWait (mode : Nat) (s : State) (q : PortReq) : State :=
  match flagOfIndex s q.ctx (syncObj q) with
  | none => syncDone s q .faultProt
  | some p =>
    if flagSt s p ≠ .ok then syncDone (flagRead s p (s.src q.port) (ctxTag s q.ctx)) q (flagSt s p)
    else if waitHolds s p mode then
      let t := syncDone (waitNow s p mode (s.src q.port) (ctxTag s q.ctx)) q .ok
      if syncOrd q then acquire t q.port q.scope else t
    else if (s.ctx q.ctx).spin then notAvail s q 2
    else if 4096 ≤ poolUsed s then poolRefuse s q
    else
      let tok := freeToken s
      syncWaiting (poolPeak (waitAdd s
        { flag := p, mode := mode, who := .engine tok q.port q.ctx (portHomeNode s q), acq := syncOrd q, scope := q.scope,
          dl := q.dl, src := s.src q.port, ctx := ctxTag s q.ctx, order := 0, overdue := false })) q tok (syncOrd q)

/-- WAIT_SET (R262). -/
def execWaitSet (q : PortReq) (s : State) : Res := syncGate 2 q (.waitSet q) s (syncWait 0)

/-- WAIT_CLR (R262). -/
def execWaitClr (q : PortReq) (s : State) : Res := syncGate 3 q (.waitClr q) s (syncWait 1)

/-- WAIT_SET_THEN_CLR (R262). -/
def execWaitSetThenClr (q : PortReq) (s : State) : Res := syncGate 4 q (.waitSetThenClr q) s (syncWait 2)

/-- SLOT_ACQ: it stands at the ring, which decides (R186, R188, R189). -/
def syncSlotAcq (s : State) (q : PortReq) : State :=
  let r := syncObj q
  match ringCheck s r (s.src q.port) (ctxTag s q.ctx) (some (portDom s q)) with
  | (.ok, t) =>
    slotStand t r (syncSide q)
      { who := .acquire q (syncSide q), src := t.src q.port, since := t.now, due := stampDue t q.dl }
  | (st, t) => syncDone t q st

/-- SLOT_ACQ (R188). -/
def execSlotAcq (q : PortReq) (s : State) : Res := syncGate 5 q (.slotAcq q) s syncSlotAcq

/-- SLOT_REL: the oldest slot of the side that the engine context holds, at the ring's SCOPE (R187, R188). -/
def syncSlotRel (s : State) (q : PortReq) : State :=
  let r := syncObj q
  let side := syncSide q
  match slotGive s r side (holdEng q.port q.ctx) (s.src q.port) (ctxTag s q.ctx) (portDom s q) with
  | (.error st, t) => syncDone t q st
  | (.ok i, t) =>
    if side = 0 then portRelease t q (t.slotRing r).scope (.slotFull r i)
    else syncDone (slotGiveC t r i (t.src q.port) (some q.ctx)) q .ok

/-- SLOT_REL (R187). -/
def execSlotRel (q : PortReq) (s : State) : Res := syncGate 6 q (.slotRel q) s syncSlotRel

/-- CHQ_TAKE: it stands at the queue, which decides (R197, R199). -/
def syncChqTake (s : State) (q : PortReq) : State :=
  let r := syncObj q
  match takeCheck s r (s.src q.port) (ctxTag s q.ctx) (portDom s q) with
  | (.ok, t) =>
    let x := t.queue r
    takeDecide (t.setQueue r { x with standing := x.standing ++
      [{ who := .take q, src := t.src q.port, since := t.now, due := stampDue t q.dl }] }) r (some (.take q))
  | (st, t) => syncDone t q st

/-- CHQ_TAKE (R197). -/
def execChqTake (q : PortReq) (s : State) : Res := syncGate 7 q (.chqTake q) s syncChqTake

/-- CHQ_PUT: a release at the queue's SCOPE of the cheque in x.req_val (R196, R199). -/
def syncChqPut (s : State) (q : PortReq) : State :=
  portRelease s q (s.queue (syncObj q)).scope (.cheque (syncObj q) q.val.toNat (portDom s q) (stampDue s q.dl))

/-- CHQ_PUT (R196). -/
def execChqPut (q : PortReq) (s : State) : Res := syncGate 8 q (.chqPut q) s syncChqPut

/-- BARRIER at an engine port: an arrival that is a release at its scope, and waits with a token (R270, R271, R273). -/
def syncBarrier (s : State) (q : PortReq) : State :=
  let c := syncObj q
  let b := s.bar c
  let n := barCount s c
  if 32 ≤ c ∨ !barEn s c then syncDone s q .faultProt
  else if releaseReady s (s.src q.port) q.scope ∧ b.arrived = n ∧ b.held = n then
    syncDone (syncErrEvent (syncErr (releaseClean s (s.src q.port) q.scope) 0 (s.src q.port) .barrierOverrun)
      (s.src q.port) (ctxTag s q.ctx) .barrierOverrun c) q .barrierOverrun
  else if 4096 ≤ poolUsed s then poolRefuse s q
  else
    let tok := freeToken s
    syncWaiting (poolPeak (barArrive s c
      { src := s.src q.port, scope := q.scope, ctx := ctxTag s q.ctx,
        who := some (.engine tok q.port q.ctx (portHomeNode s q)) })) q tok true

/-- BARRIER at an engine port (R270). -/
def execPortBarrier (q : PortReq) (s : State) : Res := syncGate 9 q (.portBarrier q) s syncBarrier

end Sys2Proof.Machine
end

