-- ==== Sys2Proof/Machine/Stream.lean ====
section
/-! DEFINITION. Stream programs (Chapter 7): STREAM, the back, the front's instructions, NEXT and its retirement, the
taking of a pending fault. -/

namespace Sys2Proof.Machine

/-! ## STREAM (R158) -/

/-- A seam set that is closed (Table 7.1). -/
def seamClosed : SeamSet := { isOpen := false, ranges := [] }

/-- The state of a program at its start (Table 7.1). -/
def streamStart (d : Desc) : Stream :=
  { front := { pc := bits (dAux0 d) 0 15, prog := bits (dAux0 d) 0 15,
               a := [(0, dSrc d), (1, dDst d), (2, dAux2 d)].filter (fun e => e.2 != 0),
               n := [(0, dLen d), (1, dAux1 d)].filter (fun e => e.2 != 0), strides := [], levels := [],
               guardSet := seamClosed, declareSet := seamClosed, unclaimed := 0 },
    fwait := none, fsince := 0, back := [], stage := [], gen := 0, check := none, crossed := false, halted := false,
    changed := [], tainted := false, kept := none, folds := [] }

/-- The effect of STREAM: check 9 of R143, then the program begins at AUX0[14:0]. -/
def streamEff (s : State) (k : Nat) (x : PCtx) : State :=
  let d := x.desc
  if !dCtxV d || decide (2 ^ 48 ≤ dSrc d) || decide (2 ^ 48 ≤ dDst d) || decide (2 ^ 48 ≤ dAux2 d) then
    cmdFault s k x (bareErr .faultProt)
  else s.setPctx k { x with stream := some (streamStart d), spin := dSpin s d }

/-- STREAM (R158). -/
def execStream (r : Nat) (s : State) : Res := gateIn dFAB s (fun s => cmdRun s r 0x06 anyDesc streamEff)

/-! ## Programs and their items -/

/-- The program that a program context runs, while its command is not done. -/
def State.program (s : State) (k : Nat) : Option (PCtx × Stream) :=
  match s.pctx k with
  | some x => if x.done then none else x.stream.map (fun m => (x, m))
  | none => none

/-- The state with the stream of a program context changed. -/
def onStream (s : State) (k : Nat) (f : Stream → Stream) : State :=
  match s.pctx k with
  | some x => s.setPctx k { x with stream := x.stream.map f }
  | none => s

/-- The state with the wait of a program context's back changed. -/
def backWait (s : State) (k : Nat) (w : Option PWait) : State :=
  match s.pctx k with
  | some x => s.setPctx k { x with wait := w, since := s.now }
  | none => s

/-- The back goes on behind its first item. -/
def backPop (s : State) (k : Nat) : State := onStream s k (fun m => { m with back := m.back.drop 1 })

/-- The fault item of an error. -/
def faultItem (e : XErr) : BackOp := .fault e.st (BitVec.ofNat 64 e.addr) e.cva e.host

/-- The back found an error at its first item: it is pending there, and the front stops (R181). -/
def backFault (s : State) (k : Nat) (e : XErr) : State :=
  onStream s k (fun m => { m with halted := true, back := dropFirst (fun _ => true) (some (faultItem e)) m.back })

/-- The end of a data item: its performed bytes fold into the open digests, then the next item, or the error. -/
def backEnd (s : State) (k : Nat) (m : Stream) (e : Option XErr) (out : List Byte) : State :=
  let t := foldBytes s k m.folds out
  match e with
  | some e => backFault t k e
  | none => backPop t k

/-! ## The reads of the front (R168, R170, R173 to R175, R178) -/

/-- What the reads of an item come to: what they gave, the ranges that they cover, the page-list entry that is kept. -/
structure Reading where
  got : Fetched
  spans : List Span
  kept : Option (Nat × Nat)
  deriving DecidableEq, Repr

/-- The indices of a GATH or SCAT: the 32-bit words at a[AI] (R168). -/
def indexList (l : List Byte) : List Nat := (List.range (l.length / 4)).map (fun i => laneAt l (4 * i) 4)

/-- The places of a list of indices (R168). -/
def places (ab size : Nat) (idx : List Byte) : List Nat := (indexList idx).map (fun i => (ab + i * size) % 2 ^ 48)

/-- The elements of a GATH at their places in order, until the first error. -/
def gathRead (v : Via) (size : Nat) : List Nat → State → State × Option XErr × List Byte
  | [], s => (s, none, [])
  | a :: r, s => match readSpan s v false a size with
    | (t, some e, _) => (t, some e, [])
    | (t, none, l) => (match gathRead v size r t with
      | (u, e, rest) => (u, e, l ++ rest))

/-- The reads of a GATH (R168): the index list, then the elements of the indices that were read. -/
def fetchGath (s : State) (v : Via) (kept : Option (Nat × Nat)) (ai ab n esz : Nat) : State × Reading :=
  match readSpan s v false ai (4 * n) with
  | (t, e0, idx) => match gathRead v (2 ^ esz) (places ab (2 ^ esz) idx) t with
    | (u, e1, l) =>
      (u, { got := { idx := idx, bytes := l, err := e1.orElse (fun _ => e0) }, kept := kept,
            spans := { host := false, addr := ai, len := 4 * n } ::
              (places ab (2 ^ esz) idx).map (fun a => { host := false, addr := a, len := 2 ^ esz }) })

/-- The reads of a SCAT (R168): the index list and the packed elements; the error of the earlier element counts. -/
def fetchScat (s : State) (v : Via) (kept : Option (Nat × Nat)) (src ai n esz : Nat) : State × Reading :=
  match readSpan s v false ai (4 * n) with
  | (t, e0, idx) => match readSpan t v false src (n * 2 ^ esz) with
    | (u, e1, l) =>
      let err := if idx.length / 4 ≤ l.length / 2 ^ esz then e0.orElse (fun _ => e1) else e1.orElse (fun _ => e0)
      (u, { got := { idx := idx, bytes := l, err := err }, kept := kept,
            spans := [{ host := false, addr := ai, len := 4 * n }, { host := false, addr := src, len := n * 2 ^ esz }] })

/-- The error of a page-list entry, by its PPA (R170). -/
def listErr (st : Status) (a : Nat) : XErr := { st := st, addr := a, cva := false, host := false }

/-- A page-list entry (R169, R170): the one that is kept, or a PPA read with the context's mark. -/
def listRead (s : State) (k : Nat) (x : PCtx) (kept : Option (Nat × Nat)) (a : Nat) : State × Except XErr Nat :=
  match kept.filter (fun e => e.1 == a) with
  | some e => (s, .ok e.2)
  | none =>
    match checkPPA s a 8 .read (ctxMark s (dCtx x.desc)) with
    | .ok => (match ppaRead s (pctxRq s k x) a 8 with
      | (t, st, l) => if stOk st then (t, .ok (ofBytes l)) else (t, .error (listErr st a)))
    | st => (s, .error (listErr st a))

/-- What is wrong with a page-list entry (R170). -/
def entryBad (ent : Nat) : Option Status :=
  if !bit ent 63 then some .faultXlate else if ent % 128 ≠ 0 then some .faultAlign else none

/-- The positions of a PWALK from position i on, until the first error (R170). -/
def fetchPwalk (k : Nat) (x : PCtx) (ao np g : Nat) : Nat → Nat → Option (Nat × Nat) → State → State × Reading
  | 0, _, kept, s => (s, { got := { bytes := [], err := none }, spans := [], kept := kept })
  | f + 1, i, kept, s =>
    let c := s.ctx (dCtx x.desc)
    let p := np + i
    let at_ := c.kvList + 8 * (p / 2 ^ c.kvShift)
    let fails (t : State) (kept : Option (Nat × Nat)) (e : XErr) : State × Reading :=
      (t, { got := { bytes := [], err := some e }, spans := [], kept := kept })
    if !ctxLive s (dCtx x.desc) then fails s kept (listErr .faultXlate at_)
    else match listRead s k x kept at_ with
      | (t, .error e) => fails t kept e
      | (t, .ok ent) =>
        match entryBad ent with
        | some st => fails t (some (at_, ent)) (listErr st at_)
        | none =>
          let src := (bits ent 0 48 + ao + p % 2 ^ c.kvShift * g * 128) % 2 ^ 48
          let span : Span := { host := false, addr := src, len := g * 128 }
          match readSpan t (pctxVia t k x) false src (g * 128) with
          | (u, some e, l) =>
            (u, { got := { bytes := l, err := some e }, spans := [span], kept := some (at_, ent) })
          | (u, none, l) =>
            match fetchPwalk k x ao np g f (i + 1) (some (at_, ent)) u with
            | (w, r) => (w, { r with got := { r.got with bytes := l ++ r.got.bytes }, spans := span :: r.spans })

/-- The reads of a MINT: rows at a pitch, a packed source, or the blocks of a CWS (R171, R223, R224). -/
def fetchMint (s : State) (v : Via) (kept : Option (Nat × Nat)) (src n fmt rnd : Nat) (host : Bool) : State × Reading :=
  let c := mcode fmt rnd
  match mintRead s v host c false src n with
  | (t, got) =>
    let rows := if c.inF = 13 then [(src, got.bytes.length)]
      else srcRows c src (n / (mfmt c.inF c.gsz).unit * (mfmt c.inF c.gsz).bytes) (c.rows n)
    (t, { got := got, kept := kept, spans := rows.map (fun r => { host := host, addr := r.1, len := r.2 }) })

/-- The reads of an item. -/
def fetchItem (s : State) (k : Nat) (x : PCtx) (m : Stream) (op : BackOp) : State × Reading :=
  let v := pctxVia s k x
  let plain (host : Bool) (a n : Nat) : State × Reading := match readSpan s v host a n with
    | (t, e, l) => (t, { got := { bytes := l, err := e }, spans := [{ host := host, addr := a, len := n }], kept := m.kept })
  match op with
  | .rd a n h => plain h a n
  | .copy a _ n hs _ => plain hs a n
  | .red a _ n _ => plain false a n
  | .gath ai ab _ n esz => fetchGath s v m.kept ai ab n esz
  | .scat a ai _ n esz => fetchScat s v m.kept a ai n esz
  | .pwalk ao _ np nc g => fetchPwalk k x ao np g nc 0 m.kept s
  | .mint a _ n fmt rnd _ h => fetchMint s v m.kept a n fmt rnd h
  | _ => (s, { got := { bytes := [], err := none }, spans := [], kept := m.kept })

/-- The reads of an item, whose corrections and uncorrectable words the back has yet to take (R180, R308, R311). -/
def fetchAhead (s : State) (k : Nat) (x : PCtx) (m : Stream) (op : BackOp) : State × Reading :=
  match fetchItem { s with taking := some [] } k x m op with
  | (t, r) => ({ t with taking := none }, { r with got := { r.got with took := t.taking.getD [] } })

/-- The ranges that an item will write (R175); none where they are not known yet: a SCAT before its indices are read. -/
def writeSpans (b : BackItem) : Option (List Span) :=
  let one (host : Bool) (a n : Nat) : Option (List Span) := some [{ host := host, addr := a, len := n }]
  match b.op with
  | .wr a n h => one h a n
  | .copy _ d n _ hd => one hd d n
  | .red _ d n _ => one false d n
  | .gath _ _ ad n esz => one false ad (n * 2 ^ esz)
  | .scat _ _ ab _ esz =>
    b.got.map (fun g => (places ab (2 ^ esz) g.idx).map (fun a => { host := false, addr := a, len := 2 ^ esz }))
  | .pwalk _ ad _ nc g => one false ad (nc * g * 128)
  | .mint _ d n fmt rnd _ _ =>
    let c := mcode fmt rnd
    let o := mfmt c.outF c.gsz
    let size := n / o.unit * o.bytes
    if c.deal then
      some ((List.range 8).map (fun i => { host := false, addr := d + i * 2 ^ 21, len := (size + 1023) / 1024 * 128 }))
    else one false d size
  | _ => some []

/-- Whether earlier writes of its program that are not performed yet hold a read back (R175). -/
def writesHold (l : List BackItem) (spans : List Span) : Bool :=
  l.any (fun b => match writeSpans b with
    | some w => spansMeet w spans
    | none => true)

/-- The ranges that the guard set declares, as the next program's reads meet them (R177, R178). -/
def guardSpans (m : Stream) : List Span :=
  m.front.guardSet.ranges.map (fun r => { host := false, addr := r.2.1, len := r.2.2 - r.2.1 })

/-- The items of its own program before an item, of all that stand before it: behind NEXT the earlier program's do not
count (R178). -/
def ownBefore (before : List BackItem) : List BackItem :=
  if before.any isNext then (before.dropWhile (fun b => !isNext b)).drop 1 else before

/-- Whether the reads of an item are held: behind a recorded WAITF or a FENCE of its program (R172, R178), behind a write of
its program that overlaps (R175), or, behind NEXT, for a declared range (R178). -/
def readHeld (s : State) (k : Nat) (x : PCtx) (m : Stream) (before : List BackItem) (op : BackOp) : Bool :=
  let own := ownBefore before
  own.any isWaitf || own.any isFence ||
  (let spans := (fetchItem s k x m op).2.spans
   writesHold own spans || (before.any isNext && spansMeet (guardSpans m) spans))

/-- The state with item i of a program's back replaced. -/
def setItem (s : State) (k i : Nat) (b : BackItem) : State := onStream s k (fun m => { m with back := m.back.set i b })

/-- An item's reads are made: what they gave stays in the run-ahead buffer; after an error the front issues no more (R181). -/
def takeReads (s : State) (k i : Nat) (b : BackItem) (r : Reading) : State :=
  onStream (setItem s k i { b with got := some r.got }) k (fun m =>
    { m with kept := r.kept, halted := m.halted || r.got.err.isSome })

/-- The reads of one item, which `before` stand before: held, the item is passed over (none); else whether they were made
(R116, R174). The first item of the back has room always (DESIGN CHOICE, log 79). -/
def readItem (s : State) (k : Nat) (x : PCtx) (m : Stream) (before : List BackItem) (b : BackItem) : State × Option Bool :=
  if readHeld s k x m before b.op then (s, none)
  else
    let g := itemHeld { b with got := some (fetchItem s k x m b.op).2.got }
    if !before.isEmpty && !runFits s k m (before.any isNext) g then (s, some false)
    else
      match issueRun s (.pctx k false) (pctxRq s k x) b.readSegs (fun t => (fetchItem t k x m b.op).1) with
      | (t, n, false) => (setItem t k before.length { b with readSegs := n }, some false)
      | (t, _, true) => (match fetchAhead t k x m b.op with
        | (u, r) => (takeReads u k before.length b r, some true))

/-- Whether nothing behind an item is read any more: it is a fault, or its reads met an error (R181). -/
def itemFails (b : BackItem) : Bool := (match b.op with
  | .fault _ _ _ _ => true
  | _ => false) || b.got.any (fun g => g.err.isSome)

/-- The reads of a program's items in order, from the one that i items stand before; whether they stopped for want of room
or at the issue point. -/
def readPass (k : Nat) : Nat → Nat → State → State × Bool
  | 0, _, s => (s, false)
  | f + 1, i, s =>
    match s.program k with
    | none => (s, false)
    | some (x, m) =>
      match m.back.drop i with
      | [] => (s, false)
      | b :: _ =>
        if itemFails b then (s, false)
        else if !itemReads b || b.got.isSome then readPass k f (i + 1) s
        else match readItem s k x m (m.back.take i) b with
          | (t, some false) => (t, true)
          | (t, _) => readPass k f (i + 1) t

/-- The reads of a program, as far as they can be made now. -/
def frontReads (s : State) (k : Nat) : State × Bool :=
  match s.program k with
  | some (_, m) => readPass k m.back.length 0 s
  | none => (s, false)

/-! ## The waits of the front (R159, R172, R178) -/

/-- The front's wait begins. -/
def frontWait (s : State) (k : Nat) (w : PWait) : State :=
  onStream s k (fun m => { m with fwait := some w, fsince := s.now })

/-- A wait of a program on a flag that does not hold now: it spins, or registers (R261, R264). -/
def frontWaitFlag (s : State) (k : Nat) (x : PCtx) (p mode scope : Nat) (acq : Bool) : State :=
  let t := frontWait s k (.flag p)
  if x.spin then t
  else
    waitAdd t { flag := p, mode := mode, who := .pctx k, acq := acq, scope := scope, dl := shortStamp s.now (dDeadline x.desc),
                src := pctxSrc s k, ctx := dTag x.desc, order := 0, overdue := false }

/-- The oldest recorded WAITF stands at the flag store: satisfied on arrival, or waiting (R178). Recorded waits are evaluated
one after another, the oldest first (DESIGN CHOICE, log 80). -/
def frontWaits (s : State) (k : Nat) : State :=
  match s.program k with
  | none => s
  | some (x, m) =>
    match m.fwait, (m.back.takeWhile (fun b => !itemFails b)).find? isWaitf with
    | none, some { op := .waitf p mode acq scope, .. } =>
      if flagSt s p ≠ .ok then pctxTold (flagRead s p (pctxSrc s k) (dTag x.desc)) k (flagSt s p)
      else if waitHolds s p mode then pctxTold (waitNow s p mode (pctxSrc s k) (dTag x.desc)) k .ok
      else frontWaitFlag s k x p mode scope acq
    | _, _ => s

/-! ## The back (R173, R178, R181) -/

/-- The elements of a SCAT written to their places in index order. -/
def scatWrite (v : Via) (size : Nat) : List Nat → List Byte → State → State × Option XErr × List Byte
  | [], _, s => (s, none, [])
  | a :: r, l, s =>
    if l.length < size then (s, none, [])
    else match writeSpan s v false none a (allOn (l.take size)) with
      | (t, some e, j) => (t, some e, (l.take size).take j)
      | (t, none, _) => (match scatWrite v size r (l.drop size) t with
        | (u, e, rest) => (u, e, l.take size ++ rest))

/-- The end of a MINT at the back: the generator goes on, MINT_ERRm holds a fault's cause (R171, R227). -/
def mintBack (s : State) (k : Nat) (m : Stream) (r : MRes) : State :=
  backEnd (mintErrSet (onStream s k (fun y => { y with gen := r.gen })) k r) k m r.err r.out

/-- The domain of a program context's command. -/
def pctxDom (s : State) (x : PCtx) : Nat := dDomain s x.desc

/-- A release of a program context at the back (R239). -/
def backRelease (s : State) (k : Nat) (x : PCtx) (scope : Nat) (e : Effect) : State :=
  releaseMake s { src := pctxSrc s k, ctx := dTag x.desc, scope := scope, effect := e, owner := .pctx k }

/-- The back's SETF or CLRF (R172, R267); toward another die it follows the context's earlier writes on its lane, with or
without REL (R248). -/
def backSetf (s : State) (k : Nat) (x : PCtx) (p : Nat) (set rel : Bool) (scope : Nat) (rmt : Option Nat) : State :=
  match rmt with
  | none =>
    if rel then backRelease s k x scope (.flag p set)
    else
      let t := flagOp s p set (pctxSrc s k) (dTag x.desc)
      if flagSt s p = .ok then backPop t k else backFault t k (bareErr (flagSt s p))
  | some die => backRelease s k x (if rel then scope else 5) (.farFlag die p set (dClass x.desc))

/-- The back's SLOTR (R172, R187). -/
def backSlotr (s : State) (k : Nat) (x : PCtx) (ring side scope : Nat) : State :=
  match slotGive s ring side (holdPctx k) (pctxSrc s k) (dTag x.desc) (pctxDom s x) with
  | (.error st, t) => backFault t k (bareErr st)
  | (.ok i, t) =>
    if side = 0 then backRelease t k x scope (.slotFull ring i)
    else backPop (slotGiveC t ring i (pctxSrc t k) (some (dCtx x.desc))) k

/-- The back's DIGEST (R172). -/
def backDigest (s : State) (k d : Nat) (on clr : Bool) (fmt : Nat) : State :=
  let t := if clr then digestClear s (k / 8) d else s
  let t := if on then t.setDigest (k / 8) d { t.digest (k / 8) d with fmt := fmt } else t
  backPop (onStream t k (fun m => { m with folds := if on then tput m.folds d fmt else terase m.folds d })) k

/-- The bytes of an output of n bytes that what was read makes: all, or the granules before the error (R58). -/
def gotPart (dst n : Nat) (g : Fetched) : List Byte := g.bytes.take (wholeGranules dst g.bytes.length n)

/-- A plain output is written: a write's own error ends it before the error of its reads. -/
def backWrite (s : State) (k : Nat) (x : PCtx) (m : Stream) (host : Bool) (red : Option Nat) (dst : Nat) (l : List Byte)
    (e : Option XErr) : State :=
  match writeSpan s (pctxVia s k x) host red dst (allOn l) with
  | (t, f, j) => backEnd t k m (f.orElse (fun _ => e)) (l.take j)

/-- The back performs an item with what its reads gave; NEXT, WAITF and a pending fault are not performed here. -/
def backDo (s : State) (k : Nat) (x : PCtx) (m : Stream) (b : BackItem) : State :=
  let g := b.got.getD { bytes := [], err := none }
  let s := g.took.foldl takeNow s
  match b.op with
  | .rd _ _ _ => (match g.err with
    | some e => backFault s k e
    | none => backPop (onStream s k (fun y => { y with stage := y.stage ++ g.bytes })) k)
  | .wr a n h => backWrite (onStream s k (fun y => { y with stage := y.stage.drop n })) k x m h none a (m.stage.take n) none
  | .copy a d n hs hd =>
    let l := overlapBytes s.freeCtr a n d (hs == hd) (gotPart d n g)
    backWrite { s with freeCtr := s.freeCtr + 1 } k x m hd none d l g.err
  | .red _ d n o => backWrite s k x m false (some (o + 3)) d (gotPart d n g) g.err
  | .gath _ _ ad n esz => backWrite s k x m false none ad (gotPart ad (n * 2 ^ esz) g) g.err
  | .scat _ _ ab _ esz => (match scatWrite (pctxVia s k x) (2 ^ esz) (places ab (2 ^ esz) g.idx) g.bytes s with
    | (t, f, out) => backEnd t k m (f.orElse (fun _ => g.err)) out)
  | .pwalk _ ad _ nc w => backWrite s k x m false none ad (gotPart ad (nc * w * 128) g) g.err
  | .mint a d n fmt rnd seed h =>
    (match mintRun s (pctxVia s k x) h (mcode fmt rnd) false a d n (seed.getD m.gen) g with
     | (t, r) => mintBack t k m r)
  | .slotr r side scope => backSlotr s k x r side scope
  | .chqout q c => backRelease s k x (s.queue q).scope (.cheque q c (pctxDom s x) (waitDue x.desc s.now))
  | .setf p set rel scope rmt => backSetf s k x p set rel scope rmt
  | .fence scope => backRelease s k x scope .nothing
  | .stamp tag => backPop (ledgerRec s (128 + k / 8) 0x0A (dTag x.desc) tag b.prog) k
  | .digest d on clr fmt => backDigest s k d on clr fmt
  | .halt => onStream (pctxDone s k .ok) k (fun y => { y with back := [], stage := [], folds := [] })
  | _ => s

/-- The front behind a NEXT (R163). -/
def nextFront (f : Front) (taken : Bool) (target : Nat) : Front :=
  if taken then { f with pc := target, prog := target } else { f with pc := f.pc + 1 }

/-- The speculative work behind NEXT is squashed, and the front resumes on the path that is right (R180). -/
def squash (s : State) (k : Nat) (m : Stream) (f : Front) (b : BackItem) (taken : Bool) (target : Nat) : State :=
  let t := onStream (unwait s (.pctx k false)) k (fun y =>
    { y with back := [b], check := none, halted := false, front := nextFront f taken target })
  countEvent (countEvent t 0x10 (k / 8) 1) 0x11 (k / 8) (aheadReads m)

/-- The back at a NEXT whose condition it resolves (R163, R179, R180): the flag is read now. As predicted, the work behind it
is speculative no more; otherwise it is squashed; a front that waited for it crosses while the seam is open. -/
def nextResolve (s : State) (k : Nat) (m : Stream) (b : BackItem) (c flag target notTaken : Nat) (predicted : Bool) :
    State :=
  let taken := (s.flag flag).value == (c == 3)
  let b' := { b with op := .next (if taken then 0 else 1) flag target notTaken predicted }
  match m.check with
  | some f =>
    if taken = predicted then onStream s k (fun y => { y with check := none, back := b' :: y.back.drop 1 })
    else squash s k m f b' taken target
  | none =>
    let cross := m.front.guardSet.isOpen && !m.crossed
    onStream s k (fun y => { y with
      back := b' :: y.back.drop 1, crossed := y.crossed || cross,
      front := if cross then nextFront y.front taken target else y.front })

/-- Whether the back waits: for room in a queue, or for a release. -/
def backWaits (x : PCtx) : Bool := match x.wait with
  | some .issue => false
  | w => w.isSome

/-- The back performs its first item if it can: its reads are made, and its write segments pass the issue point (R116). -/
def backStep (s : State) (k : Nat) : State :=
  match s.program k with
  | none => s
  | some (x, m) =>
    match m.back with
    | [] => s
    | b :: _ =>
      if backWaits x || (itemReads b && b.got.isNone) then s
      else match b.op with
        | .next c p t n pred => if c = 3 ∨ c = 4 then nextResolve s k m b c p t n pred else s
        | _ =>
          if itemWrites b then
            match issueRun s (.pctx k true) (pctxRq s k x) b.writeSegs (fun t => backDo t k x m b) with
            | (t, n, false) => backWait (setItem t k 0 { b with writeSegs := n }) k (some .issue)
            | (t, _, true) => backDo (backWait t k none) k x m b
          else backDo s k x m b

/-- A program goes on: its recorded waits, its reads, its back, until nothing more moves. -/
def goProgram : Nat → Nat → State → State
  | 0, _, s => s
  | f + 1, k, s =>
    let t := backStep (frontReads (frontWaits s k) k).1 k
    if (t.program k).map (·.2.back) = (s.program k).map (·.2.back) then t else goProgram f k t

/-- Whether a program comes before another where a mover serves one (R173). -/
def goesFirst (s : State) (a b : Nat × PCtx) : Bool :=
  let r (e : Nat × PCtx) : Int := dRemaining s.now e.2.desc
  decide (r a < r b) || (r a == r b && decide (a.1 ≤ b.1))

/-- A program context put in the order of R173. -/
def insertPctx (s : State) (e : Nat × PCtx) : List (Nat × PCtx) → List (Nat × PCtx)
  | [] => [e]
  | x :: l => if goesFirst s e x then e :: x :: l else x :: insertPctx s e l

/-- The running programs of a mover in the order in which it serves them (R173). -/
def moverPrograms (s : State) (m : Nat) : List (Nat × PCtx) :=
  ((runningOf s m).filter (fun e => e.2.stream.isSome)).foldr (insertPctx s) []

/-- The programs of a mover go on. -/
def streamGo (s : State) (m : Nat) : State :=
  (moverPrograms s m).foldl (fun t e => match t.program e.1 with
    | some (_, y) => goProgram (2 * y.back.length + 1) e.1 t
    | none => t) s

/-! ## The front (R156, R159, R173 to R179) -/

/-- The bits of an instruction that Tables 7.2 and 7.3 name, by opcode; 0 for a reserved opcode. -/
def insWidth (op : Nat) : Nat :=
  nth 0 [0, 6, 42, 52, 6, 59, 52, 45, 48, 48, 53, 53, 25, 25, 25, 30, 23, 22, 23, 19, 30, 33, 33, 9, 41, 17, 15] op

/-- Whether an instruction holds a reserved value of a field. -/
def insReserved (i : Nat) : Bool :=
  let op := bits i 0 6
  insWidth op == 0 || decide (2 ^ insWidth op ≤ i) ||
  (op == 0x02 && decide (5 ≤ bits i 21 3)) || (op == 0x03 && bits i 10 10 == 0) ||
  (op == 0x05 && (decide (24 ≤ bits i 6 5) || (decide (16 ≤ bits i 6 5) && bits i 43 16 != 0))) ||
  (op == 0x06 && decide (24 ≤ bits i 6 5)) || (op == 0x07 && decide (6 ≤ bits i 10 3)) ||
  (op == 0x11 && decide (5 ≤ bits i 19 3)) || (op == 0x14 && (bits i 24 2 == 3 || decide (5 ≤ bits i 27 3))) ||
  ((op == 0x15 || op == 0x16) && decide (5 ≤ bits i 25 3)) || (op == 0x17 && decide (5 ≤ bits i 6 3)) ||
  (op == 0x1A && decide (8 ≤ bits i 10 4))

/-- An a register of the front. -/
def Front.ra (f : Front) (i : Nat) : Nat := tget 0 f.a i
/-- An n register of the front. -/
def Front.rn (f : Front) (i : Nat) : Nat := tget 0 f.n i
/-- An a register advanced. -/
def Front.addA (f : Front) (i d : Nat) : Front := f.setA i (f.ra i + d)
/-- An n register advanced. -/
def Front.addN (f : Front) (i d : Nat) : Front := f.setN i (f.rn i + d)
/-- A register of an R field loaded. -/
def Front.setR (f : Front) (r v : Nat) : Front := if r < 16 then f.setA r v else f.setN (r - 16) v
/-- A register of an R field. -/
def Front.rr (f : Front) (r : Nat) : Nat := if r < 16 then f.ra r else f.rn (r - 16)

/-- Whether the front stands (R172, R175, R176, R178): an error or HALT ended it, it waits for a slot or a cheque, at NEXT, or
at a WAITF of a program whose seam is closed, or it keeps 64 writes. -/
def frontStands (m : Stream) : Bool :=
  let before := m.back.takeWhile (fun b => !isNext b)
  let behind := m.back.dropWhile (fun b => !isNext b)
  m.halted || (m.back.any isNext && !m.crossed) || (before.any isWaitf && !m.front.guardSet.isOpen) ||
  (behind.any isWaitf && !m.front.declareSet.isOpen) || decide (64 ≤ (m.back.filter itemWrites).length) ||
  (match m.fwait with
   | some (.slot _ _ _) | some (.take _ _ _) => true
   | _ => false)

/-- Whether an instruction of a MINT asks for the end of a CWS stream under PI (R171). -/
def mintAsks (f : Front) (i : Nat) : Bool :=
  bits i 0 6 == 0x0F && bit i 29 && (mcode (f.rn (bits i 17 3)) (f.rn (bits i 20 3))).inF == 13

/-- Whether the front stops at its next instruction: an A instruction while it speculates, a further NEXT (R159, R178, R179),
or a MINT whose end only the stream's data give, until the items before it are done (DESIGN CHOICE, log 80). -/
def frontBlocked (m : Stream) (i : Nat) : Bool :=
  let op := bits i 0 6
  (m.check.isSome && (op == 0x10 || op == 0x12 || op == 0x14)) || (m.crossed && op == 0x02) ||
  (mintAsks m.front i && !m.back.isEmpty)

/-- Whether the front of a program context has an instruction to execute (R173). -/
def frontReady (s : State) (k : Nat) : Bool :=
  match s.program k with
  | none => false
  | some (_, m) => !frontStands m && !frontBlocked m (s.instr m.front.pc).toNat && !(frontReads s k).2

/-- Whether the decoder of its mover takes the front's instruction next (R173). -/
def frontFirst (s : State) (k : Nat) : Bool :=
  frontReady s k &&
  ((moverPrograms s (k / 8)).filter (fun e => frontReady s e.1)).head?.map (·.1) == some k

/-- The front's result of an instruction: nothing yet; its next registers with the items its back part adds; or an
error. -/
inductive Step1 where
  | stay
  | go (f : Front) (ops : List BackOp)
  | bad (e : XErr)
  deriving DecidableEq, Repr

/-- The front's result takes effect: an error is pending at the back, and the front stops (R181). -/
def frontApply (s : State) (k : Nat) (m : Stream) : Step1 → State
  | .stay => s
  | .go f ops => onStream s k (fun y => { y with front := f, back := y.back ++ ops.map (itemAt m.front) })
  | .bad e => onStream s k (fun y => { y with halted := true, back := y.back ++ [itemAt m.front (faultItem e)] })

/-- An error of the front without an address. -/
def badProt : Step1 := .bad (bareErr .faultProt)

/-- Opcodes whose instruction asks something of a slot ring, a queue or a flag for its context. -/
def asksUnit (op : Nat) : Bool := decide (0x10 ≤ op) && decide (op ≤ 0x16)

/-- What the front meets before it decodes an opcode's own fields (R156, R159, R66). -/
def fetchBad (s : State) (x : PCtx) (f : Front) : Option XErr :=
  let i := (s.instr f.pc).toNat
  if f.pc < f.prog ∨ f.prog + 1023 < f.pc ∨ 32767 < f.pc then some (bareErr .faultProt)
  else if insReserved i then some (bareErr .faultProt)
  else if asksUnit (bits i 0 6) ∧ !ctxLive s (dCtx x.desc) then some (bareErr .faultXlate)
  else none

/-- The instructions that the front fetches at its PC: its own, and for a LOOP the one at its end (R161). -/
def fetchedAt (pc i : Nat) : List Nat := if bits i 0 6 = 0x03 then [pc, pc + bits i 10 10] else [pc]

/-- A program that fetches a word which was rewritten since its start is tainted (R157). -/
def taintOn (s : State) (k : Nat) (m : Stream) (i : Nat) : State :=
  if (fetchedAt m.front.pc i).any (fun p => decide (p ∈ m.changed)) then onStream s k (fun y => { y with tainted := true })
  else s

/-- A stream row: the programs of the mover go on; then the front of program context p of mover m executes its next
instruction when it carries the row's opcode and the decoder takes it. An instruction that no row names is ended by any
row. -/
def streamRow (s : State) (m p op : Nat) (eff : State → Nat → PCtx → Stream → Nat → State) : State :=
  let k := m % 32 * 8 + p % 8
  let s := streamGo s (m % 32)
  match s.program k with
  | none => s
  | some (x, y) =>
    let i := (s.instr y.front.pc).toNat
    if !frontFirst s k then s
    else match fetchBad s x y.front with
      | some e => frontApply (taintOn s k y i) k y (.bad e)
      | none => match tableReads s (pctxSrc s k) (dTag x.desc) ((fetchedAt y.front.pc i).map (fun p => (.program, p))) with
        | (false, t) => frontApply (taintOn t k y i) k y (.bad (bareErr .eccUncorr))
        | (true, t) => if bits i 0 6 = op then streamGo (eff (taintOn t k y i) k x y i) (m % 32) else s

/-- An effect that the registers and the descriptor decide. -/
def pureEff (g : State → PCtx → Stream → Nat → Step1) (s : State) (k : Nat) (x : PCtx) (m : Stream) (i : Nat) : State :=
  frontApply s k m (g s x m i)

/-- A row of a program context. -/
def rowOf (m p op : Nat) (eff : State → Nat → PCtx → Stream → Nat → State) (s : State) : Res :=
  gateIn dFAB s (fun s => streamRow s m p op eff)

/-- HALT: the front ends here, the back ends the command. -/
def haltEff (s : State) (k : Nat) (_ : PCtx) (m : Stream) (_ : Nat) : State :=
  onStream s k (fun y => { y with halted := true, back := y.back ++ [itemAt m.front .halt] })

/-- HALT (R164). -/
def execHalt (m p : Nat) (s : State) : Res := rowOf m p 0x01 haltEff s

/-! ### Loops and registers (R160 to R162) -/

/-- LOOP decoded. -/
def loopGo (s : State) (_ : PCtx) (m : Stream) (i : Nat) : Step1 :=
  let f := m.front
  let n := bits i 10 10
  let cnt := if bit i 6 then f.rn (bits i 7 3) else bits i 20 32 + 1
  if 6 ≤ f.levels.length ∨ bits (s.instr (f.pc + n)).toNat 0 6 ≠ 0x04 then badProt
  else if cnt = 0 then .go { f with pc := f.pc + n + 1 } []
  else .go { f with pc := f.pc + 1, levels := { trips := cnt, body := f.pc + 1, endl := f.pc + n } :: f.levels } []

/-- LOOP (R161). -/
def execLoop (m p : Nat) (s : State) : Res := rowOf m p 0x03 (pureEff loopGo) s

/-- Every a register with its stride of a depth added. -/
def addStrides (f : Front) (d : Nat) : Front :=
  upTo 16 (fun r g => g.setA r (toCode ((g.ra r : Int) + tget 0 f.strides (6 * r + d)) 48)) f

/-- ENDL decoded. -/
def endlGo (_ : State) (_ : PCtx) (m : Stream) (_ : Nat) : Step1 :=
  match m.front.levels with
  | [] => badProt
  | l :: r =>
    if l.endl ≠ m.front.pc then badProt
    else
      let f := addStrides m.front r.length
      if 1 < l.trips then .go { f with pc := l.body, levels := { l with trips := l.trips - 1 } :: r } []
      else .go { f with pc := f.pc + 1, levels := r } []

/-- ENDL (R162). -/
def execEndl (m p : Nat) (s : State) : Res := rowOf m p 0x04 (pureEff endlGo) s

/-- SETA (R160). -/
def execSeta (m p : Nat) (s : State) : Res :=
  rowOf m p 0x05 (pureEff (fun _ _ y i => .go (y.front.setR (bits i 6 5) (bits i 11 48)).stepped [])) s

/-- ADDA decoded. -/
def addaGo (_ : State) (_ : PCtx) (m : Stream) (i : Nat) : Step1 :=
  let f := m.front
  let r := bits i 6 5
  let w := if r < 16 then 48 else 32
  let d : Int := if bit i 11 then ((f.rn (bits i 12 3) * 2 ^ bits i 15 5 : Nat) : Int) else signed (bits i 20 32) 32
  .go (f.setR r (toCode ((f.rr r : Int) + d) w)).stepped []

/-- ADDA (R160). -/
def execAdda (m p : Nat) (s : State) : Res := rowOf m p 0x06 (pureEff addaGo) s

/-- STRIDE decoded. -/
def strideGo (_ : State) (_ : PCtx) (m : Stream) (i : Nat) : Step1 :=
  let f := m.front
  .go { f with strides := tset 0 f.strides (6 * bits i 6 4 + bits i 10 3) (signed (bits i 13 32) 32) }.stepped []

/-- STRIDE (R160). -/
def execStride (m p : Nat) (s : State) : Res := rowOf m p 0x07 (pureEff strideGo) s

/-! ### Data instructions (R165 to R171) -/

/-- The length of an LREG and N, or an immediate. -/
def lenOf (f : Front) (lreg : Bool) (n imm : Nat) : Nat := if lreg then f.rn n else imm

/-- The error of a CVA operand. -/
def cvaErr (st : Status) (a : Nat) : Step1 := .bad { st := st, addr := a, cva := true, host := false }

/-- The error of an H bit on a ring without PRIV (R165). -/
def hostErr (a : Nat) : Step1 := .bad { st := .faultProt, addr := a, cva := false, host := true }

/-- RD decoded (R166). -/
def rdGo (s : State) (x : PCtx) (m : Stream) (i : Nat) : Step1 :=
  let f := m.front
  let r := bits i 6 4
  let n := lenOf f (bit i 10) (bits i 11 3) (bits i 16 32)
  if bit i 14 ∧ !cmdPriv s x.ring then hostErr (f.ra r)
  else if 32768 < f.unclaimed + n then badProt
  else .go { (if bit i 15 then f.addA r n else f) with unclaimed := f.unclaimed + n }.stepped [.rd (f.ra r) n (bit i 14)]

/-- RD (R166). -/
def execRd (m p : Nat) (s : State) : Res := rowOf m p 0x08 (pureEff rdGo) s

/-- WR decoded (R166). -/
def wrGo (s : State) (x : PCtx) (m : Stream) (i : Nat) : Step1 :=
  let f := m.front
  let r := bits i 6 4
  let n := lenOf f (bit i 10) (bits i 11 3) (bits i 16 32)
  if bit i 14 ∧ !cmdPriv s x.ring then hostErr (f.ra r)
  else if f.unclaimed < n then badProt
  else .go { (if bit i 15 then f.addA r n else f) with unclaimed := f.unclaimed - n }.stepped [.wr (f.ra r) n (bit i 14)]

/-- WR (R166). -/
def execWr (m p : Nat) (s : State) : Res := rowOf m p 0x09 (pureEff wrGo) s

/-- COPY decoded (R167). -/
def copyGo (s : State) (x : PCtx) (m : Stream) (i : Nat) : Step1 :=
  let f := m.front
  let a := bits i 6 4
  let d := bits i 10 4
  let n := lenOf f (bit i 14) (bits i 15 3) (bits i 21 32)
  if bit i 18 ∧ !cmdPriv s x.ring then hostErr (f.ra a)
  else if bit i 19 ∧ !cmdPriv s x.ring then hostErr (f.ra d)
  else .go (if bit i 20 then (f.addA a n).addA d n else f).stepped [.copy (f.ra a) (f.ra d) n (bit i 18) (bit i 19)]

/-- The stream instruction COPY (R167). -/
def execStreamCopy (m p : Nat) (s : State) : Res := rowOf m p 0x0A (pureEff copyGo) s

/-- RED decoded (R167). -/
def redGo (_ : State) (_ : PCtx) (m : Stream) (i : Nat) : Step1 :=
  let f := m.front
  let a := bits i 6 4
  let d := bits i 10 4
  let n := lenOf f (bit i 14) (bits i 15 3) (bits i 21 32)
  let w := laneBytes (bits i 18 2 + 3)
  if f.ra a % w ≠ 0 then cvaErr .faultAlign (f.ra a)
  else if f.ra d % w ≠ 0 then cvaErr .faultAlign (f.ra d)
  else if n % w ≠ 0 then .bad (bareErr .faultAlign)
  else .go (if bit i 20 then (f.addA a n).addA d n else f).stepped [.red (f.ra a) (f.ra d) n (bits i 18 2)]

/-- RED (R167). -/
def execRed (m p : Nat) (s : State) : Res := rowOf m p 0x0B (pureEff redGo) s

/-- The alignment test of GATH and SCAT (R168). -/
def indexBad (f : Front) (ai ab esz : Nat) : Option Step1 :=
  if f.ra ab % 2 ^ esz ≠ 0 then some (cvaErr .faultAlign (f.ra ab))
  else if f.ra ai % 4 ≠ 0 then some (cvaErr .faultAlign (f.ra ai))
  else none

/-- GATH decoded (R168). -/
def gathGo (_ : State) (_ : PCtx) (m : Stream) (i : Nat) : Step1 :=
  let f := m.front
  let ai := bits i 6 4
  let ab := bits i 10 4
  let ad := bits i 14 4
  let n := f.rn (bits i 18 3)
  let e := bits i 21 3
  match indexBad f ai ab e with
  | some b => b
  | none => .go (if bit i 24 then (f.addA ai (4 * n)).addA ad (n * 2 ^ e) else f).stepped
      [.gath (f.ra ai) (f.ra ab) (f.ra ad) n e]

/-- GATH (R168). -/
def execGath (m p : Nat) (s : State) : Res := rowOf m p 0x0C (pureEff gathGo) s

/-- SCAT decoded (R168). -/
def scatGo (_ : State) (_ : PCtx) (m : Stream) (i : Nat) : Step1 :=
  let f := m.front
  let a := bits i 6 4
  let ai := bits i 10 4
  let ab := bits i 14 4
  let n := f.rn (bits i 18 3)
  let e := bits i 21 3
  match indexBad f ai ab e with
  | some b => b
  | none => .go (if bit i 24 then (f.addA ai (4 * n)).addA a (n * 2 ^ e) else f).stepped
      [.scat (f.ra a) (f.ra ai) (f.ra ab) n e]

/-- SCAT (R168). -/
def execScat (m p : Nat) (s : State) : Res := rowOf m p 0x0D (pureEff scatGo) s

/-- PWALK decoded: the checks before the loop (R170). -/
def pwalkGo (s : State) (x : PCtx) (m : Stream) (i : Nat) : Step1 :=
  let f := m.front
  let ao := f.ra (bits i 6 4)
  let d := bits i 10 4
  let np := f.rn (bits i 14 3)
  let nc := f.rn (bits i 17 3)
  let g := bits i 20 4 + 1
  let c := s.ctx (dCtx x.desc)
  if c.kvLen = 0 ∨ 16777215 < np ∨ c.kvLen * 2 ^ c.kvShift < np + nc then badProt
  else if ao % 128 ≠ 0 then cvaErr .faultAlign ao
  else .go (if bit i 24 then (f.addN (bits i 14 3) nc).addA d (nc * g * 128) else f).stepped
      [.pwalk ao (f.ra d) np nc g]

/-- PWALK (R170). -/
def execPwalk (m p : Nat) (s : State) : Res := rowOf m p 0x0E (pureEff pwalkGo) s

/-- The bytes by which PI advances a[AS] and a[AD] (R171): of a CWS source, those of the blocks that hold the elements. -/
def mintPi (s : State) (k : Nat) (x : PCtx) (c : MCode) (src n : Nat) (host : Bool) : Nat × Nat :=
  let d := (mintAdvance c n).2
  if c.inF = 13 then
    ((cwsParse (mintRead s (pctxVia s k x) host c false src n).2.bytes false n (n / 8 + 1) cwsStart none).used, d)
  else ((mintAdvance c n).1, d)

/-- MINT (R171). -/
def mintGo (s : State) (k : Nat) (x : PCtx) (m : Stream) (i : Nat) : Step1 :=
  let f := m.front
  let a := bits i 6 4
  let d := bits i 10 4
  let n := f.rn (bits i 14 3)
  let fc := f.rn (bits i 17 3)
  let rc := f.rn (bits i 20 3)
  let seed := if bit i 27 then some (f.ra (bits i 23 4)) else none
  let host := bit i 28
  if host ∧ !cmdPriv s x.ring then hostErr (f.ra a)
  else
    let v := if bit i 29 then mintPi s k x (mcode fc rc) (f.ra a) n host else (0, 0)
    .go ((f.addA a v.1).addA d v.2).stepped [.mint (f.ra a) (f.ra d) n fc rc seed host]

/-- The effect of MINT. -/
def mintEff (s : State) (k : Nat) (x : PCtx) (m : Stream) (i : Nat) : State := frontApply s k m (mintGo s k x m i)

/-- MINT (R171). -/
def execMint (m p : Nat) (s : State) : Res := rowOf m p 0x0F mintEff s

/-! ### Slots, cheques, flags (R172) -/

/-- SLOTA (R172, R186): the front waits at the ring, which decides. -/
def slotaEff (s : State) (k : Nat) (x : PCtx) (m : Stream) (i : Nat) : State :=
  let r := bits i 6 12
  let side := bits i 18 1
  let ad := bits i 19 4
  match ringCheck s r (pctxSrc s k) (dTag x.desc) (some (pctxDom s x)) with
  | (.ok, t) => slotDecide (frontWait t k (.slot r side ad)) r side (some (.front k ad))
  | (st, t) => frontApply t k m (.bad (bareErr st))

/-- SLOTA (R172). -/
def execSlota (m p : Nat) (s : State) : Res := rowOf m p 0x10 slotaEff s

/-- SLOTR (R172). -/
def execSlotr (m p : Nat) (s : State) : Res :=
  rowOf m p 0x11 (pureEff (fun _ _ y i => .go y.front.stepped [.slotr (bits i 6 12) (bits i 18 1) (bits i 19 3)])) s

/-- CHQIN (R172, R197): the front waits at the queue, which decides. -/
def chqinEff (s : State) (k : Nat) (x : PCtx) (m : Stream) (i : Nat) : State :=
  let q := bits i 6 10
  let ad := bits i 19 4
  match takeCheck s q (pctxSrc s k) (dTag x.desc) (pctxDom s x) with
  | (.ok, t) => takeDecide (frontWait t k (.take q (bits i 16 3) ad)) q (some (.front k ad))
  | (st, t) => frontApply t k m (.bad (bareErr st))

/-- CHQIN (R172). -/
def execChqin (m p : Nat) (s : State) : Res := rowOf m p 0x12 chqinEff s

/-- CHQOUT (R172, R196). -/
def execChqout (m p : Nat) (s : State) : Res :=
  rowOf m p 0x13 (pureEff (fun _ _ y i =>
    .go y.front.stepped [.chqout (bits i 6 10) (y.front.rn (bits i 16 3))])) s

/-- The physical flag of a WAITF, SETF or CLRF: FLAG plus n[NX] under XV, through the window (R172, R253). -/
def insFlag (s : State) (x : PCtx) (f : Front) (i : Nat) : Option Nat :=
  flagOfIndex s (dCtx x.desc) (bits i 6 14 + (if bit i 20 then f.rn (bits i 21 3) else 0))

/-- WAITF decoded: the front records the wait (R172, R178). -/
def waitfGo (s : State) (x : PCtx) (m : Stream) (i : Nat) : Step1 :=
  match insFlag s x m.front i with
  | none => badProt
  | some p => .go m.front.stepped [.waitf p (bits i 24 2) (bit i 26) (bits i 27 3)]

/-- WAITF (R172). -/
def execWaitf (m p : Nat) (s : State) : Res := rowOf m p 0x14 (pureEff waitfGo) s

/-- SETF or CLRF decoded (R172, R267). -/
def setfGo (set : Bool) (s : State) (x : PCtx) (m : Stream) (i : Nat) : Step1 :=
  let die := bits i 29 4
  let rmt := if bit i 28 ∧ die ≠ s.pwr.dieId then some die else none
  match insFlag s x m.front i with
  | none => badProt
  | some p =>
    if rmt.isSome ∧ ¬ die ∈ s.build.dies then badProt
    else .go m.front.stepped [.setf p set (bit i 24) (bits i 25 3) rmt]

/-- SETF (R172). -/
def execSetf (m p : Nat) (s : State) : Res := rowOf m p 0x15 (pureEff (setfGo true)) s

/-- CLRF (R172). -/
def execClrf (m p : Nat) (s : State) : Res := rowOf m p 0x16 (pureEff (setfGo false)) s

/-- The stream instruction FENCE (R172). -/
def execStreamFence (m p : Nat) (s : State) : Res :=
  rowOf m p 0x17 (pureEff (fun _ _ y i => .go y.front.stepped [.fence (bits i 6 3)])) s

/-- The stream instruction STAMP (R172). -/
def execStreamStamp (m p : Nat) (s : State) : Res :=
  rowOf m p 0x18 (pureEff (fun _ _ y i =>
    .go y.front.stepped [.stamp (bits i 9 32 * 2 ^ 32 + y.front.rn (bits i 6 3))])) s

/-- A seam set with its seam open and, with NONE clear, a range set (R177). -/
def seamPut (f : Front) (i : Nat) (c : SeamSet) : SeamSet :=
  let a := f.ra (bits i 9 4)
  let n := f.rn (bits i 13 3)
  { isOpen := true,
    ranges := if bit i 16 then c.ranges
              else tput c.ranges (bits i 6 3) (a / 128 * 128, if n = 0 then a / 128 * 128 else (a + n + 127) / 128 * 128) }

/-- SEAM decoded (R177): the guard set, or the declare set once the front has crossed a NEXT. -/
def seamGo (_ : State) (_ : PCtx) (m : Stream) (i : Nat) : Step1 :=
  let f := m.front
  if m.crossed then .go { f with declareSet := seamPut f i f.declareSet }.stepped []
  else .go { f with guardSet := seamPut f i f.guardSet }.stepped []

/-- SEAM (R177). -/
def execSeam (m p : Nat) (s : State) : Res := rowOf m p 0x19 (pureEff seamGo) s

/-- DIGEST (R172). -/
def execDigest (m p : Nat) (s : State) : Res :=
  rowOf m p 0x1A (pureEff (fun _ _ y i =>
    .go y.front.stepped [.digest (bits i 6 3) (bit i 9) (bit i 14) (bits i 10 4)])) s

/-! ### NEXT (R163, R176, R178 to R180) -/

/-- Whether NEXT is taken by a condition that the front resolves (Table 7.4). -/
def frontTaken (f : Front) (i : Nat) : Bool :=
  let c := bits i 21 3
  let n := f.rn (bits i 24 3)
  c == 0 || (c == 1 && n != 0) || (c == 2 && n == 0)

/-- NEXT (R163, R178, R179): its item for the back; the front crosses it while the seam is open, along the path that is
resolved or that P predicts, and stops at it otherwise. -/
def nextEff (s : State) (k : Nat) (x : PCtx) (m : Stream) (i : Nat) : State :=
  let f := m.front
  let c := bits i 21 3
  let t := bits i 6 15
  let late := c == 3 || c == 4
  if !f.levels.isEmpty then frontApply s k m badProt
  else match if late then flagOfIndex s (dCtx x.desc) (bits i 27 14) else some 0 with
    | none => frontApply s k m badProt
    | some p =>
      let taken := if late then bit i 41 else frontTaken f i
      let item := BackOp.next (if late then c else if taken then 0 else 1) p t (f.pc + 1) taken
      let cross := f.guardSet.isOpen && (!late || s.rgBit Reg.strmCfg 16)
      let chk := if cross && late then some f else none
      let g := if cross then nextFront f taken t else f
      onStream s k (fun y => { y with back := y.back ++ [itemAt f item], crossed := cross, check := chk, front := g })

/-- NEXT (R163). -/
def execNext (m p : Nat) (s : State) : Res := rowOf m p 0x02 nextEff s

/-- A front whose program's NEXT is retired: the guard set closes, the declare set takes its place (R177). -/
def seamShift (f : Front) : Front := { f with guardSet := f.declareSet, declareSet := seamClosed }

/-- The back retires a NEXT whose condition is resolved (R176, R177): a front that did not cross it does so now. -/
def nextRetire (s : State) (k : Nat) (taken : Bool) (target : Nat) : State :=
  onStream s k (fun y => { y with
    back := y.back.drop 1, crossed := false,
    front := seamShift (if y.crossed then y.front else nextFront y.front taken target) })

/-- The back at a NEXT, once every write of the program has reached its point of coherence. -/
def retireAt (s : State) (k : Nat) : State :=
  match s.program k with
  | none => s
  | some (_, m) =>
    match m.back with
    | { op := .next c _ t _ _, .. } :: _ =>
      if releaseReady s (pctxSrc s k) 1 then streamGo (nextRetire s k (c == 0) t) (k / 8) else s
    | _ => s

/-- NEXT_RETIRE (R176, R180). -/
def execNextRetire (m p : Nat) (s : State) : Res :=
  gateIn dFAB s (fun s => retireAt (streamGo s (m % 32)) (m % 32 * 8 + p % 8))

/-! ### A pending fault (R181) -/

/-- The back takes the fault at its first item: the record, STRM_FAULTm, and the end of the command. A PC that passed 32,767
shows modulo 32,768 (DESIGN CHOICE, log 73: its field has 15 bits). -/
def faultTake (s : State) (k : Nat) : State :=
  match s.program k with
  | none => s
  | some (x, m) =>
    match m.back with
    | { op := .fault st a cva host, pc := at_, prog := id_, .. } :: _ =>
      let t := (s.driveField (Reg.strmFault (k / 8)) 0 32 (2 ^ 31 + k % 8 * 2 ^ 28 + stCode st * 2 ^ 20 + at_ % 32768)).setRg
        (Reg.strmFaultp (k / 8)) id_
      let t := onStream t k (fun y => { y with back := [], stage := [], folds := [] })
      cmdFault t k x { st := st, addr := a.toNat, cva := cva, host := host }
    | _ => s

/-- PENDING_FAULT_TAKE (R181). -/
def execPendingFaultTake (m p : Nat) (s : State) : Res :=
  gateIn dFAB s (fun s => faultTake (streamGo s (m % 32)) (m % 32 * 8 + p % 8))

end Sys2Proof.Machine
end

