-- ==== Sys2Proof/Machine/Clock.lean ====
section
/-! DEFINITION. What a tc brings of itself (log 5): the segments go on, what waits at an issue point is decided again, programs
and transfers go on; and the idle step, a tc or a nanosecond of the block's time. -/

namespace Sys2Proof.Machine

/-- The effect of a command whose accesses pass the issue point. -/
def issuedEff (op : Nat) : State → Nat → PCtx → State :=
  if op = 0x01 then copyEff
  else if op = 0x02 then fillEff
  else if op = 0x03 then reduceEff
  else if op = 0x04 then convertEff
  else if op = 0x05 then relayEff
  else if op = 0x0C then bindEff
  else digestReadEff

/-- A command that waits at its issue point is decided again (R116); a relay's granted piece is. -/
def cmdResume (s : State) (k : Nat) : State :=
  match s.pctx k with
  | none => s
  | some x =>
    if x.relay.isSome then relayGo s k
    else if x.wait = some .issue ∧ x.stream.isNone then issueCmd (issuedEff (dOp x.desc)) s k x
    else s

/-- The program contexts of a mover go on: its commands and relays that wait, in the order of their numbers, then its
programs. -/
def moverTc (s : State) (m : Nat) : State :=
  streamGo ((runningOf s m).foldl (fun t e => cmdResume t e.1) s) m

/-- One tc of what moves of itself, while FAB is up. -/
def tcGo (s : State) : State :=
  let s := portsMark { s with clk := { s.clk with tc := s.clk.tc + 1 } }
  if frozen s || !isUp s dFAB then s
  else
    let t := waitersLatch (segmentsTc s)
    let ms := (List.range 32).filter (fun m => t.work.pctxs.any (fun e => e.1 / 8 == m))
    wakesTc (portsRetry (ms.foldl moverTc t))

/-- The tc of tclk that a nanosecond brings are due; tclk stands while a stop holds (R366). -/
def clkTick (s : State) : State :=
  if s.obs.holds then s else { s with clk := { s.clk with acc := s.clk.acc + tcRate s } }

/-- A tc that is due passes, with its counts (Table 15.7). -/
def tcTick (s : State) : State :=
  let t := tcGo { s with clk := { s.clk with acc := s.clk.acc - 20 } }
  if isUp s 1 then countEvent (countEvent t 0x15 0 1) 0x16 0 (b2n (withheldNow s)) else t

/-- Whether a tc is due before the next nanosecond. -/
def tcDue (s : State) : Bool := decide (20 ≤ s.clk.acc) && !s.obs.holds

/-- What passes when no command waits (log 5): a tc that is due, or one nanosecond of the block's time. -/
def tick (s : State) : State := if tcDue s then tcTick s else traceTick (watchTick (clkTick (ptTick s)))

end Sys2Proof.Machine
end

