-- ==== Sys2Proof/Machine/Dispatch.lean ====
section
/-! DEFINITION. One arm per command. -/

namespace Sys2Proof.Machine

def exec (i : Instr) (s : State) : Host.Outcome State Fault Refusal :=
  match i with
  | .ptSyncMark mark => Sys2Proof.Machine.execPtSyncMark mark s
  | .ptMarkMissing bad => Sys2Proof.Machine.execPtMarkMissing bad s
  | .ptSlewEnd => Sys2Proof.Machine.execPtSlewEnd s
  | .ptDieOffsetWrite v => Sys2Proof.Machine.execPtDieOffsetWrite v s
  | .ptNowLoRead off => Sys2Proof.Machine.execPtNowLoRead off s
  | .ptEpochOffsetHiWrite v => Sys2Proof.Machine.execPtEpochOffsetHiWrite v s
  | .ptProbeGo v => Sys2Proof.Machine.execPtProbeGo v s
  | .ptProbeDone t1 t2 t3 t4 => Sys2Proof.Machine.execPtProbeDone t1 t2 t3 t4 s
  | .evlEnable v => Sys2Proof.Machine.execEvlEnable v s
  | .evlDisable v => Sys2Proof.Machine.execEvlDisable v s
  | .evlRecordPlace src => Sys2Proof.Machine.execEvlRecordPlace src s
  | .protSealWrite v => Sys2Proof.Machine.execProtSealWrite v s
  | .ctxBind r => Sys2Proof.Machine.execCtxBind r s
  | .ctxUnbind r => Sys2Proof.Machine.execCtxUnbind r s
  | .ctxUnbindFinish ctx => Sys2Proof.Machine.execCtxUnbindFinish ctx s
  | .frameMap r => Sys2Proof.Machine.execFrameMap r s
  | .frameMapModeOnly r => Sys2Proof.Machine.execFrameMapModeOnly r s
  | .frameMapDeferred key => Sys2Proof.Machine.execFrameMapDeferred key s
  | .groupModeSwitch g => Sys2Proof.Machine.execGroupModeSwitch g s
  | .frameUnmap r => Sys2Proof.Machine.execFrameUnmap r s
  | .shootdownAck node key => Sys2Proof.Machine.execShootdownAck node key s
  | .tallyWalkDone node asid vpn => Sys2Proof.Machine.execTallyWalkDone node asid vpn s
  | .tellerGrant bank reqs => Sys2Proof.Machine.execTellerGrant bank reqs s
  | .tellerHeader node place => Sys2Proof.Machine.execTellerHeader node place s
  | .lookAhead bank id => Sys2Proof.Machine.execLookAhead bank id s
  | .callReceive id => Sys2Proof.Machine.execCallReceive id s
  | .segmentGranuleArrive id => Sys2Proof.Machine.execSegmentGranuleArrive id s
  | .refusalReceive id => Sys2Proof.Machine.execRefusalReceive id s
  | .backoffExpire id => Sys2Proof.Machine.execBackoffExpire id s
  | .meshRailGrant row col out => Sys2Proof.Machine.execMeshRailGrant row col out s
  | .cutOff id => Sys2Proof.Machine.execCutOff id s
  | .quarantineWindowEnd unit => Sys2Proof.Machine.execQuarantineWindowEnd unit s
  | .quarantineRelease n v => Sys2Proof.Machine.execQuarantineRelease n v s
  | .starvation bank id => Sys2Proof.Machine.execStarvation bank id s
  | .readDataArrive id => Sys2Proof.Machine.execReadDataArrive id s
  | .writeAckArrive id => Sys2Proof.Machine.execWriteAckArrive id s
  | .segmentIssue seg => Sys2Proof.Machine.execSegmentIssue seg s
  | .windowBoundary => Sys2Proof.Machine.execWindowBoundary s
  | .reguCntClrWrite v => Sys2Proof.Machine.execReguCntClrWrite v s
  | .doorbell r off width v => Sys2Proof.Machine.execDoorbell r off width v s
  | .batchFetch r => Sys2Proof.Machine.execBatchFetch r s
  | .batchArrive r pathStatus => Sys2Proof.Machine.execBatchArrive r pathStatus s
  | .notBeforeReached r => Sys2Proof.Machine.execNotBeforeReached r s
  | .copy r => Sys2Proof.Machine.execCopy r s
  | .fill r => Sys2Proof.Machine.execFill r s
  | .reduce r => Sys2Proof.Machine.execReduce r s
  | .convert r => Sys2Proof.Machine.execConvert r s
  | .relay r => Sys2Proof.Machine.execRelay r s
  | .stream r => Sys2Proof.Machine.execStream r s
  | .signal r => Sys2Proof.Machine.execSignal r s
  | .wait r => Sys2Proof.Machine.execWait r s
  | .fence r => Sys2Proof.Machine.execFence r s
  | .barrier r => Sys2Proof.Machine.execBarrier r s
  | .invalidate r => Sys2Proof.Machine.execInvalidate r s
  | .flush r => Sys2Proof.Machine.execFlush r s
  | .digestRead r => Sys2Proof.Machine.execDigestRead r s
  | .stamp r => Sys2Proof.Machine.execStamp r s
  | .commandComplete r seq => Sys2Proof.Machine.execCommandComplete r seq s
  | .cringRecordPlace c => Sys2Proof.Machine.execCringRecordPlace c s
  | .cringHeadWrite evr c v => Sys2Proof.Machine.execCringHeadWrite evr c v s
  | .cmdrEnable r v => Sys2Proof.Machine.execCmdrEnable r v s
  | .cmdrDisable r v => Sys2Proof.Machine.execCmdrDisable r v s
  | .cmdrStop r v => Sys2Proof.Machine.execCmdrStop r v s
  | .cmdrResume r v => Sys2Proof.Machine.execCmdrResume r v s
  | .cringEnable c v => Sys2Proof.Machine.execCringEnable c v s
  | .evrEnable e v => Sys2Proof.Machine.execEvrEnable e v s
  | .irqNsExpire evr c => Sys2Proof.Machine.execIrqNsExpire evr c s
  | .pstoreHighWrite n v => Sys2Proof.Machine.execPstoreHighWrite n v s
  | .pstoreLowWrite n v => Sys2Proof.Machine.execPstoreLowWrite n v s
  | .halt m p => Sys2Proof.Machine.execHalt m p s
  | .next m p => Sys2Proof.Machine.execNext m p s
  | .nextRetire m p => Sys2Proof.Machine.execNextRetire m p s
  | .loop m p => Sys2Proof.Machine.execLoop m p s
  | .endl m p => Sys2Proof.Machine.execEndl m p s
  | .seta m p => Sys2Proof.Machine.execSeta m p s
  | .adda m p => Sys2Proof.Machine.execAdda m p s
  | .stride m p => Sys2Proof.Machine.execStride m p s
  | .rd m p => Sys2Proof.Machine.execRd m p s
  | .wr m p => Sys2Proof.Machine.execWr m p s
  | .streamCopy m p => Sys2Proof.Machine.execStreamCopy m p s
  | .red m p => Sys2Proof.Machine.execRed m p s
  | .gath m p => Sys2Proof.Machine.execGath m p s
  | .scat m p => Sys2Proof.Machine.execScat m p s
  | .pwalk m p => Sys2Proof.Machine.execPwalk m p s
  | .mint m p => Sys2Proof.Machine.execMint m p s
  | .slota m p => Sys2Proof.Machine.execSlota m p s
  | .slotr m p => Sys2Proof.Machine.execSlotr m p s
  | .chqin m p => Sys2Proof.Machine.execChqin m p s
  | .chqout m p => Sys2Proof.Machine.execChqout m p s
  | .waitf m p => Sys2Proof.Machine.execWaitf m p s
  | .setf m p => Sys2Proof.Machine.execSetf m p s
  | .clrf m p => Sys2Proof.Machine.execClrf m p s
  | .streamFence m p => Sys2Proof.Machine.execStreamFence m p s
  | .streamStamp m p => Sys2Proof.Machine.execStreamStamp m p s
  | .seam m p => Sys2Proof.Machine.execSeam m p s
  | .digest m p => Sys2Proof.Machine.execDigest m p s
  | .pendingFaultTake m p => Sys2Proof.Machine.execPendingFaultTake m p s
  | .slotRingEnable ring v => Sys2Proof.Machine.execSlotRingEnable ring v s
  | .slotRingDisable ring v => Sys2Proof.Machine.execSlotRingDisable ring v s
  | .slotAcquireRetry ring side => Sys2Proof.Machine.execSlotAcquireRetry ring side s
  | .slotConsumerReleaseDone ring slot => Sys2Proof.Machine.execSlotConsumerReleaseDone ring slot s
  | .chequePoolEnable pool v => Sys2Proof.Machine.execChequePoolEnable pool v s
  | .recall pool v => Sys2Proof.Machine.execRecall pool v s
  | .chequeQueueEnable q v => Sys2Proof.Machine.execChequeQueueEnable q v s
  | .chequeQueueDisable q v => Sys2Proof.Machine.execChequeQueueDisable q v s
  | .put q v src => Sys2Proof.Machine.execPut q v src s
  | .chequeWaitRetry q isPut => Sys2Proof.Machine.execChequeWaitRetry q isPut s
  | .relayReservation m p hop => Sys2Proof.Machine.execRelayReservation m p hop s
  | .relayGrant m p => Sys2Proof.Machine.execRelayGrant m p s
  | .relayLinkRelease m p link hop => Sys2Proof.Machine.execRelayLinkRelease m p link hop s
  | .relayErrorReport m p link st => Sys2Proof.Machine.execRelayErrorReport m p link st s
  | .releasePerform key => Sys2Proof.Machine.execReleasePerform key s
  | .flagsWrite off data src => Sys2Proof.Machine.execFlagsWrite off data src s
  | .flagOperationPerform flag ops => Sys2Proof.Machine.execFlagOperationPerform flag ops s
  | .spinPoll m p => Sys2Proof.Machine.execSpinPoll m p s
  | .remoteFlagWrite flag v src lane => Sys2Proof.Machine.execRemoteFlagWrite flag v src lane s
  | .lendAssert n => Sys2Proof.Machine.execLendAssert n s
  | .nodeAllWait n w => Sys2Proof.Machine.execNodeAllWait n w s
  | .barrierArrivalCount c => Sys2Proof.Machine.execBarrierArrivalCount c s
  | .barrierReleaseSeen c => Sys2Proof.Machine.execBarrierReleaseSeen c s
  | .quietPhaseEnd c => Sys2Proof.Machine.execQuietPhaseEnd c s
  | .barEnable c v => Sys2Proof.Machine.execBarEnable c v s
  | .barDisable c v => Sys2Proof.Machine.execBarDisable c v s
  | .barArrive v => Sys2Proof.Machine.execBarArrive v s
  | .barForce v => Sys2Proof.Machine.execBarForce v s
  | .gatewayHeader id => Sys2Proof.Machine.execGatewayHeader id s
  | .stackEntryAccept st c => Sys2Proof.Machine.execStackEntryAccept st c s
  | .stackReadData st c tag ue => Sys2Proof.Machine.execStackReadData st c tag ue s
  | .stackLevel st c level => Sys2Proof.Machine.execStackLevel st c level s
  | .levelStale st c => Sys2Proof.Machine.execLevelStale st c s
  | .retrainNotice st c e b => Sys2Proof.Machine.execRetrainNotice st c e b s
  | .retrainGo st c => Sys2Proof.Machine.execRetrainGo st c s
  | .retrainDone st c => Sys2Proof.Machine.execRetrainDone st c s
  | .retrainTimeout st c => Sys2Proof.Machine.execRetrainTimeout st c s
  | .retrainFail st c => Sys2Proof.Machine.execRetrainFail st c s
  | .chLost st c => Sys2Proof.Machine.execChLost st c s
  | .repairAdvised st c => Sys2Proof.Machine.execRepairAdvised st c s
  | .rowRepaired st c off => Sys2Proof.Machine.execRowRepaired st c off s
  | .spareRowFailed st c off => Sys2Proof.Machine.execSpareRowFailed st c off s
  | .frameSetWithdrawn f => Sys2Proof.Machine.execFrameSetWithdrawn f s
  | .gwRepairGo st v src => Sys2Proof.Machine.execGwRepairGo st v src s
  | .repairSwitch st => Sys2Proof.Machine.execRepairSwitch st s
  | .farReadData id half ue => Sys2Proof.Machine.execFarReadData id half ue s
  | .farWriteAck piece => Sys2Proof.Machine.execFarWriteAck piece s
  | .linkFlitReceive port f => Sys2Proof.Machine.execLinkFlitReceive port f s
  | .linkControlFlit port votes credits => Sys2Proof.Machine.execLinkControlFlit port votes credits s
  | .wakePattern die => Sys2Proof.Machine.execWakePattern die s
  | .linkRetrain port => Sys2Proof.Machine.execLinkRetrain port s
  | .linkUp port => Sys2Proof.Machine.execLinkUp port s
  | .linkFailed port => Sys2Proof.Machine.execLinkFailed port s
  | .scrubStep bank usable => Sys2Proof.Machine.execScrubStep bank usable s
  | .scrubWriteBack bank => Sys2Proof.Machine.execScrubWriteBack bank s
  | .ceWindowEnd => Sys2Proof.Machine.execCeWindowEnd s
  | .bankMapWrite b v => Sys2Proof.Machine.execBankMapWrite b v s
  | .bankSpare v src => Sys2Proof.Machine.execBankSpare v src s
  | .bankWithdraw v src => Sys2Proof.Machine.execBankWithdraw v src s
  | .spareCopyEnd => Sys2Proof.Machine.execSpareCopyEnd s
  | .frameRescue v src => Sys2Proof.Machine.execFrameRescue v src s
  | .frameRescueNone v src => Sys2Proof.Machine.execFrameRescueNone v src s
  | .rescueCopyEnd => Sys2Proof.Machine.execRescueCopyEnd s
  | .frameSet v src => Sys2Proof.Machine.execFrameSet v src s
  | .gwBootSpare st v => Sys2Proof.Machine.execGwBootSpare st v s
  | .gwBootWd st v => Sys2Proof.Machine.execGwBootWd st v s
  | .clerkAlert v src => Sys2Proof.Machine.execClerkAlert v src s
  | .clerkWdKick v src => Sys2Proof.Machine.execClerkWdKick v src s
  | .clerkWatchdog => Sys2Proof.Machine.execClerkWatchdog s
  | .cmdWatchdog m p => Sys2Proof.Machine.execCmdWatchdog m p s
  | .lockup site node out lane => Sys2Proof.Machine.execLockup site node out lane s
  | .nodeVote n mask => Sys2Proof.Machine.execNodeVote n mask s
  | .pwrVoteHostWrite hi v => Sys2Proof.Machine.execPwrVoteHostWrite hi v s
  | .pwrVoteClerkWrite hi v src => Sys2Proof.Machine.execPwrVoteClerkWrite hi v src s
  | .activityTimerExpire d => Sys2Proof.Machine.execActivityTimerExpire d s
  | .domainEntryStart d => Sys2Proof.Machine.execDomainEntryStart d s
  | .domainEntryDone d => Sys2Proof.Machine.execDomainEntryDone d s
  | .domainWake d kind src => Sys2Proof.Machine.execDomainWake d kind src s
  | .domainWakeDone d => Sys2Proof.Machine.execDomainWakeDone d s
  | .timedWake => Sys2Proof.Machine.execTimedWake s
  | .pwrBankWrite b v => Sys2Proof.Machine.execPwrBankWrite b v s
  | .bankRetentionExit b => Sys2Proof.Machine.execBankRetentionExit b s
  | .powerEstimateUpdate est cap => Sys2Proof.Machine.execPowerEstimateUpdate est cap s
  | .voltageAck => Sys2Proof.Machine.execVoltageAck s
  | .voltageTimeout => Sys2Proof.Machine.execVoltageTimeout s
  | .clampRelease hi v => Sys2Proof.Machine.execClampRelease hi v s
  | .thermUpdate temps => Sys2Proof.Machine.execThermUpdate temps s
  | .powerOn => Sys2Proof.Machine.execPowerOn s
  | .brownOut ao => Sys2Proof.Machine.execBrownOut ao s
  | .pin => Sys2Proof.Machine.execPin s
  | .software v => Sys2Proof.Machine.execSoftware v s
  | .debug => Sys2Proof.Machine.execDebug s
  | .clockFail => Sys2Proof.Machine.execClockFail s
  | .resetRelease => Sys2Proof.Machine.execResetRelease s
  | .clerkStart => Sys2Proof.Machine.execClerkStart s
  | .clerkBootGo v => Sys2Proof.Machine.execClerkBootGo v s
  | .lifeCycleChange st => Sys2Proof.Machine.execLifeCycleChange st s
  | .tamper => Sys2Proof.Machine.execTamper s
  | .wipeDone => Sys2Proof.Machine.execWipeDone s
  | .stopArm v => Sys2Proof.Machine.execStopArm v s
  | .globalStop => Sys2Proof.Machine.execGlobalStop s
  | .stopAck v => Sys2Proof.Machine.execStopAck v s
  | .resume v => Sys2Proof.Machine.execResume v s
  | .debugAccess off wr => Sys2Proof.Machine.execDebugAccess off wr s
  | .tapInstrumentAccess dbg off wr => Sys2Proof.Machine.execTapInstrumentAccess dbg off wr s
  | .auditTake trigger src => Sys2Proof.Machine.execAuditTake trigger src s
  | .auditDone => Sys2Proof.Machine.execAuditDone s
  | .auditRelease v => Sys2Proof.Machine.execAuditRelease v s
  | .cntClr v => Sys2Proof.Machine.execCntClr v s
  | .portRd q => Sys2Proof.Machine.execPortRd q s
  | .portWr q beats => Sys2Proof.Machine.execPortWr q beats s
  | .portRdAcq q => Sys2Proof.Machine.execPortRdAcq q s
  | .portWrRel q beats => Sys2Proof.Machine.execPortWrRel q beats s
  | .portAtomic q beats => Sys2Proof.Machine.execPortAtomic q beats s
  | .portFence q => Sys2Proof.Machine.execPortFence q s
  | .portWriteBeat port beat => Sys2Proof.Machine.execPortWriteBeat port beat s
  | .flagSet q => Sys2Proof.Machine.execFlagSet q s
  | .flagClr q => Sys2Proof.Machine.execFlagClr q s
  | .waitSet q => Sys2Proof.Machine.execWaitSet q s
  | .waitClr q => Sys2Proof.Machine.execWaitClr q s
  | .waitSetThenClr q => Sys2Proof.Machine.execWaitSetThenClr q s
  | .slotAcq q => Sys2Proof.Machine.execSlotAcq q s
  | .slotRel q => Sys2Proof.Machine.execSlotRel q s
  | .chqTake q => Sys2Proof.Machine.execChqTake q s
  | .chqPut q => Sys2Proof.Machine.execChqPut q s
  | .portBarrier q => Sys2Proof.Machine.execPortBarrier q s
  | .escrowBegin v => Sys2Proof.Machine.execEscrowBegin v s
  | .escrowStageData k v => Sys2Proof.Machine.execEscrowStageData k v s
  | .escrowCommit v => Sys2Proof.Machine.execEscrowCommit v s
  | .escrowAbort v => Sys2Proof.Machine.execEscrowAbort v s
  | .escrowCommitTime k => Sys2Proof.Machine.execEscrowCommitTime k s
  | .escrowDrainDone k => Sys2Proof.Machine.execEscrowDrainDone k s
  | .registerWrite off v src => Sys2Proof.Machine.execRegisterWrite off v src s
  | .slotChequeControlWrite off v src => Sys2Proof.Machine.execSlotChequeControlWrite off v src s
  | .linkDown port => Sys2Proof.Machine.execLinkDown port s
  | .tamperDeasserted => Sys2Proof.Machine.execTamperDeasserted s
  | .entryOverdue id => Sys2Proof.Machine.execEntryOverdue id s
  | .escrowValidationEnd k => Sys2Proof.Machine.execEscrowValidationEnd k s
  | .vaultBackupLoss => Sys2Proof.Machine.execVaultBackupLoss s

end Sys2Proof.Machine
end

