-- ==== Sys2Proof/Machine/Step.lean ====
section
/-! DEFINITION. The step of the block: the command at the front of the queue, or a tc or a nanosecond of idling. -/

namespace Sys2Proof.Machine

/-- Takes the command at the front of the queue. On an empty queue the oldest request that may leave its domain's edge
is served, and where there is none a tc or a nanosecond passes (log 5). -/
def step (s : State) : Host.Outcome State Fault Refusal :=
  match s.pending with
  | c :: rest => exec c { s with pending := rest }
  | [] =>
    match s.waits.find? (edgeReady s) with
    | some w => exec w.2.2 { s with waits := s.waits.erase w }
    | none => .next (tick s)

/-- The state with the command that a word spells put at the front of the queue; unchanged where it spells none. -/
def State.withFetchWord (s : State) (nbits w : Nat) : State :=
  match decodeTableWord nbits w with
  | some c => { s with pending := c :: s.pending }
  | none => s

end Sys2Proof.Machine
end

