-- ==== Sys2Proof/Safety.lean ====
section
/-! DEFINITION. What counts as a safe run: every step answers a next state, and what the model promises of a state at
every moment. -/

namespace Sys2Proof.Machine

/-- A domain serves: no reset and no stop holds the die (R353, R362), and the domain is up (R333). -/
abbrev Live (s : State) (d : Nat) : Prop := s.pwr.asserted = false ∧ s.obs.holds = false ∧ isUp s d = true

/-- Every home node serves: a wake for one starts no domain (R340, R388). -/
def HomesUp (s : State) : Prop := ∀ n, n < 32 → isUp s (dHome n) = true

/-- Every register outside a list of offsets reads as before. -/
def RegsBut (l : List Nat) (s t : State) : Prop := ∀ o, o ∉ l → t.rg o = s.rg o

/-- Nothing changed but the registers of a list, the record of what the hardware drove in them (R12), and the activity timer of the command's domain (0, AO, has none). -/
def OnlyRegs (d : Nat) (l : List Nat) (s t : State) : Prop :=
  t = { touch s d with regs := t.regs, hw := t.hw } ∧ RegsBut l s t

/-- Every byte of every memory reads as before. -/
def SameMem (s t : State) : Prop :=
  ∀ a, t.bankMem.read a = s.bankMem.read a ∧ t.stackMem.read a = s.stackMem.read a ∧
    t.extMem.read a = s.extMem.read a ∧ t.clerkMem.read a = s.clerkMem.read a

/-- The head of ring r is the command of a row (opcode, further condition), starts, and passes the checks of R143 on a
mover that is not quarantined (R110, R141, R142), the table words of its start reading without an error (R309): its program
context with the resolved SFLAG, and the state in which its effect begins. -/
def Begins (s : State) (r op : Nat) (p : Desc → Bool) (k : Nat) (x : PCtx) (u : State) : Prop :=
  ∃ y t v, cmdStart s (r % 1024) (fun d => opReserved (dOp d) || (dOp d == op && p d)) = some (k, y, t) ∧
    startCheck t (r % 1024) y.desc = .ok ∧
    tableReads t (pctxSrc t k) (dTag y.desc) (cmdWords t y.desc) = (true, v) ∧ moverQuar v (k / 8) = false ∧
    x = { y with sflag := dSetFlag v y.desc } ∧ u = v.setPctx k x

/-- The accesses of a command whose effect begins in the state u pass the issue point (R116): w is the state in which that
effect takes place. -/
def Issues (eff : State → Nat → PCtx → State) (u : State) (k : Nat) (x : PCtx) (w : State) : Prop :=
  ∃ v n, issueRun u (.pctx k true) (pctxRq u k x) x.issued (fun t => eff t k x) = (v, n, true) ∧
    w = v.setPctx k { x with wait := none }

/-- Bank b's teller may decide in this tc (R85, R89): its node's domain serves, the bank runs, its teller has not decided in this
tc and keeps no look-ahead, and no owner port's segment stands before it. -/
abbrev TellerTurn (s : State) (b : Nat) : Prop :=
  b < 256 ∧ Live s (dHome (b / 8)) ∧ bankRun s b = 0 ∧ (s.teller b).acted ≠ some s.clk.tc ∧ (s.teller b).look = none ∧
    ownerClaims s b = []

/-- The answers to a source go to a unit of this die, not out by a die-link port (R18, R302). -/
abbrev OwnSource (s : State) (src : Nat) : Prop := src / 256 = s.pwr.dieId ∧ ¬ (162 ≤ src % 256 ∧ src % 256 < 166)

/-- The command of a program context, no STREAM, is running with no error so far. -/
def Active (t : State) (k : Nat) : Prop := ∃ y, t.pctx k = some y ∧ y.done = false ∧ y.status = none ∧ y.stream = none

/-- The command of a program context has its requests done, with no wait left and no error. -/
def DoneOk (t : State) (k : Nat) : Prop := ∃ y, t.pctx k = some y ∧ y.done = true ∧ y.wait = none ∧ y.status = none

/-- The command of a program context is done with an error. -/
def DoneWith (t : State) (k : Nat) (st : Status) : Prop :=
  ∃ y, t.pctx k = some y ∧ y.done = true ∧ y.wait = none ∧ y.status = some st

/-- Program context p of mover m runs the one program of the mover; its back is empty, and its front stands at an
instruction of an opcode, good to execute, of a store that nothing rewrote since its start and no table word of the die shows
an error (R156, R157, R159, R173, R176, R309). -/
def Fetches (s : State) (m p op : Nat) (x : PCtx) (y : Stream) (i : Nat) : Prop :=
  s.program (m % 32 * 8 + p % 8) = some (x, y) ∧ moverPrograms s (m % 32) = [(m % 32 * 8 + p % 8, x)] ∧
    y.back = [] ∧ frontStands y = false ∧ y.check = none ∧ y.crossed = false ∧ backWaits x = false ∧ s.tableMark = [] ∧
    y.changed = [] ∧ fetchBad s x y.front = none ∧ i = (s.instr y.front.pc).toNat ∧ bits i 0 6 = op

/-- The state in which the back meets the item of an instruction, the front being on its way. -/
def fronted (s : State) (k : Nat) (x : PCtx) (y : Stream) (f : Front) (op : BackOp) : State :=
  s.setPctx k { x with stream := some { y with front := f, back := [itemAt y.front op] } }

/-- A program whose only item has its reads made. -/
def held (y : Stream) (f : Front) (op : BackOp) (r : Reading) : Stream :=
  { y with front := f, back := [{ itemAt y.front op with got := some r.got }], kept := r.kept }

/-- The reads of a program's only item pass the issue point and meet no error (R116, R174, R181): q is the state after them. -/
def ReadsPass (u : State) (k : Nat) (y : Stream) (f : Front) (op : BackOp) (r : Reading) (q : State) : Prop :=
  ∃ z m u1 n v, u.program k = some (z, m) ∧
    issueRun u (.pctx k false) (pctxRq u k z) 0 (fun t => (fetchItem t k z m op).1) = (u1, n, true) ∧
    fetchItem { u1 with taking := some [] } k z m op = (v, r) ∧ v.taking = some [] ∧ r.got.err = none ∧ r.got.took = [] ∧
    q = takeReads { v with taking := none } k 0 (itemAt y.front op) r ∧ ∃ x, q.program k = some (x, held y f op r)

/-- The writes of a program's first item pass the issue point (R116): w is the state in which the back performs it. -/
def WritesPass (q : State) (k : Nat) (z : PCtx) (m : Stream) (b : BackItem) (w : State) : Prop :=
  q.program k = some (z, m) ∧
  ∃ w1 n, issueRun q (.pctx k true) (pctxRq q k z) 0 (fun t => backDo t k z m b) = (w1, n, true) ∧ w = backWait w1 k none

/-- The program of a program context after a step, its command still running. -/
def Runs (t : State) (k : Nat) (y : Stream) : Prop := ∃ x, t.pctx k = some x ∧ x.done = false ∧ x.stream = some y

/-- A port request q, with its fields in their widths r, completes its handshake: its domain serves, its group is not
latched, the port takes a request in this tc and no other stands there; u is the state after it (R383, R386). -/
def PortTakes (s : State) (q r : PortReq) (u : State) : Prop :=
  r = portNorm q ∧ Live s (dHome (r.port / 4)) ∧ clampOn s (r.port / 4) = false ∧ portReady s r.port = true ∧
  ((s.port r.port).stands = none ∨ (s.port r.port).stands = some r.tag) ∧
  u = (lendOff (touch s (dHome (r.port / 4))) (r.port / 4)).setPort r.port
    { s.port r.port with stands := none, took := some s.clk.tc }

/-- The item of a port request in its issue queue, as its acceptance or its beats make it. -/
def portItem (u : State) (r : PortReq) (op : Nat) (data : List WByte) : PIssue :=
  { q := r, op := op, order := (u.port r.port).count, data := data, issued := 0 }

/-- A request of a port waits for no walk, drain or earlier request and passes the issue point (R78, R116, R232, R406): v is
the state in which it is performed. -/
def PortIssues (u : State) (w : PIssue) (v : State) : Prop :=
  portDrains u w = false ∧ portWalks u w = false ∧ portBehind u w = false ∧
  ∃ x n, issueRun u (.port w.q.port w.q.tag) (portRq u w.q) w.issued (fun t => portDo t w) = (x, n, true) ∧
    v = portDequeue x w

/-- The waits of a release of an accepted port request at a scope are done (R239): no earlier release of the port waits, and
its dirty record is empty where the scope cleans it. -/
def PortReleases (u : State) (r : PortReq) (scope : Nat) : Prop :=
  portReleases u (u.src r.port) u.sync.nextKey = false ∧
  releaseReady u (u.src r.port) scope (u.port r.port).count = true ∧ (scope = 0 ∨ dirtyRecord u r.port = [])

/-- A port request q, with its fields in their widths r, completes its handshake and passes the checks of R384 for an
operation; u is the state in which it issues (R383 to R386). -/
def PortReady (s : State) (q r : PortReq) (op : Nat) (u : State) : Prop :=
  ∃ t, PortTakes s q r t ∧ portCheck s r op = .ok ∧ u = portAccept t r

/-- The answer of a port request, and its tag free again. -/
def Answers (u t : State) (r : PortReq) (kind : Nat) (st : Status) (data : List Byte) : Prop :=
  t.out = u.out ++ [.beat r.port r.tag kind st 0 true data] ∧ ∀ x ∈ (t.port r.port).tags, x.1 ≠ r.tag

/-- What a reset of a source and a class leaves (R351 to R353, R358): the die held in reset with its cause, every unit as
State.reset has it, every register that the class does not keep at its reset value, the vault counting the reset. -/
def ResetBy (s t : State) (code : Nat) (c : RstClass) : Prop :=
  t.pwr.asserted = true ∧ t.pwr.last = code ∧ t.work = State.reset.work ∧ t.sync = State.reset.sync ∧
  t.float = State.reset.float ∧ t.xl = State.reset.xl ∧ t.mesh = State.reset.mesh ∧ t.slc = State.reset.slc ∧
  t.waits = [] ∧ t.sessions = [] ∧ t.ports = [] ∧ t.obs.holds = false ∧ t.pending = s.pending ∧ t.out = s.out ∧
  (∀ o, regKept c o = false → o ≠ Reg.ptStatus → o ≠ Reg.pwrVoteClerkHi → t.rg o = (regReset o).toNat) ∧
  t.rg (Reg.vaultCnt code) = min (s.rg (Reg.vaultCnt code) + 1) 0xFFFF ∧ t.rg Reg.vaultLast = code ∧
  (∀ j, j < 9 → j ≠ code → t.rg (Reg.vaultCnt j) = s.rg (Reg.vaultCnt j))

/-- The states that steps lead to from a state. -/
inductive Reaches : State → State → Prop where
  | here (s : State) : Reaches s s
  | step (s t u : State) : Machine.step s = .next t → Reaches t u → Reaches s u

/-- A step of a safe run stops with no fault and no refusal. -/
def Goes (s : State) : Prop := ∃ t, step s = .next t

/-- A run is safe when every state it reaches goes on. -/
def Safe (s : State) : Prop := ∀ t, Reaches s t → Goes t

/-- The outcome of a number of steps in a row. -/
def steps : Nat → State → Host.Outcome State Fault Refusal
  | 0, s => .next s
  | n + 1, s =>
    match step s with
    | .next t => steps n t
    | o => o

/-- The commands that a die under reset answers to: PT, which runs on its own, resets, and the pins of the life cycle
(R353, R359). -/
def inReset : Instr → Bool
  | .ptSyncMark _ | .ptMarkMissing _ | .ptSlewEnd | .lifeCycleChange _ | .tamper | .tamperDeasserted | .powerOn
  | .brownOut _ | .pin | .debug | .clockFail | .resetRelease | .vaultBackupLoss => true
  | _ => false

/-- The commands that a stopped die answers to: those, the power sequencer, the wipe logic and the debug unit (R362). -/
def inStop : Instr → Bool
  | .debugAccess _ _ | .nodeVote _ _ | .activityTimerExpire _ | .domainEntryStart _ | .domainEntryDone _
  | .domainWake _ _ _ | .domainWakeDone _ | .timedWake | .voltageAck | .voltageTimeout | .wipeDone | .stopAck _
  | .resume _ | .tapInstrumentAccess _ _ _ => true
  | .flagsWrite _ _ src => src % 256 == 168
  | c => inReset c

/-- A register with no rule of its own beside the access codes of its fields (R11). -/
def PlainReg (o : Nat) : Prop :=
  o ≠ Reg.stopCtl ∧ o < 0x50000 ∧ (o < 0xD000 ∨ 0xE000 ≤ o) ∧
  ∀ (s : State) (v src : Nat) (es : Bool), setA s o v = none ∧ setB s o v src es = none ∧ setC s o v src = none ∧
    setD s o v = none

/-- Every memory of a state is in its canonical form. -/
def memCanonical (s : State) : Bool := s.bankMem.wf && s.stackMem.wf && s.extMem.wf && s.clerkMem.wf

end Sys2Proof.Machine
end

