-- ==== Sys2Proof/Certificates/Slice0/Obligations.lean ====
section
/-! DEFINITION. The statements for the provers: what a step does, what every step keeps, and what each family of commands
does where its domain serves, with what it leaves as it was. -/

open Sys2Proof Sys2Proof.Machine

/-- A step with a command at the front of the queue is that command's effect on the state with the queue's rest. -/
def Obligations.StepTakesFront : Prop :=
  ∀ (s : State) (c : Instr) (rest : List Instr), s.pending = c :: rest →
    step s = exec c { s with pending := rest }

/-- On an empty queue the step serves the oldest request that may leave its domain's edge; where there is none, a tc that is due
passes, or else one nanosecond. A nanosecond moves the copy of PT by 15 to 17 sixteenths (R27, R29), makes tc due at the rate of
the point of tclk, and moves the watchdogs and the trace port; while a stop holds it moves the copy of PT only, since tclk stands
(R366). A tc changes nothing but the counters on a die that is frozen or whose domain FAB is not up; on one with no segment,
header, command or wake on its way, the bits that latch with time (R40) as well. The idle step is the model's own choice
(log 5). -/
def Obligations.StepIdles : Prop :=
  (∀ (s : State) (w : Nat × Option Nat × Instr), s.pending = [] → s.waits.find? (edgeReady s) = some w →
    step s = exec w.2.2 { s with waits := s.waits.erase w }) ∧
  (∀ s : State, s.pending = [] → s.waits.find? (edgeReady s) = none → ∃ t, step s = .next t ∧
    (s.obs.holds = true → t = { s with pt := t.pt }) ∧
    (s.obs.holds = false → s.clk.acc < 20 →
      t = { s with pt := t.pt, clk := { s.clk with acc := s.clk.acc + tcRate s }, ras := t.ras, obs := t.obs, out := t.out }) ∧
    (s.obs.holds = true ∨ s.clk.acc < 20 → s.pt.raw + 15 ≤ t.pt.raw ∧ t.pt.raw ≤ s.pt.raw + 17) ∧
    (s.obs.holds = false → 20 ≤ s.clk.acc →
      (frozen s = true ∨ isUp s dFAB = false →
        t = { s with clk := { s.clk with acc := s.clk.acc - 20, tc := s.clk.tc + 1 }, hw := t.hw, obs := t.obs,
                     ports := t.ports }) ∧
      (s.mesh.flights = [] → s.mesh.hdrs = [] → s.regu.waiting = [] → s.work.pctxs = [] → s.sync.wakes = [] →
        (∀ p ∈ s.ports, p.2.queue = []) →
        t = { s with clk := { s.clk with acc := s.clk.acc - 20, tc := s.clk.tc + 1 }, hw := t.hw,
                     mesh := { s.mesh with tellers := t.mesh.tellers }, sync := { s.sync with waiters := t.sync.waiters },
                     obs := t.obs, ports := t.ports })))

/-- Every command of the block ends in a next state: none stops the machine. -/
def Obligations.EveryCommandGoesOn : Prop := ∀ (c : Instr) (s : State), ∃ t, exec c s = .next t

/-- State.reset: no command waits, no context is bound, the ledger is not sealed, every bank maps to itself (R15),
every frame is free, every flag is 0, no ring is enabled, VAULT_CNT0 counts the reset (R358), nothing is in flight,
every domain is up, and every memory is in its canonical form. That the sequence of R355 has ended and that the
domains are up is the model's choice (log 1). -/
def Obligations.ResetState : Prop :=
  (State.reset.pending = [] ∧ State.reset.waits = [] ∧ (∀ c, (State.reset.ctx c).bound = false) ∧
  isSealedDie State.reset = false ∧ (∀ b, b < 256 → bankPhys State.reset b = b ∧ bankWd State.reset b = false) ∧
  (∀ f, (State.reset.frame f).state = .free) ∧ (∀ f, (State.reset.flag f).value = false) ∧
  (∀ r, r < 1024 → State.reset.rgBit (Reg.cmdrCtl r) 0 = false) ∧ State.reset.rg (Reg.vaultCnt 0) = 1 ∧
  State.reset.mesh.flights = [] ∧ (∀ d, d < 37 → isUp State.reset d = true) ∧ slcBanks State.reset = 0) ∧
  (memCanonical State.reset = true)

/-- A step keeps the canonical form of every memory, whatever command stands at the front of the queue. -/
def Obligations.StepKeepsMemoryCanonical : Prop :=
  ∀ s t : State, memCanonical s = true → step s = .next t → memCanonical t = true

/-- While a reset is asserted nothing but PT, resets and the life cycle's pins changes the die (R353). While a stop
holds every command but those of the units that keep running changes nothing, or waits at the edge of the die as it
came (R362, R366, R369). -/
def Obligations.FrozenDie : Prop :=
  (∀ (s : State) (c : Instr), s.pwr.asserted = true → inReset c = false → exec c s = .next s) ∧
  (∀ (s : State) (c : Instr), s.pwr.asserted = false → s.obs.holds = true → inStop c = false →
    ∃ w : List (Nat × Option Nat × Instr), exec c s = .next { s with waits := s.waits ++ w } ∧
      w.length ≤ 1 ∧ ∀ x ∈ w, x.2.2 = c)

/-- Frozen state is kept exactly (R362): whatever commands arrive while a stop holds, as long as none of them is for a
unit that keeps running, the state after them differs only in the queue and in the requests that wait at the edge,
which stand in the order of arrival. -/
def Obligations.StopKeepsStateExactly : Prop :=
  ∀ (s : State) (l rest : List Instr), s.pwr.asserted = false → s.obs.holds = true → s.pending = l ++ rest →
    (∀ c ∈ l, inStop c = false) →
    ∃ w : List (Nat × Option Nat × Instr), steps l.length s =
        .next { s with pending := rest, waits := s.waits ++ w } ∧
      (w.map (fun x => x.2.2)).Sublist l

/-- Sequences (R34): whatever record a source stamps takes its sequence, which then rises by 1, modulo 256, a dropped
record's too; no other source's sequence changes. Said of the stamp itself and of the records of the event ledger,
event records and the trace records of the sync events that are selected. The clerk's own sequence rises once more
where its record follows another's (a full queue of the clerk, a LOSS record of the trace). -/
def Obligations.SequenceNumbers : Prop :=
  ∀ (s : State) (src : Nat),
    ((takeSeq s src).1 = tget 0 s.evl.seqs src ∧
      tget 0 (takeSeq s src).2.2.evl.seqs src = (tget 0 s.evl.seqs src + 1) % 256 ∧
      ∀ u, u ≠ src → tget 0 (takeSeq s src).2.2.evl.seqs u = tget 0 s.evl.seqs u) ∧
    (∀ (type : Nat) (ctx : Option (Nat × Nat)) (a0 a1 : Nat), s.rgBit Reg.evlCtl 0 = true →
      tget 0 (ledgerSrc s src type ctx a0 a1).evl.seqs src = (tget 0 s.evl.seqs src + 1) % 256 ∧
      ∀ u, u ≠ src → tget 0 (ledgerSrc s src type ctx a0 a1).evl.seqs u = tget 0 s.evl.seqs u) ∧
    (∀ (ctx : Option (Nat × Nat)) (type line a0 a1 : Nat),
      (src ≠ s.srcClerk ∨ s.ras.clerkQ.length < 1024 →
        tget 0 (event s src ctx type line a0 a1).evl.seqs src = (tget 0 s.evl.seqs src + 1) % 256) ∧
      ∀ u, u ≠ src → u ≠ s.srcClerk ∨ s.ras.clerkQ.length < 1024 →
        tget 0 (event s src ctx type line a0 a1).evl.seqs u = tget 0 s.evl.seqs u) ∧
    (∀ op other obj : Nat, s.rgBit Reg.traceCtl 0 = true → s.rgBit Reg.traceCtl (8 + op) = true →
      s.rgBit Reg.traceCtl 31 = false →
      (src ≠ s.srcClerk ∨ s.obs.traceLost = 0 →
        tget 0 (traceEv s src op other obj).evl.seqs src = (tget 0 s.evl.seqs src + 1) % 256) ∧
      ∀ u, u ≠ src → u ≠ s.srcClerk ∨ s.obs.traceLost = 0 →
        tget 0 (traceEv s src op other obj).evl.seqs u = tget 0 s.evl.seqs u)

/-- The marks of PT (R28, R30): the first valid mark loads the marked value, sets LOCKED and writes a PT_STEP record;
a later one steps the copy forward when it is more than 64 ns behind, else the copy slews by the error; beyond 65,536
ns ahead FAULT is set. A valid mark clears HOLDOVER; a second missing pulse in a row or a mark whose check bits fail sets it. A
step of the copy is never backward once LOCKED is set (R29). -/
def Obligations.PtMarks : Prop :=
  (∀ (s : State) (m : Nat), ptRuns s = true → m < 2 ^ 64 → s.rgBit Reg.ptStatus 0 = false →
    ∃ t, exec (.ptSyncMark m) s = .next t ∧ t.pt.raw = 16 * m ∧ t.pt.slew = 0 ∧ t.pt.missing = 0 ∧
      t.rgBit Reg.ptStatus 0 = true ∧ t.rgBit Reg.ptStatus 2 = false ∧
      (s.rgBit Reg.evlCtl 0 = true → s.evl.waiting = [] → s.evl.stampTc ≠ s.clk.tc → s.pt.off = 0 →
        ∃ r, t.evl.waiting = [r] ∧ r.stamp = m ∧ r.src = s.src 167 ∧ r.seq = tget 0 s.evl.seqs (s.src 167) ∧
          r.type = 0x08 ∧ r.unlocked = false ∧ r.ctx = none ∧
          r.arg0 = BitVec.ofNat 64 (toCode ((16 * m : Nat) - (s.pt.raw : Int)) 64) ∧ r.arg1 = 0#64) ∧
      t = { s with pt := t.pt, regs := t.regs, hw := t.hw, evl := t.evl } ∧ RegsBut [Reg.ptStatus, Reg.evlLost] s t) ∧
  (∀ (s : State) (m : Nat), ptRuns s = true → m < 2 ^ 64 → s.rgBit Reg.ptStatus 0 = true → s.pt.raw + 1024 < 16 * m →
    ∃ t, exec (.ptSyncMark m) s = .next t ∧ t.pt.raw = 16 * m ∧ t.pt.slew = 0 ∧
      t.rgBit Reg.ptStatus 1 = true ∧ t.rgBit Reg.ptStatus 2 = false ∧
      t = { s with pt := t.pt, regs := t.regs, hw := t.hw, evl := t.evl } ∧ RegsBut [Reg.ptStatus, Reg.evlLost] s t) ∧
  (∀ (s : State) (m : Nat), ptRuns s = true → m < 2 ^ 64 → s.rgBit Reg.ptStatus 0 = true → 16 * m ≤ s.pt.raw + 1024 →
    ∃ t, exec (.ptSyncMark m) s = .next t ∧ t.pt.raw = s.pt.raw ∧
      t.pt.slew = (16 * m : Nat) - (s.pt.raw : Int) ∧ t.rgBit Reg.ptStatus 2 = false ∧
      (16 * m ≠ s.pt.raw → t.rgBit Reg.ptStatus 4 = true) ∧
      (16 * m + 1048576 < s.pt.raw → t.rgBit Reg.ptStatus 3 = true) ∧
      (s.pt.raw ≤ 16 * m + 1048576 → t = { s with pt := t.pt, regs := t.regs, hw := t.hw } ∧ RegsBut [Reg.ptStatus] s t)) ∧
  (∀ s : State, ptRuns s = true →
    ∃ t, exec (.ptMarkMissing true) s = .next t ∧ t.rgBit Reg.ptStatus 2 = true ∧ t.pt = { s.pt with missing := 0 }) ∧
  (∀ s : State, ptRuns s = true → s.pt.missing = 1 →
    ∃ t, exec (.ptMarkMissing false) s = .next t ∧ t.rgBit Reg.ptStatus 2 = true ∧ t.pt = { s.pt with missing := 2 }) ∧
  (∀ s : State, ptRuns s = true → s.pt.missing ≠ 1 →
    exec (.ptMarkMissing false) s = .next { s with pt := { s.pt with missing := s.pt.missing + 1 } })

/-- The offsets, the probes and the reading of now (R29, R31, R52, R53, R55, R56, R398): SLEWING clears once no error
is left; a write to PT_DIE_OFFSET sets SLEWING and moves nothing of the copy; a LO half waits for its HI half; a GO on
a port that is UP makes the probe busy, and does nothing while it is busy or for another port; its result is the
average of 64 probes, rounded as the free value says (log 4); a read of PT_NOW_LO answers the low half of now and latches
the high half. -/
def Obligations.PtOffsetsAndProbes : Prop :=
  ((∀ s : State, ptRuns s = true → s.pt.slew = 0 → s.pt.off = offTarget s →
    ∃ t, exec .ptSlewEnd s = .next t ∧ t.rgBit Reg.ptStatus 4 = false ∧ OnlyRegs 0 [Reg.ptStatus] s t) ∧
  (∀ (s : State) (v : Word), frozen s = false →
    ∃ t, exec (.ptDieOffsetWrite v) s = .next t ∧ t.rg Reg.ptDieOffset = v.toNat % 2 ^ 24 ∧ t.now = s.now ∧
      (s.pt.off ≠ offTarget t → t.rgBit Reg.ptStatus 4 = true) ∧
      OnlyRegs 0 [Reg.ptDieOffset, Reg.ptStatus] s t) ∧
  (∀ (s : State) (v : Word), frozen s = false →
    ∃ t, exec (.ptEpochOffsetHiWrite v) s = .next t ∧ t.rg Reg.ptEpochOffsetHi = v.toNat ∧
      t.rg Reg.ptEpochOffsetLo = (tget (BitVec.ofNat 32 (s.rg Reg.ptEpochOffsetLo)) s.hiLatch Reg.ptEpochOffsetLo).toNat ∧
      (s.rgBit Reg.evlCtl 0 = true → s.evl.waiting = [] → s.evl.stampTc ≠ s.clk.tc →
        ∃ r, t.evl.waiting = [r] ∧ r.type = 0x0B ∧ r.src = s.src 167 ∧ r.stamp = s.now ∧
          r.arg0 = BitVec.ofNat 64 (t.rg64 Reg.ptEpochOffsetLo Reg.ptEpochOffsetHi)) ∧
      t = { s with regs := t.regs, hiLatch := t.hiLatch, hw := t.hw, evl := t.evl } ∧
      RegsBut [Reg.ptEpochOffsetLo, Reg.ptEpochOffsetHi, Reg.evlLost] s t)) ∧
  ((∀ (s : State) (v : Word), frozen s = false → bit v.toNat 31 = true → s.pt.probe = none →
    linkUp s (bits v.toNat 0 2) = true →
    ∃ t, exec (.ptProbeGo v) s = .next t ∧ t.pt.probe = some (bits v.toNat 0 2) ∧
      t.rg Reg.ptProbeCtl = bits v.toNat 0 2 ∧ RegsBut [Reg.ptProbeCtl] s t ∧
      t = { s with pt := { s.pt with probe := t.pt.probe }, regs := t.regs }) ∧
  (∀ (s : State) (v : Word), frozen s = false → bit v.toNat 31 = true →
    (s.pt.probe.isSome = true ∨ linkUp s (bits v.toNat 0 2) = false) → exec (.ptProbeGo v) s = .next s) ∧
  (∀ (s : State) (p : Nat) (t1 t2 t3 t4 : List Int), frozen s = false → s.pt.probe = some p →
    t1.length = 64 → t2.length = 64 → t3.length = 64 → t4.length = 64 →
    ∃ (t : State) (x y : Int), exec (.ptProbeDone t1 t2 t3 t4) s = .next t ∧ t.pt.probe = none ∧
      t.rg Reg.ptProbeTheta = toCode x 24 ∧ t.rg Reg.ptProbeDelay = toCode y 24 ∧
      (128 * x - ((probeSum t1 - probeSum t2) + (probeSum t4 - probeSum t3))).natAbs < 128 ∧
      (128 * y - ((probeSum t4 - probeSum t1) - (probeSum t3 - probeSum t2))).natAbs < 128 ∧
      RegsBut [Reg.ptProbeTheta, Reg.ptProbeDelay] s t ∧
      t = { s with pt := { s.pt with probe := none }, regs := t.regs, freeCtr := s.freeCtr + 1 }) ∧
  (∀ s : State, frozen s = false →
    ∃ t, exec (.ptNowLoRead Reg.ptNowLo) s = .next t ∧
      t.out = s.out ++ [.reply .ok (BitVec.ofNat 64 (s.now % 2 ^ 32))] ∧
      tget 0#32 t.hiLatch Reg.ptNowHi = BitVec.ofNat 32 (s.now / 2 ^ 32) ∧
      t = { s with hiLatch := t.hiLatch, out := t.out }))

/-- The event ledger (R45 to R48): EN written to 1 with a good set-up starts recording and clears TAIL and HEAD; a bad
set-up sets CFG_ERR and leaves recording off; EN written to 1 again gives the other fields their values; EN written to 0 drops what
waits, counting it for its sources; in WRAP mode the oldest record of a source that lost none takes the next position, with its
lap bit, at BASE + (TAIL mod 2^n) × 32. The last is said of a ledger in STACK space of this die, of a granule that the SLC does
not hold (R49, R238). -/
def Obligations.EventLedger : Prop :=
  (∀ (s : State) (v : Word), frozen s = false → bit v.toNat 0 = true → s.rgBit Reg.evlCtl 0 = false → evlSetupOk s = true →
    ∃ t, exec (.evlEnable v) s = .next t ∧ t.rg Reg.evlCtl = (v.toNat &&& 0xFF06) + 1 ∧ t.rg Reg.evlTail = 0 ∧
      t.rg Reg.evlHead = 0 ∧ OnlyRegs 0 [Reg.evlCtl, Reg.evlTail, Reg.evlHead] s t) ∧
  (∀ (s : State) (v : Word), frozen s = false → bit v.toNat 0 = true → s.rgBit Reg.evlCtl 0 = false → evlSetupOk s = false →
    ∃ t, exec (.evlEnable v) s = .next t ∧ t.rg Reg.evlCtl = v.toNat &&& 0xFF06 ∧ t.rgBit Reg.evlStatus 0 = true ∧
      OnlyRegs 0 [Reg.evlCtl, Reg.evlStatus] s t) ∧
  (∀ (s : State) (v : Word), frozen s = false → bit v.toNat 0 = true → s.rgBit Reg.evlCtl 0 = true →
    ∃ t, exec (.evlEnable v) s = .next t ∧ t.rg Reg.evlCtl = (v.toNat &&& 0xFF06) + 1 ∧ OnlyRegs 0 [Reg.evlCtl] s t) ∧
  (∀ (s : State) (v : Word), frozen s = false → bit v.toNat 0 = false →
    ∃ t, exec (.evlDisable v) s = .next t ∧ t.rg Reg.evlCtl = v.toNat &&& 0xFF06 ∧ t.evl.waiting = [] ∧
      t.rg Reg.evlLost = min (s.rg Reg.evlLost + s.evl.waiting.length) 0xFFFFFFFF ∧
      (∀ u, tget 0 t.evl.lost u = tget 0 s.evl.lost u + evlWaiting s u) ∧
      t = { s with regs := t.regs, hw := t.hw, evl := t.evl } ∧ RegsBut [Reg.evlCtl, Reg.evlLost] s t) ∧
  (∀ (s : State) (u a : Nat) (r : LedgerRec) (l : List LedgerRec), frozen s = false → s.rgBit Reg.evlCtl 0 = true →
    s.rgBit Reg.evlCtl 1 = false → s.evl.waiting = r :: l → r.src = u → tget 0 s.evl.lost u = 0 →
    a = s.rg64 Reg.evlBaseLo Reg.evlBaseHi + s.rg Reg.evlTail % 2 ^ s.rg Reg.evlSize * 32 →
    a < 2 ^ 55 → ppaDie a = s.pwr.dieId → ppaSpace a = 8 → framePresent s (ppaOff a / 2 ^ 21) = true →
    (s.frame (ppaOff a / 2 ^ 21)).state ∈ [.free, .mapped, .unmapping, .retiring] → tfind s.slc.lines (a / 128) = none →
    ∃ t, exec (.evlRecordPlace u) s = .next t ∧ t.evl.waiting = l ∧ t.rg Reg.evlTail = (s.rg Reg.evlTail + 1) % 2 ^ 32 ∧
      t.stackMem = s.stackMem.writeN (ppaOff a) (recBytes r.stamp r.src r.seq r.type (b2n r.unlocked)
        (s.rg Reg.evlTail / 2 ^ s.rg Reg.evlSize % 2) r.ctx r.arg0 r.arg1) ∧
      t = { s with regs := t.regs, evl := { s.evl with waiting := l }, stackMem := t.stackMem } ∧
      RegsBut [Reg.evlTail] s t)

/-- Sealing (R68): with every valid segment good, a write of 1 seals the die and sets the OK bit of PROT_STATUS; with
a bad one nothing is sealed and PROT_STATUS names the lowest domain and segment; a sealed die ignores the write. -/
def Obligations.ProtectionSeal : Prop :=
  (∀ (s : State) (v : Word), Live s dFAB → bit v.toNat 0 = true → isSealedDie s = false → sealFailures s = [] →
    ∃ t, exec (.protSealWrite v) s = .next t ∧ isSealedDie t = true ∧ t.rgBit Reg.protStatus 0 = true ∧
      OnlyRegs dFAB [Reg.protSeal, Reg.protStatus] s t) ∧
  (∀ (s : State) (v : Word) (d g : Nat) (l : List (Nat × Nat)), Live s dFAB → bit v.toNat 0 = true →
    isSealedDie s = false → sealFailures s = (d, g) :: l →
    ∃ t, exec (.protSealWrite v) s = .next t ∧ isSealedDie t = false ∧
      t.rg Reg.protStatus = 2 + 16 * g + 256 * d ∧ OnlyRegs dFAB [Reg.protStatus] s t) ∧
  (∀ (s : State) (v : Word), Live s dFAB → isSealedDie s = true → exec (.protSealWrite v) s = .next (touch s dFAB))

/-- The order of a translation's checks and the tally walk (R69, R77, R78, R83), while no word of the table store shows an error
(R309): no bound context or no segment that holds the address is FAULT_XLATE; a segment that does not permit the access is
FAULT_PROT; a BANK segment gives a BANK-space PPA at TARGET + (CVA − BASE), which the checks of the space then pass or fail; a walk
brings the frame found on the key's chain into the node's tally cache with its permissions and its group's mode; a key on no chain
brings nothing, nor does a key that the cache holds; LEDGER_MAXCHAIN alone of the registers may rise. -/
def Obligations.Translation : Prop :=
  (∀ (s : State) (src node c cva n : Nat) (acc : Acc), s.tableMark = [] →
    ((40960 ≤ c ∨ (s.ctx c).bound = false) → translate s src node c cva n acc = (.err .faultXlate, s)) ∧
    (c < 40960 → (s.ctx c).bound = true →
      (findSeg s (s.ctx c).domain cva = none → translate s src node c cva n acc = (.err .faultXlate, s)) ∧
      (∀ g, findSeg s (s.ctx c).domain cva = some g →
        (segV s (s.ctx c).domain g = true ∧ segBase s (s.ctx c).domain g ≤ cva ∧
          cva < segLimit s (s.ctx c).domain g) ∧
        (segPermits s (s.ctx c).domain g acc = false → translate s src node c cva n acc = (.err .faultProt, s)) ∧
        (segPermits s (s.ctx c).domain g acc = true → segKind s (s.ctx c).domain g = 0 →
          ∀ a, a = diePPA s.pwr.dieId (segSpc s (s.ctx c).domain g)
              (segTarget s (s.ctx c).domain g + (cva - segBase s (s.ctx c).domain g)) →
            (checkPPA s a n acc (ctxMark s c) = .ok →
              translate s src node c cva n acc = (.ok a (segNC s (s.ctx c).domain g), s)) ∧
            (∀ st, checkPPA s a n acc (ctxMark s c) = st → st ≠ .ok →
              translate s src node c cva n acc = (.err st, s)))))) ∧
  ((∀ (s : State) (node asid vpn f : Nat), Live s dFAB → s.tableMark = [] → tallyLook s node asid vpn = none →
    keyFrame s asid vpn = some f →
    ∃ t, exec (.tallyWalkDone node asid vpn) s = .next t ∧
      ({ node := node, asid := asid, vpn := vpn, frame := f, w := (s.frame f).w, a := (s.frame f).a,
         mode := frameMode s f } : Tally) ∈ t.xl.tally ∧
      (s.frame f).asid = asid ∧ (s.frame f).vpn = vpn ∧ t.xl.frames = s.xl.frames ∧ t.xl.buckets = s.xl.buckets ∧
      RegsBut [Reg.ledgerMaxchain] s t ∧
      t = { touch s dFAB with regs := t.regs, hw := t.hw, xl := t.xl, freeCtr := t.freeCtr }) ∧
  (∀ (s : State) (node asid vpn : Nat), Live s dFAB → s.tableMark = [] → tallyLook s node asid vpn = none →
    keyFrame s asid vpn = none →
    ∃ t, exec (.tallyWalkDone node asid vpn) s = .next t ∧ RegsBut [Reg.ledgerMaxchain] s t ∧
      t = { touch s dFAB with regs := t.regs, hw := t.hw,
                              xl := { s.xl with walkTc := s.clk.tc, walks := t.xl.walks } }) ∧
  (∀ (s : State) (node asid vpn : Nat) (e : Tally), Live s dFAB → tallyLook s node asid vpn = some e →
    exec (.tallyWalkDone node asid vpn) s = .next (touch s dFAB)))

/-- CTX_BIND and CTX_UNBIND (R65, R66), while no word of the table store shows an error (R309): a good image binds the context with
the image's fields, clears its flag window and ends the command with OK; a bad one leaves every context and ends the command with
FAULT_PROT; an unbind marks the context, so that no more of its requests are accepted, and one of a context that is not bound, or
whose unbind runs, ends with FAULT_PROT; its finish, with none of its commands and port requests left, frees the context, clears
its window and ends the unbind's command with OK; before that it does nothing. -/
def Obligations.ContextBinding : Prop :=
  (∀ (s : State) (r k : Nat) (x : PCtx) (u w v : State) (l : List Byte), Live s dFAB → Begins s r 0x0C anyDesc k x u →
    dCtxV x.desc = true → Issues bindEff u k x w →
    readSpan w { m := k / 8, rq := pctxRq w k { x with wait := none }, ctx := none } false (dSrc x.desc) 32 = (v, none, l) →
    bindOk v (dCtx x.desc) (ctxOfImage l) = true → v.tableMark = [] → Active v k →
    ∃ t, exec (.ctxBind r) s = .next t ∧ t.ctx (dCtx x.desc) = { ctxOfImage l with bound := true } ∧
      ctxLive t (dCtx x.desc) = true ∧
      (∀ j, j < (ctxOfImage l).flagCount → (t.flag ((ctxOfImage l).flagBase + j)).value = false) ∧
      (∀ d, d ≠ dCtx x.desc → t.ctx d = v.ctx d) ∧ DoneOk t k) ∧
  (∀ (s : State) (r k : Nat) (x : PCtx) (u w v : State) (l : List Byte), Live s dFAB → Begins s r 0x0C anyDesc k x u →
    dCtxV x.desc = true → Issues bindEff u k x w →
    readSpan w { m := k / 8, rq := pctxRq w k { x with wait := none }, ctx := none } false (dSrc x.desc) 32 = (v, none, l) →
    bindOk v (dCtx x.desc) (ctxOfImage l) = false → Active v k →
    ∃ t, exec (.ctxBind r) s = .next t ∧ t.ctxs = v.ctxs ∧ DoneWith t k .faultProt) ∧
  (∀ (s : State) (r k : Nat) (x : PCtx) (u : State), Live s dFAB → Begins s r 0x0D anyDesc k x u →
    dCtxV x.desc = true → (u.ctx (dCtx x.desc)).bound = true → (u.ctx (dCtx x.desc)).unbinding = false →
    ∃ t, exec (.ctxUnbind r) s = .next t ∧ t.ctx (dCtx x.desc) = { u.ctx (dCtx x.desc) with unbinding := true } ∧
      ctxLive t (dCtx x.desc) = false ∧ (∀ d, d ≠ dCtx x.desc → t.ctx d = u.ctx d)) ∧
  (∀ (s : State) (r k : Nat) (x : PCtx) (u : State), Live s dFAB → Begins s r 0x0D anyDesc k x u →
    dCtxV x.desc = true → ((u.ctx (dCtx x.desc)).bound = false ∨ (u.ctx (dCtx x.desc)).unbinding = true) → x.status = none →
    ∃ t, exec (.ctxUnbind r) s = .next t ∧ t.ctxs = u.ctxs ∧ DoneWith t k .faultProt) ∧
  (∀ (s : State) (c : Nat) (e : Nat × PCtx), Live s dFAB → s.tableMark = [] → ctxBusy s c = false →
    s.work.pctxs.find? (fun e => e.2.unbindOf == some c && !e.2.done) = some e → s.pctx e.1 = some e.2 → Active s e.1 →
    ∃ t, exec (.ctxUnbindFinish c) s = .next t ∧ t.ctx c = { s.ctx c with bound := false, unbinding := false } ∧
      (∀ j, j < (s.ctx c).flagCount → (t.flag ((s.ctx c).flagBase + j)).value = false) ∧
      (∀ d, d ≠ c → t.ctx d = s.ctx d) ∧ DoneOk t e.1) ∧
  (∀ (s : State) (c : Nat), Live s dFAB → ctxBusy s c = true → exec (.ctxUnbindFinish c) s = .next s)

/-- FRAME_MAP (R71, R80, R82), while no word of the table store shows an error (R309): a map that meets no operation that waits and
passes its checks makes every frame of its range MAPPED under its key with its permissions, gives every group of the range its
mode, and ends its command with OK, the first key's chain finding its frame; one that fails a check ends with FAULT_PROT and
leaves the ledger; one whose old frame is unmapping waits in the table unit; one of mode only gives the groups their mode and
leaves the frame entries; a map that waited is performed once nothing it waits for is left; a group's mode switch that waited
takes place once no earlier access is on its way. -/
def Obligations.FrameMapping : Prop :=
  (∀ (s : State) (r k : Nat) (x : PCtx) (u : State) (o : MapOp), Live s dFAB →
    Begins s r 0x0E (fun d => !bit (dAux0 d) 27) k x u → o = dMapOp x.desc k → u.tableMark = [] → u.xl.waitMaps = [] →
    opWaits u o [] = false → mapOk u o = true → x.status = none →
    ∃ t, exec (.frameMap r) s = .next t ∧
      (∀ i, i < o.count →
        ∃ f, t.frame (o.first + i) = f ∧ f.state = .mapped ∧ f.linked = true ∧ f.asid = o.asid ∧ f.vpn = o.vpn + i ∧
          f.w = o.w ∧ f.a = o.a) ∧
      (o.count = 1 → keyFrame t o.asid o.vpn = some o.first) ∧
      (∀ g ∈ opGroups o, frameMode t (64 * g) = o.mode) ∧
      (∀ f, f < o.first ∨ o.first + o.count ≤ f → (t.frame f).state = (u.frame f).state) ∧ DoneOk t k) ∧
  (∀ (s : State) (r k : Nat) (x : PCtx) (u : State) (o : MapOp), Live s dFAB →
    Begins s r 0x0E (fun d => !bit (dAux0 d) 27) k x u → o = dMapOp x.desc k → u.tableMark = [] → u.xl.waitMaps = [] →
    opWaits u o [] = false → mapOk u o = false → x.status = none →
    ∃ t, exec (.frameMap r) s = .next t ∧ t.xl = u.xl ∧ DoneWith t k .faultProt) ∧
  (∀ (s : State) (r k : Nat) (x : PCtx) (u : State) (o : MapOp), Live s dFAB →
    Begins s r 0x0E (fun d => !bit (dAux0 d) 27) k x u → o = dMapOp x.desc k → u.xl.waitMaps = [] →
    opWaits u o [] = true →
    ∃ t, exec (.frameMap r) s = .next t ∧ t.xl.waitMaps = [(u.xl.nextKey, o)] ∧ t.xl.frames = u.xl.frames ∧
      t.pctx k = some x) ∧
  (∀ (s : State) (r k : Nat) (x : PCtx) (u : State) (o : MapOp), Live s dFAB →
    Begins s r 0x0E (fun d => bit (dAux0 d) 27) k x u → o = dMapOp x.desc k → u.tableMark = [] → u.xl.waitMaps = [] →
    mapOk u o = true → x.status = none →
    ∃ t, exec (.frameMapModeOnly r) s = .next t ∧ t.xl.frames = u.xl.frames ∧ t.xl.buckets = u.xl.buckets ∧
      (∀ g ∈ opGroups o, frameMode t (64 * g) = o.mode) ∧ DoneOk t k) ∧
  (∀ (s : State) (key : Nat) (o : MapOp), Live s dFAB → s.tableMark = [] → tfind s.xl.waitMaps key = some o →
    o.unmap = false → opWaits s o ((s.xl.waitMaps.filter (fun e => decide (e.1 < key))).map (·.2)) = false →
    mapOk s o = true → o.modeOnly = false → o.count = 1 → Active s o.owner →
    ∃ t, exec (.frameMapDeferred key) s = .next t ∧ tfind t.xl.waitMaps key = none ∧
      (t.frame o.first).state = .mapped ∧ keyFrame t o.asid o.vpn = some o.first ∧ DoneOk t o.owner) ∧
  (∀ (s : State) (g m : Nat), Live s dFAB → tfind s.xl.modeSwitch g = some m → groupBusy s g = false → m < 4 →
    ∃ t, exec (.groupModeSwitch g) s = .next t ∧ frameMode t (64 * g) = m ∧ tfind t.xl.modeSwitch g = none ∧
      RegsBut [Reg.fgrpMode (g / 16)] s t ∧ SameMem s t ∧ t = { s with regs := t.regs, xl := t.xl }) ∧
  (∀ (s : State) (g m : Nat), Live s dFAB → tfind s.xl.modeSwitch g = some m → groupBusy s g = true →
    exec (.groupModeSwitch g) s = .next s)

/-- FRAME_UNMAP and its shootdowns (R81), while no word of the table store shows an error (R309): an unmap that passes takes every
frame of its range off its chain, every MAPPED one to UNMAPPING, and asks all 32 tally caches for each, its command running on;
one that does not pass ends with FAULT_PROT and leaves the ledger; an acknowledgement removes the node's tally entry; the last one
of a single mapped frame makes it FREE and ends the command; while one is missing the frames stay. -/
def Obligations.FrameUnmapping : Prop :=
  (∀ (s : State) (r k : Nat) (x : PCtx) (u : State) (o : MapOp), Live s dFAB → Begins s r 0x0F anyDesc k x u →
    o = dMapOp x.desc k → u.tableMark = [] → u.xl.waitMaps = [] → unmapOk u o = true →
    ∃ t hs, exec (.frameUnmap r) s = .next t ∧ t.xl.shoots = u.xl.shoots ++ hs ∧ hs.map (fun h => h.frame) = opFrames o ∧
      (∀ h ∈ hs, h.nodes = List.range 32 ∧ h.owner = some k ∧ h.retire = false ∧ h.asid = (u.frame h.frame).asid ∧
        h.vpn = (u.frame h.frame).vpn) ∧
      (∀ i, i < o.count → (t.frame (o.first + i)).linked = false ∧ (t.frame (o.first + i)).state =
        if (u.frame (o.first + i)).state = .mapped then .unmapping else (u.frame (o.first + i)).state) ∧
      t.pctx k = some x) ∧
  (∀ (s : State) (r k : Nat) (x : PCtx) (u : State) (o : MapOp), Live s dFAB → Begins s r 0x0F anyDesc k x u →
    o = dMapOp x.desc k → u.tableMark = [] → u.xl.waitMaps = [] → unmapOk u o = false → x.status = none →
    ∃ t, exec (.frameUnmap r) s = .next t ∧ t.xl = u.xl ∧ DoneWith t k .faultProt) ∧
  (∀ (s : State) (node key : Nat) (h : Shoot), Live s dFAB → s.xl.shoots = [h] → h.key = key → h.nodes = [node] →
    frameBusy s node h.frame = false → h.retire = false → (s.frame h.frame).state = .unmapping →
    (s.frame h.frame).failing = false →
    ∃ t, exec (.shootdownAck node key) s = .next t ∧ (t.frame h.frame).state = .free ∧ t.xl.shoots = [] ∧
      (∀ e ∈ t.xl.tally, ¬ (e.node = node ∧ e.asid = h.asid ∧ e.vpn = h.vpn ∧ e.frame = h.frame)) ∧
      (∀ k, h.owner = some k → Active s k → DoneOk t k)) ∧
  (∀ (s : State) (node other key : Nat) (h : Shoot), Live s dFAB → s.xl.shoots = [h] → h.key = key →
    node ∈ h.nodes → other ∈ h.nodes → other ≠ node → frameBusy s node h.frame = false →
    ∃ t g, exec (.shootdownAck node key) s = .next t ∧ t.xl.shoots = [g] ∧ g.nodes = delMem node h.nodes ∧
      t.xl.frames = s.xl.frames ∧
      (∀ e ∈ t.xl.tally, ¬ (e.node = node ∧ e.asid = h.asid ∧ e.vpn = h.vpn ∧ e.frame = h.frame)) ∧
      t = { s with xl := t.xl }) ∧
  (∀ (s : State) (node key : Nat) (h : Shoot), Live s dFAB → s.xl.shoots = [h] → h.key = key → node ∈ h.nodes →
    frameBusy s node h.frame = true →
    ∃ t, exec (.shootdownAck node key) s = .next t ∧ t = { s with xl := { s.xl with tally := t.xl.tally } } ∧
      (∀ e ∈ t.xl.tally, ¬ (e.node = node ∧ e.asid = h.asid ∧ e.vpn = h.vpn ∧ e.frame = h.frame)))

/-- One tc of a teller (R85, R86, R89): an owner's read of a bank turned to its owner is answered in that tc with the bank's
granule; an owner request against a bank turned to an entry costs a turn to the owner, preempts the active entry and accesses
nothing; with no request the active entry's next granule is read when the bank is turned to it, and else the bank turns to it;
the write half of an alias comes before all; after a tc that neither accesses nor turns, the bank is parked on the owner; a teller
decides once in a tc, and a bank that is not in its run state serves nothing. -/
def Obligations.TellerDecides : Prop :=
  (∀ (s : State) (b : Nat) (q : OwnerReq), TellerTurn s b → bankSlc s b = false → (s.teller b).half = none →
    holderNow s b = .owner → q.kind = .read → ownerSt s b q = .ok → s.taking = none →
    (bankRead s b (q.row % 16384 * 128) 128).ue = 0 → (bankRead s b (q.row % 16384 * 128) 128).ce = 0 →
    ∃ t, exec (.tellerGrant b [q]) s = .next t ∧
      t.out = s.out ++ [.owner b q.src .ok (granuleOf (bankRead s b (q.row % 16384 * 128) 128).data)] ∧
      (t.teller b).holder = .owner ∧ (t.teller b).busy = some s.clk.tc ∧ SameMem s t ∧ t.regs = s.regs ∧
      t.mesh.flights = s.mesh.flights) ∧
  (∀ (s : State) (b id : Nat) (q : OwnerReq), TellerTurn s b → bankSlc s b = false → (s.teller b).half = none →
    holderNow s b = .entry id →
    ∃ t, exec (.tellerGrant b [q]) s = .next t ∧ t.out = s.out ∧ (t.teller b).holder = .owner ∧
      (t.teller b).busy = some s.clk.tc ∧ (∀ e ∈ (t.teller b).entries, e.state ≠ .active) ∧
      (t.teller b).entries.map (·.id) = (s.teller b).entries.map (·.id) ∧ SameMem s t ∧ t.regs = s.regs ∧
      t.mesh.flights = s.mesh.flights) ∧
  (∀ (s : State) (b : Nat) (e : TEntry) (x : Flight), TellerTurn s b → (s.teller b).half = none →
    (s.teller b).entries = [e] → e.state = .active → holderNow s b = .entry e.id → s.flight e.id = some x →
    x.seg.kind = .read → x.sent < nth 0 x.pos 0 + 2 → e.progress + 1 < x.seg.count →
    ∃ t y, exec (.tellerGrant b []) s = .next t ∧ t.flight e.id = some y ∧ y.sent = x.sent + 1 ∧
      y.seg.data = x.seg.data ++
        [(granuleOf (bankRead s b (ppaOff (segGranule x.seg e.progress) % 2 ^ 21) 128).data, 0#128)] ∧
      (t.teller b).entries.map (·.progress) = [e.progress + 1] ∧ (t.teller b).holder = .entry e.id ∧ t.out = s.out ∧
      SameMem s t ∧ t.regs = s.regs) ∧
  (∀ (s : State) (b : Nat) (e : TEntry) (x : Flight), TellerTurn s b → (s.teller b).half = none →
    (s.teller b).entries = [e] → e.state = .active → holderNow s b ≠ .entry e.id → s.flight e.id = some x →
    x.seg.kind = .read → x.sent < nth 0 x.pos 0 + 2 →
    ∃ t, exec (.tellerGrant b []) s = .next t ∧ (t.teller b).holder = .entry e.id ∧ (t.teller b).busy = some s.clk.tc ∧
      (t.teller b).entries.map (·.progress) = [e.progress] ∧ t.mesh.flights = s.mesh.flights ∧ t.out = s.out ∧
      SameMem s t ∧ t.regs = s.regs) ∧
  (∀ (s : State) (b : Nat) (h : AliasHalf) (reqs : List OwnerReq), TellerTurn s b → (s.teller b).half = some h →
    h.ue = false → h.done = false → h.entry = none → s.bankMark = [] → s.ras.copy = none →
    ∃ t, exec (.tellerGrant b reqs) s = .next t ∧ (t.teller b).half = none ∧
      t.out = s.out ++ [.owner b h.src .ok 0#1024] ∧
      t.bankMem = s.bankMem.writeE (bankAddr (bankPhys s b) h.addr) (granuleWBytes h.value (BitVec.allOnes 128)) ∧
      t.stackMem = s.stackMem ∧ t.extMem = s.extMem ∧ t.clerkMem = s.clerkMem) ∧
  (∀ (s : State) (b : Nat), TellerTurn s b → (s.teller b).half = none → (s.teller b).entries = [] →
    (∀ k, (s.teller b).busy = some k → k < s.clk.tc) →
    ∃ t, exec (.tellerGrant b []) s = .next t ∧ (t.teller b).busy = (s.teller b).busy ∧
      holderNow { t with clk := { t.clk with tc := t.clk.tc + 1 } } b = parkSide s b ∧ t.out = s.out ∧ SameMem s t ∧
      t.regs = s.regs) ∧
  (∀ (s : State) (b : Nat) (reqs : List OwnerReq), b < 256 → Live s (dHome (b / 8)) →
    ((s.teller b).acted = some s.clk.tc ∨ bankRun s b ≠ 0) →
    exec (.tellerGrant b reqs) s = .next (touch s (dHome (b / 8))))

/-- Headers, calls and look-ahead (R87, R94, R97 to R99): of the headers before a teller the first-ranked is accepted where an entry
is free, one in a tc; one that finds 16 taken is refused; a refused source waits 2^k tc, and k rises to at most 6, while an urgent one
presents its header again at once; its wait over, the header is presented again; a look-ahead turns an idle bank to its entry; a
call opens its segment, whose source offers its next granule, and the first answer to a header clears the source's back-off. -/
def Obligations.TellerQueue : Prop :=
  (∀ (s : State) (b : Nat) (h : Hdr) (x : Flight), b < 256 → Live s (dHome (b / 8)) → bankSt s b true = .ok →
    firstRanked (fun p => hdrRank s p.1) (headersAt s b) = some (h, x) → entriesTaken s b < 16 →
    (s.teller b).headTc ≠ some s.clk.tc → x.seg.id = h.id →
    ∃ t e, exec (.tellerHeader (b / 8) (b % 8)) s = .next t ∧ (t.teller b).entries = (s.teller b).entries ++ [e] ∧
      e.id = h.id ∧ e.state = .waiting ∧ e.progress = 0 ∧ (t.teller b).headTc = some s.clk.tc ∧
      t.flight h.id = some { x with state := .accepted } ∧ hdrHere t .request h.id = none ∧ SameMem s t) ∧
  (∀ (s : State) (b : Nat), b < 256 → Live s (dHome (b / 8)) → bankSt s b true = .ok → entriesTaken s b < 16 →
    (s.teller b).headTc = some s.clk.tc → exec (.tellerHeader (b / 8) (b % 8)) s = .next (touch s (dHome (b / 8)))) ∧
  (∀ (s : State) (b : Nat) (h : Hdr) (x : Flight), b < 256 → Live s (dHome (b / 8)) → bankSt s b true = .ok →
    headersAt s b = [(h, x)] → 16 ≤ entriesTaken s b → x.seg.id = h.id →
    ∃ t, exec (.tellerHeader (b / 8) (b % 8)) s = .next t ∧ t.teller b = s.teller b ∧
      t.flight h.id = some { x with state := .refused } ∧
      (∃ g ∈ t.mesh.hdrs, g.kind = .refusal ∧ g.id = h.id ∧ g.dest = srcNode s x.seg) ∧
      (∀ g ∈ t.mesh.hdrs, ¬ (g.kind = .request ∧ g.id = h.id)) ∧ SameMem s t) ∧
  (∀ (s : State) (id : Nat) (x : Flight) (g : Hdr), Live s dFAB → s.flight id = some x →
    hdrHere s .refusal id = some g → urgent s x = false →
    ∃ t, exec (.refusalReceive id) s = .next t ∧
      t.flight id = some { x with state := .backoff, retryAt := s.clk.tc + 2 ^ backoffOf s x.seg.src } ∧
      backoffOf t x.seg.src = min (backoffOf s x.seg.src + 1) 6 ∧
      t = { s with mesh := { s.mesh with flights := t.mesh.flights, backoff := t.mesh.backoff, hdrs := t.mesh.hdrs } }) ∧
  (∀ (s : State) (id : Nat) (x : Flight) (g : Hdr), Live s dFAB → s.flight id = some x → x.seg.id = id →
    hdrHere s .refusal id = some g → urgent s x = true →
    ∃ t, exec (.refusalReceive id) s = .next t ∧
      t.flight id = some { x with state := .header, retryAt := s.clk.tc + 1 } ∧
      (∃ g ∈ t.mesh.hdrs, g.kind = .request ∧ g.id = id ∧ g.dest = flightNode s x) ∧
      t.mesh.backoff = s.mesh.backoff) ∧
  (∀ (s : State) (id : Nat) (x : Flight), Live s dFAB → s.flight id = some x → x.seg.id = id → x.state = .backoff →
    x.retryAt ≤ s.clk.tc →
    ∃ t, exec (.backoffExpire id) s = .next t ∧
      t.flight id = some { x with state := .header, retryAt := s.clk.tc + 1 } ∧
      (∃ g ∈ t.mesh.hdrs, g.kind = .request ∧ g.id = id ∧ g.dest = flightNode s x) ∧
      t = { s with mesh := { s.mesh with flights := t.mesh.flights, hdrs := t.mesh.hdrs, order := t.mesh.order } }) ∧
  (∀ (s : State) (id : Nat) (x : Flight), Live s dFAB → s.flight id = some x →
    (x.state ≠ .backoff ∨ s.clk.tc < x.retryAt) → exec (.backoffExpire id) s = .next s) ∧
  (∀ (s : State) (b id : Nat) (x : Flight), b < 256 → Live s (dHome (b / 8)) → s.flight id = some x →
    x.path = 0 → bankOf x.seg = b → ownerSeg s x.seg = false → (s.teller b).busy ≠ some s.clk.tc →
    (x.state = .header ∨ x.state = .called ∨ x.state = .sending) →
    ∃ t, exec (.lookAhead b id) s = .next t ∧ (t.teller b).holder = .entry id ∧ (t.teller b).busy = some s.clk.tc ∧
      (t.teller b).entries = (s.teller b).entries ∧ SameMem s t ∧ t.mesh.flights = s.mesh.flights) ∧
  (∀ (s : State) (b id : Nat) (x : Flight), b < 256 → Live s (dHome (b / 8)) → s.flight id = some x →
    (s.teller b).busy = some s.clk.tc → exec (.lookAhead b id) s = .next (touch s (dHome (b / 8)))) ∧
  (∀ (s : State) (id : Nat) (x : Flight) (g : Hdr), Live s dFAB → s.flight id = some x →
    hdrHere s .call id = some g →
    ∃ t y, exec (.callReceive id) s = .next t ∧ t.flight id = some y ∧ y.state = .sending ∧ y.answered = true ∧
      y.sent = max x.sent (min (x.sent + 1) (offerTo s x)) ∧
      (x.answered = false → x.path < 2 → backoffOf t x.seg.src = 0) ∧ hdrHere t .call id = none ∧
      t = { s with mesh := { s.mesh with flights := t.mesh.flights, backoff := t.mesh.backoff, hdrs := t.mesh.hdrs } })

/-- A segment from its issue to its end (R96, R97, R110, R116, R200): one of good shape that passes its checks and its issue point is
in flight, on the way as a header, or, as a write toward another die or the far tier, with its first granule; one that the issue
point keeps is not, and waits there; one of a quarantined unit ends at once with QUARANTINED; one that fails its check ends with that
status; a write granule that its way brought is counted at its sink; the last read granule and the acknowledgement end the segment at
its source with its status, its tags free again. The answers are said of sources of this die. -/
def Obligations.SegmentLife : Prop :=
  (∀ (s u v : State) (g : Segment), Live s dFAB → u = touch s dFAB → u.flight g.id = none → segShape g = true →
    (ownerSeg u g = true → g.count = 1) → quarantined u (entryUnit u g) = false → segPath u g = none →
    checkPPA u (segCheckAt u g) 128 (if segReads g then .read else .write) (issued u g).sealedMark = .ok →
    nodeClash u (issued u g) = false → issueGate u (.seg (issued u g)) (segIssue u (issued u g)) = (v, true) →
    ∃ t x, exec (.segmentIssue g) s = .next t ∧ t.flight g.id = some x ∧ x.seg = issued u g ∧ x.state = .header ∧
      x.path = 0 ∧ x.sent = 0 ∧ x.arrived = 0 ∧ x.back = 0 ∧ x.tags = 0 ∧ x.rails = [] ∧
      (∃ h ∈ t.mesh.hdrs, h.kind = .request ∧ h.id = g.id ∧ h.node = srcNode v g) ∧ SameMem s t ∧ t.out = s.out) ∧
  (∀ (s u v : State) (g : Segment) (p : Nat), Live s dFAB → u = touch s dFAB → u.flight g.id = none →
    segShape g = true → segBank u g = false → quarantined u (entryUnit u g) = false → segPath u g = some p →
    (p = 0 ∨ portQuar u (extPort u g.target) = false) →
    checkPPA u (segGranule g 0) 128 (if segReads g then .read else .write) (issued u g).sealedMark = .ok →
    nodeClash u (issued u g) = false → issueGate u (.seg (issued u g)) (segIssue u (issued u g)) = (v, true) →
    ∃ t x, exec (.segmentIssue g) s = .next t ∧ t.flight g.id = some x ∧ x.seg = issued u g ∧
      x.state = (if 1 ≤ p ∧ segReads g = false then .sending else .header) ∧ x.path = p + 1 ∧ x.arrived = 0 ∧
      x.tags = (g.count + 3) / 4 ∧ x.rails = [] ∧ SameMem s t ∧ t.out = s.out) ∧
  (∀ (s u v : State) (g : Segment), Live s dFAB → u = touch s dFAB → u.flight g.id = none → segShape g = true →
    (ownerSeg u g = true → g.count = 1) → quarantined u (entryUnit u g) = false → segPath u g = none →
    checkPPA u (segCheckAt u g) 128 (if segReads g then .read else .write) (issued u g).sealedMark = .ok →
    nodeClash u (issued u g) = false → issueGate u (.seg (issued u g)) (segIssue u (issued u g)) = (v, false) →
    exec (.segmentIssue g) s = .next v ∧ v.mesh = s.mesh ∧ v.out = s.out ∧ SameMem s v ∧
      ∃ w ∈ v.regu.waiting, w.who = .seg (issued u g)) ∧
  (∀ (s : State) (g : Segment), Live s dFAB → s.flight g.id = none → segShape g = true → OwnSource s g.src →
    (ownerSeg s g = true → g.count = 1) → quarantined s (entryUnit s g) = true →
    ∃ t, exec (.segmentIssue g) s = .next t ∧ t.out = s.out ++ [.segment g.id true .quarantined 0#1024] ∧
      t.mesh = s.mesh ∧ SameMem s t) ∧
  (∀ (s u : State) (g : Segment) (st : Status), Live s dFAB → u = touch s dFAB → s.flight g.id = none →
    segShape g = true → OwnSource s g.src → (ownerSeg s g = true → g.count = 1) → quarantined s (entryUnit s g) = false →
    st ≠ .ok →
    checkPPA u (segCheckAt u g) 128 (if segReads g then .read else .write) (issued u g).sealedMark = st →
    ∃ t, exec (.segmentIssue g) s = .next t ∧ t.out = s.out ++ [.segment g.id true st 0#1024] ∧ t.mesh = s.mesh ∧
      SameMem s t) ∧
  (∀ (s : State) (id : Nat) (x : Flight), s.flight id = some x → x.seg.id = id → x.path ≤ 1 →
    Live s (sinkDom s id) → segReads x.seg = false → x.state = .sending → x.arrived < x.seg.count →
    sinkReady s x = true → sinkRoom s x = true → (x.path = 0 ∨ x.arrived + 1 < x.seg.count) →
    ∃ t, exec (.segmentGranuleArrive id) s = .next t ∧
      t.flight id = some { x with arrived := x.arrived + 1, sunk := some s.clk.tc } ∧ SameMem s t ∧ t.out = s.out) ∧
  (∀ (s : State) (id : Nat) (x : Flight), Live s dFAB → s.flight id = some x → x.seg.id = id → OwnSource s x.seg.src →
    dataReady s x = true → x.back + 1 < x.seg.count → x.ans = [] →
    ∃ t, exec (.readDataArrive id) s = .next t ∧
      t.out = s.out ++ [.segment id false .ok (nth (0#1024, 0#128) x.seg.data x.back).1] ∧
      t.flight id = some { x with back := x.back + 1, sunk := some s.clk.tc, answered := true } ∧
      (x.answered = false → x.path < 2 → backoffOf t x.seg.src = 0) ∧ SameMem s t) ∧
  (∀ (s : State) (id : Nat) (x : Flight), Live s dFAB → s.flight id = some x → x.seg.id = id → OwnSource s x.seg.src →
    dataReady s x = true → x.back + 1 = x.seg.count → x.ans = [] →
    ∃ t, exec (.readDataArrive id) s = .next t ∧
      t.out = s.out ++ [.segment id true x.status (nth (0#1024, 0#128) x.seg.data x.back).1] ∧ t.flight id = none ∧
      (x.path ≠ 0 → tagsUsed t (x.path - 1) none = tagsUsed s (x.path - 1) none - x.tags) ∧ SameMem s t) ∧
  (∀ (s : State) (id : Nat) (x : Flight) (h : Hdr), Live s dFAB → s.flight id = some x → x.seg.id = id →
    OwnSource s x.seg.src → hdrHere s .ack id = some h → x.ans = [] →
    ∃ t, exec (.writeAckArrive id) s = .next t ∧ t.out = s.out ++ [.segment id true x.status 0#1024] ∧
      t.flight id = none ∧ (x.answered = false → x.path < 2 → backoffOf t x.seg.src = 0) ∧
      (x.path ≠ 0 → tagsUsed t (x.path - 1) none = tagsUsed s (x.path - 1) none - x.tags) ∧ SameMem s t)

/-- Rails, cut-offs, quarantine, starvation and overdue entries (R40, R101, R106, R108 to R110): the first-ranked head that waits at an
output takes its lowest free rail; a segment whose hold has reached the limit loses its rails and keeps its progress, and
MESH_CUTOFF_LAST names its cause; a SUPPLIER cut-off counts in its unit's window, and the 16th in it quarantines the unit; a window
that ended short of 16 is forgotten; a write of 1 releases a quarantined unit, and trains the link of a die-link port; a starved
segment raises its bank's flag and is named in TELLER_STARVE_LAST; an entry past its deadline is latched overdue, and one of a
retraining channel counted in GW_LATE. -/
def Obligations.MeshFairness : Prop :=
  (∀ (s : State) (node out r : Nat) (x : Flight), Live s dFAB →
    firstRanked (flightRank s) (headsAt s node out) = some x → freeRail s node out x = some r →
    ∃ t, exec (.meshRailGrant (node / 8) (node % 8) out) s = .next t ∧ tfind t.mesh.rails (railKey node out r) = some (x.seg.id + 1) ∧
      t.flight x.seg.id = some { x with rails := x.rails ++ [railKey node out r],
                                        holdStart := some (x.holdStart.getD s.clk.tc) } ∧
      (∀ k, k ≠ railKey node out r → tfind t.mesh.rails k = tfind s.mesh.rails k) ∧ SameMem s t ∧ t.regs = s.regs) ∧
  (∀ (s : State) (node out : Nat), Live s dFAB → headsAt s node out = [] →
    exec (.meshRailGrant (node / 8) (node % 8) out) s = .next s) ∧
  (∀ (s : State) (id : Nat) (x : Flight), Live s dFAB → s.flight id = some x → cutDue s x = true → cutCause s x ≠ 0 →
    ∃ t, exec (.cutOff id) s = .next t ∧ t.flight id = some (cutFlight s x) ∧
      (∀ k ∈ x.rails, tget 0 s.mesh.rails k = x.seg.id + 1 → tfind t.mesh.rails k = none) ∧
      (x.path = 0 → (t.teller (bankOf x.seg)).entries =
        (s.teller (bankOf x.seg)).entries.map (fun e => if e.id == id then { e with state := .waiting } else e)) ∧
      t.rg Reg.meshCutoffLast = cutWord s x % 2 ^ 32 ∧ RegsBut [Reg.meshCutoffLast] s t ∧ SameMem s t) ∧
  (∀ (s : State) (id n t0 : Nat) (x : Flight), Live s dFAB → s.flight id = some x → cutDue s x = true →
    cutCause s x = 0 → canQuarantine (supplierUnit s x.seg) = true →
    tget (0, 0) s.mesh.quarCount (supplierUnit s x.seg) = (n, t0) → n ≠ 0 → s.now < t0 + 1000000 →
    ∃ t, exec (.cutOff id) s = .next t ∧
      (n + 1 < 16 → t.flight id = some (cutFlight s x) ∧ t.rg Reg.meshCutoffLast = cutWord s x % 2 ^ 32 ∧
        tget (0, 0) t.mesh.quarCount (supplierUnit s x.seg) = (n + 1, t0)) ∧
      (16 ≤ n + 1 → quarantined t (supplierUnit s x.seg) = true)) ∧
  (∀ (s : State) (u n t0 : Nat), Live s dFAB → tget (0, 0) s.mesh.quarCount u = (n, t0) → n ≠ 0 → n < 16 →
    t0 + 1000000 ≤ s.now →
    ∃ t, exec (.quarantineWindowEnd u) s = .next t ∧ tget (0, 0) t.mesh.quarCount u = (0, 0) ∧
      t = { s with mesh := { s.mesh with quarCount := t.mesh.quarCount } }) ∧
  (∀ (s : State) (u : Nat), u < 160 → Live s dFAB → quarantined s u = true →
    ∃ t, exec (.quarantineRelease (u / 32) (BitVec.ofNat 32 (2 ^ (u % 32)))) s = .next t ∧ quarantined t u = false ∧
      tget (0, 0) t.mesh.quarCount u = (0, 0) ∧ (∀ w, w ≠ u → quarantined t w = quarantined s w) ∧
      RegsBut [Reg.meshQuar (u / 32)] s t ∧ SameMem s t) ∧
  (∀ (s : State) (p : Nat), p < 4 → Live s dFAB → quarantined s (162 + p) = true → (s.link p).state ≠ .inactive →
    ∃ t, exec (.quarantineRelease 5 (BitVec.ofNat 32 (2 ^ (2 + p)))) s = .next t ∧ quarantined t (162 + p) = false ∧
      (t.link p).state = .training ∧ (t.link p).since = s.now ∧ SameMem s t) ∧
  (∀ (s : State) (b id : Nat) (x : Flight), b < 256 → Live s (dHome (b / 8)) → starved s b id = true →
    s.rgBit (Reg.tellerStarveFlag (b / 32)) (b % 32) = false → s.flight id = some x →
    ∃ t, exec (.starvation b id) s = .next t ∧ t.rgBit (Reg.tellerStarveFlag (b / 32)) (b % 32) = true ∧
      t.rg Reg.tellerStarveLast = 2 ^ 31 + x.seg.src % 4096 * 2 ^ 16 + b ∧ t.mesh = s.mesh) ∧
  (∀ (s : State) (id : Nat) (x : Flight), Live s dFAB → s.flight id = some x → x.path = 0 →
    remaining s.now x.seg.dl < 0 →
    ∃ t, exec (.entryOverdue id) s = .next t ∧
      (t.teller (bankOf x.seg)).entries =
        (s.teller (bankOf x.seg)).entries.map (fun e => if e.id == id then { e with overdue := true } else e) ∧
      t = { s with mesh := { s.mesh with tellers := t.mesh.tellers } }) ∧
  (∀ (s : State) (id k : Nat) (x : Flight) (q : Chan), Live s dFAB → s.flight id = some x → x.path ≠ 0 →
    remaining s.now x.seg.dl < 0 →
    s.edge.chans.find? (fun c => c.2.entries.any (fun e => e.id == id && !e.overdue)) = some (k, q) →
    ∃ t, exec (.entryOverdue id) s = .next t ∧
      (∀ e ∈ (t.chan (k / 64) (k % 64)).entries, e.id = id → e.overdue = true) ∧
      t.rg (Reg.gwLate (k / 64)) =
        (if q.state = .retraining then min (s.rg (Reg.gwLate (k / 64)) + 1) 0xFFFFFFFF else s.rg (Reg.gwLate (k / 64))) ∧
      SameMem s t)

/-- Regulation (R115, R116, R119, R124, R127): at a window boundary every balance becomes its allowance, overdraft use
returns to 0, the meters are loaded with EFF × 2^w and charging follows REGU_CTL.EN; a write to REGU_CNT_CLR clears
the counters of the classes it names, but for what they counted in that tc (R12), and no other; a segment that its purse covers issues in-purse, one that it does
not cover is held, capped or overdraws. -/
def Obligations.Regulation : Prop :=
  (∀ s : State, frozen s = false → s.regu.window < s.now / 2 ^ windowExp s →
    ∃ t, exec .windowBoundary s = .next t ∧ t.regu.window = s.now / 2 ^ windowExp s ∧ t.regu.odUsed = [] ∧
      t.regu.balance = purseWords s 0 ∧ t.regu.odCap = purseWords s 4 ∧ t.regu.charging = s.rgBit Reg.reguCtl 0 ∧
      (∀ k, k < 32 → tget 0 t.regu.meter k = rsvEff s (k % 16) (k / 16) * 2 ^ windowExp s) ∧
      t.regu.counters = s.regu.counters ∧ RegsBut [Reg.reguBoost, Reg.reguStatus] s t ∧
      t = { s with regu := t.regu, regs := t.regs, hw := t.hw }) ∧
  (∀ s : State, frozen s = false → s.now / 2 ^ windowExp s ≤ s.regu.window → exec .windowBoundary s = .next s) ∧
  (∀ (s : State) (v : Word), Live s dFAB →
    ∃ t, exec (.reguCntClrWrite v) s = .next t ∧
      (∀ c i, c < 16 → i < 16 → bit v.toNat c = true →
        tget 0 t.regu.counters (16 * c + i) = s.counted (2 ^ 20 + (16 * c + i))) ∧
      (∀ c i, c < 16 → i < 16 → bit v.toNat c = false →
        tget 0 t.regu.counters (16 * c + i) = tget 0 s.regu.counters (16 * c + i)) ∧
      t = { touch s dFAB with regu := { s.regu with counters := t.regu.counters } }) ∧
  (∀ (s : State) (u c g hold : Nat), s.regu.charging = true → s.rgBit Reg.reguCtl 0 = true → u < 160 →
    (g ≤ tget 0 s.regu.balance (purseKey u c) → purseDecide s u c g hold = .purse) ∧
    (tget 0 s.regu.balance (purseKey u c) < g → odCapOf s (purseKey u c) ≠ 0xFFFFF →
      odCapOf s (purseKey u c) < tget 0 s.regu.odUsed (purseKey u c) + g → purseDecide s u c g hold = .capped) ∧
    (tget 0 s.regu.balance (purseKey u c) < g →
      tget 0 s.regu.odUsed (purseKey u c) + g ≤ odCapOf s (purseKey u c) →
      purseDecide s u c g hold = if hold ∈ s.regu.holds then .held else .overdraft))

/-- Stack gateways (R279, R281, R282): a header toward a channel with a free entry that is the channel's in this tc is accepted, a
write called at once; another waits; one that finds 512 is refused; the controller's acceptance frees the entry it is offered; a
read's data reaches its flight; a LEVEL report is kept; a report older than 4,096 ns is level 31, read as 15, with one record. -/
def Obligations.GatewayQueue : Prop :=
  (∀ (s : State) (id g c : Nat) (x : Flight) (h : Hdr), s.flight id = some x → x.seg.id = id →
    hdrHere s .request id = some h → flightChan s x = (g, some c) → Live s (dSG (g / 32)) → x.path = 1 →
    stackSt s (ppaOff x.seg.target / 2 ^ 21) = .ok → (s.chan (g / 32) c).entries.length < 512 →
    gatewayTurn s x c = true →
    ∃ t e, exec (.gatewayHeader id) s = .next t ∧
      (t.chan (g / 32) c).entries = (s.chan (g / 32) c).entries ++ [e] ∧ e.id = id ∧
      t.flight id = some { x with state := if segReads x.seg then .accepted else .called } ∧
      hdrHere t .request id = none ∧
      (segReads x.seg = false → ∃ k ∈ t.mesh.hdrs, k.kind = .call ∧ k.id = id ∧ k.dest = srcNode s x.seg) ∧
      SameMem s t ∧ t.regs = s.regs) ∧
  (∀ (s : State) (id g c : Nat) (x : Flight) (h : Hdr), s.flight id = some x → hdrHere s .request id = some h →
    flightChan s x = (g, some c) → Live s (dSG (g / 32)) → x.path = 1 → stackSt s (ppaOff x.seg.target / 2 ^ 21) = .ok →
    (s.chan (g / 32) c).entries.length < 512 → gatewayTurn s x c = false →
    exec (.gatewayHeader id) s = .next (touch s (dSG (g / 32)))) ∧
  (∀ (s : State) (id g c : Nat) (x : Flight) (h : Hdr), s.flight id = some x → x.seg.id = id →
    hdrHere s .request id = some h → flightChan s x = (g, some c) → Live s (dSG (g / 32)) → x.path = 1 →
    stackSt s (ppaOff x.seg.target / 2 ^ 21) = .ok → 512 ≤ (s.chan (g / 32) c).entries.length →
    ∃ t, exec (.gatewayHeader id) s = .next t ∧ t.flight id = some { x with state := .refused } ∧
      (∃ k ∈ t.mesh.hdrs, k.kind = .refusal ∧ k.id = id ∧ k.dest = srcNode s x.seg) ∧ t.edge = s.edge ∧ SameMem s t) ∧
  (∀ (s : State) (st c : Nat) (e : GEntry), st < 2 → Live s (dSG st) → clampOn s (32 + st) = false →
    (s.chan st c).state = .active → (s.chan st c).entries = [e] → gReads s e = true →
    ∃ t, exec (.stackEntryAccept st c) s = .next t ∧ (t.chan st c).entries = [] ∧
      (t.chan st c).reads = (s.chan st c).reads ++ [e] ∧ SameMem s t ∧ t.regs = s.regs ∧
      t.mesh.flights = s.mesh.flights) ∧
  (∀ (s : State) (st c tag : Nat) (e : GEntry) (x : Flight), st < 2 → Live s (dSG st) → (s.chan st c).reads = [e] →
    e.tag = tag → s.flight e.id = some x → x.seg.data = [] → 1 < x.seg.count → x.sent = 0 →
    ∃ t y, exec (.stackReadData st c tag 0#2) s = .next t ∧ t.flight e.id = some y ∧ y.sent = 1 ∧
      y.status = x.status ∧
      (nth (0#1024, 0#128) y.seg.data 0).1 = granuleOf (s.stackMem.readN (ppaOff (segGranule x.seg 0)) 128) ∧
      SameMem s t ∧ t.regs = s.regs) ∧
  (∀ (s : State) (st c level g : Nat), st < 2 → Live s (dSG st) → level < 16 → (s.chan st c).die = some g →
    inService (s.chan st c) = true →
    ∃ t, exec (.stackLevel st c level) s = .next t ∧
      t.chan st c = { s.chan st c with level := level, levelAt := s.now } ∧ SameMem s t ∧ t.regs = s.regs) ∧
  (∀ (s : State) (st c g : Nat), st < 2 → Live s (dSG st) → (s.chan st c).die = some g →
    inService (s.chan st c) = true → (s.chan st c).levelAt + 4096 ≤ s.now → (s.chan st c).level ≠ 31 →
    ∃ t, exec (.levelStale st c) s = .next t ∧ (t.chan st c).level = 31 ∧ (t.chan st c).state = (s.chan st c).state ∧
      t.rgBit Reg.rasCause 0 = true)

/-- Retraining (R285 to R288, R293): a notice opens a window that starts at least 10,000 ns after it and makes an
active channel NOTICED, with RAS_CAUSE bit 2; at its time, with room under RETRAIN_MAX, the channel retrains and the
command goes out; its end returns the channel to ACTIVE and clears its schedule; a channel that a retrain loses, that
is reported lost, or whose retrain is late is withdrawn from its die channel's mask. -/
def Obligations.Retraining : Prop :=
  (∀ (s : State) (st c e b g : Nat), st < 2 → Live s (dSG st) → (s.chan st c).state = .active →
    (s.chan st c).die = some g →
    ∃ t, exec (.retrainNotice st c e b) s = .next t ∧ (t.chan st c).state = .noticed ∧
      (t.chan st c).e = max e (s.now + 10000) ∧ (t.chan st c).b = max b (max e (s.now + 10000)) ∧
      t.rgBit Reg.rasCause 2 = true) ∧
  (∀ (s : State) (st c g : Nat), st < 2 → Live s (dSG st) → (s.chan st c).state = .noticed →
    (s.chan st c).die = some g → (s.chan st c).b ≠ 0 → retrainStart s g (s.chan st c) ≤ s.now →
    retrainCount s st < s.rgField (Reg.gwCfg st) 12 2 + 1 →
    ∃ t, exec (.retrainGo st c) s = .next t ∧ (t.chan st c).state = .retraining ∧ (t.chan st c).went = s.now ∧
      t.out = s.out ++ [.stackCmd st 0 c] ∧ SameMem s t ∧ t.regs = s.regs) ∧
  (∀ (s : State) (st c g : Nat), st < 2 → Live s (dSG st) → g < 64 → (s.chan st c).state = .retraining →
    (s.chan st c).die = some g → (s.chan st c).wasMirror = false → (s.chan st c).kept = none →
    ∃ t, exec (.retrainDone st c) s = .next t ∧ (t.chan st c).state = .active ∧ (t.chan st c).went = 0 ∧
      retrainAt t g = 0 ∧ t.rg (Reg.gwRetrains st) = (s.rg (Reg.gwRetrains st) + 1) % 2 ^ 32 ∧
      RegsBut [Reg.gwRetrains st, retrainAtReg g, retrainAtReg g + 4] s t ∧ SameMem s t) ∧
  (∀ (s : State) (st c g : Nat), st < 2 → Live s (dSG st) → (s.chan st c).state = .retraining →
    (s.chan st c).die = some g → g < 32 → (s.chan st c).wasMirror = false → (s.chan st c).entries = [] →
    (s.chan st c).reads = [] → (s.chan st c).went ≠ 0 →
    (∃ t, exec (.retrainFail st c) s = .next t ∧ (t.chan st c).state = .withdrawn ∧
      t.rgBit Reg.gwWithdrawnLo g = true) ∧
    (∃ t, exec (.chLost st c) s = .next t ∧ (t.chan st c).state = .withdrawn ∧ t.rgBit Reg.gwWithdrawnLo g = true) ∧
    ((s.chan st c).went + s.rgField Reg.gwRetrainTo 0 16 ≤ s.now →
      ∃ t, exec (.retrainTimeout st c) s = .next t ∧ (t.chan st c).state = .withdrawn ∧
        t.rgBit Reg.gwWithdrawnLo g = true ∧ .stackCmd st 3 c ∈ t.out))

/-- Repair of a stack's channel (R282, R289, R291, R321, R326): GO mirrors the channel on the idle spare and tells the
controller; at the switch the spare carries the die channel and the channel is REPLACED; at boot, before the seal, a
write replaces at once or withdraws; advice on a channel whose spare is gone withdraws it; a repaired row is counted;
a failed row of a mapped frame makes the frame RETIRING; a frame over a withdrawn channel becomes WITHDRAWN. -/
def Obligations.ChannelRepair : Prop :=
  (∀ (s : State) (st : Nat) (v : Word) (src : Nat), st < 2 → Live s (dSG st) → bit v.toNat 31 = true →
    (s.repair st).state ≠ 1 → (s.chan st 32).state = .spareIdle → (s.chan st (bits v.toNat 0 5)).state = .active →
    ∃ t, exec (.gwRepairGo st v src) s = .next t ∧ (t.chan st (bits v.toNat 0 5)).state = .mirror ∧
      (t.chan st 32).state = .spareMirror ∧ t.repair st = { state := 1, chan := bits v.toNat 0 5 } ∧
      t.out = s.out ++ [.stackCmd st 1 32] ∧ RegsBut [Reg.gwRepair st] s t ∧ SameMem s t) ∧
  (∀ (s : State) (st c g : Nat), st < 2 → Live s (dSG st) → (s.repair st).state = 1 → (s.repair st).chan = c → c < 32 →
    (s.chan st c).state = .mirror → (s.chan st c).die = some g → (s.chan st 32).state = .spareMirror →
    (s.chan st 32).b = 0 → (s.chan st c).b = 0 → s.edge.badRows = [] →
    ∃ t, exec (.repairSwitch st) s = .next t ∧ (t.chan st 32).die = some g ∧ (t.chan st 32).state = .active ∧
      (t.chan st c).state = .replaced ∧ (t.chan st c).die = none ∧ t.rg (Reg.gwSpare st) = 2 ^ 31 + c ∧
      (t.repair st).state = 2 ∧ t.rgBit Reg.rasCause 1 = true) ∧
  (∀ (s : State) (st g : Nat) (v : Word), st < 2 → Live s (dSG st) → isSealedDie s = false → bit v.toNat 31 = true →
    (s.chan st 32).state = .spareIdle → (s.chan st (bits v.toNat 0 5)).state = .active →
    (s.chan st (bits v.toNat 0 5)).die = some g → (s.chan st 32).b = 0 → (s.chan st (bits v.toNat 0 5)).b = 0 →
    ∃ t, exec (.gwBootSpare st v) s = .next t ∧ (t.chan st 32).die = some g ∧
      (t.chan st (bits v.toNat 0 5)).state = .replaced ∧ t.rg (Reg.gwSpare st) = 2 ^ 31 + bits v.toNat 0 5) ∧
  (∀ (s : State) (st c g : Nat), st < 2 → c < 32 → g < 32 → Live s (dSG st) → isSealedDie s = false →
    bit (s.rg (Reg.gwBootWd st)) c = false → (s.chan st c).state = .active → (s.chan st c).die = some g →
    (s.chan st c).entries = [] → (s.chan st c).reads = [] →
    ∃ t, exec (.gwBootWd st (BitVec.ofNat 32 (2 ^ c))) s = .next t ∧ (t.chan st c).state = .withdrawn ∧
      t.rgBit Reg.gwWithdrawnLo g = true ∧ t.rgBit (Reg.gwBootWd st) c = true) ∧
  (∀ (s : State) (st c g : Nat), st < 2 → c < 32 → g < 32 → Live s (dSG st) → (s.chan st c).state = .active →
    (s.chan st c).die = some g → (s.chan st c).entries = [] → (s.chan st c).reads = [] →
    (s.chan st 32).state = .spareFailed →
    ∃ t, exec (.repairAdvised st c) s = .next t ∧ (t.chan st c).state = .withdrawn ∧
      t.rgBit Reg.gwWithdrawnLo g = true) ∧
  (∀ (s : State) (st c off : Nat), st < 2 → c ≤ 32 → off < 2 ^ 32 → Live s (dSG st) →
    (s.chan st c).state ≠ .spareFailed →
    ∃ t, exec (.rowRepaired st c off) s = .next t ∧
      t.rg (Reg.gwRowrep st) = (s.rg (Reg.gwRowrep st) + 1) % 2 ^ 32 ∧ OnlyRegs (dSG st) [Reg.gwRowrep st] s t) ∧
  (∀ (s : State) (st c off g : Nat), st < 2 → Live s (dSG st) → (s.chan st c).die = some g →
    inService (s.chan st c) = true → (s.frame (frameOf s g off)).state = .mapped →
    ∃ t, exec (.spareRowFailed st c off) s = .next t ∧ (t.frame (frameOf s g off)).state = .retiring ∧
      (∀ f, f ≠ frameOf s g off → t.frame f = s.frame f) ∧ t.rgBit Reg.rasCause 1 = true) ∧
  (∀ (s : State) (f : Nat), Live s dFAB → s.xl.waitMaps = [] → frameMasked s (frameMode s f) f = true → (s.frame f).state = .mapped →
    ∃ t, exec (.frameSetWithdrawn f) s = .next t ∧ (t.frame f).state = .withdrawn ∧
      (∀ e, e ≠ f → t.frame e = s.frame e) ∧ t = { s with xl := { s.xl with frames := t.xl.frames } })

/-- The far tier (R296 to R298): each half of a granule is kept, the second completes the granule for its read with the far
tier's bytes; of two uncorrectable halves the read learns (R311); the last piece acknowledged of a write with every granule in
acknowledges the write, and a piece before it only frees its place. -/
def Obligations.FarTier : Prop :=
  (∀ (s : State) (id : Nat) (x : Flight), Live s dEDGE → s.flight id = some x → x.path = 2 → segReads x.seg = true →
    x.state = .accepted → x.sent < x.seg.count → x.halves = 1 → s.edge.farTable = [] →
    ∃ t y, exec (.farReadData id 1 false) s = .next t ∧ t.flight id = some y ∧ y.sent = x.sent + 1 ∧ y.halves = 0 ∧
      y.status = x.status ∧ y.state = (if x.sent + 1 = x.seg.count then .returning else .accepted) ∧
      y.seg.data = x.seg.data ++ [(granuleOf (s.extMem.readN (segGranule x.seg x.sent) 128), 0#128)] ∧ SameMem s t ∧
      t.regs = s.regs ∧ t.out = s.out) ∧
  (∀ (s : State) (id : Nat) (x : Flight), Live s dEDGE → s.flight id = some x → x.path = 2 → segReads x.seg = true →
    x.state = .accepted → x.sent < x.seg.count → x.halves = 1 → x.status = .ok → s.edge.farTable = [] →
    ∃ t y, exec (.farReadData id 1 true) s = .next t ∧ t.flight id = some y ∧ y.sent = x.sent + 1 ∧
      y.status = .eccUncorr ∧ y.seg.data = x.seg.data ++ [(0#1024, 0#128)] ∧ SameMem s t ∧ t.regs = s.regs) ∧
  (∀ (s : State) (id : Nat) (x : Flight), Live s dEDGE → s.flight id = some x → x.path = 2 → segReads x.seg = true →
    x.state = .accepted → x.sent < x.seg.count → x.halves = 0 → s.edge.farTable = [] →
    ∃ t, exec (.farReadData id 0 false) s = .next t ∧ t.flight id = some { x with halves := 1 } ∧ SameMem s t ∧
      t.regs = s.regs) ∧
  (∀ (s : State) (id piece : Nat) (x : Flight), Live s dEDGE → s.edge.farTable = [(piece, id, true)] →
    s.flight id = some x → x.state = .sending → x.arrived = x.seg.count →
    ∃ t, exec (.farWriteAck piece) s = .next t ∧ t.edge.farTable = [] ∧ t.flight id = some { x with state := .acked } ∧
      (∃ h ∈ t.mesh.hdrs, h.kind = .ack ∧ h.id = id) ∧ SameMem s t ∧ t.regs = s.regs) ∧
  (∀ (s : State) (id piece other : Nat), Live s dEDGE → piece ≠ other →
    s.edge.farTable = [(piece, id, true), (other, id, true)] →
    ∃ t, exec (.farWriteAck piece) s = .next t ∧ t.edge.farTable = [(other, id, true)] ∧ t.mesh = s.mesh ∧ SameMem s t ∧
      t.regs = s.regs)

/-- Die-link ports (R300 to R305, R336, R344, R353, R391): a flit whose CRC fails is replayed and counted, more than
REPLAY_LIMIT of them retrain the port; a flit for another die goes on by its route's port; the read data of a segment of this die
comes back to it; a CONTROL flit takes the peer's votes and returns credits; a wake pattern of this die wakes EDGE; a port trains,
comes up and sends its votes, fails after TRAIN_US with its port quarantined, or goes down with its peer. -/
def Obligations.LinkPorts : Prop :=
  (∀ (s : State) (p : Nat) (f : Flit), p < 4 → Live s dEDGE → linkUp s p = true → f.crcOk = false →
    (s.link p).replays = 0 → 1 ≤ s.rgField Reg.linkCfg 0 16 →
    ∃ t, exec (.linkFlitReceive p f) s = .next t ∧ t.rg (Reg.linkReplay p) = min (s.rg (Reg.linkReplay p) + 1) 0xFFFFFFFF ∧
      t.link p = { s.link p with replays := 1, replayFrom := s.now } ∧
      RegsBut [Reg.linkReplay p] s t ∧ SameMem s t ∧ t.out = s.out) ∧
  (∀ (s : State) (p : Nat) (f : Flit), p < 4 → Live s dEDGE → linkUp s p = true → f.crcOk = false →
    (s.link p).replays ≠ 0 → s.now < (s.link p).replayFrom + 1000000 →
    s.rgField Reg.linkCfg 0 16 < (s.link p).replays + 1 →
    ∃ t, exec (.linkFlitReceive p f) s = .next t ∧ (t.link p).state = .training ∧ (t.link p).since = s.now ∧
      (t.link p).votes = 0#37 ∧ RegsBut [Reg.linkReplay p] s t ∧ SameMem s t ∧ t.out = s.out) ∧
  (∀ (s : State) (p : Nat) (f : Flit), p < 4 → Live s dEDGE → linkUp s p = true → f.crcOk = true → f.relay = none →
    f.dest ≠ s.pwr.dieId → linkUp s (routePort s f.dest) = true → (s.link (routePort s f.dest)).waiting = [] →
    creditsUsed s (routePort s f.dest) f.lane f.net < 32 → clampOn s 34 = false →
    ∃ t, exec (.linkFlitReceive p f) s = .next t ∧
      t.out = s.out ++ [
        if f.net then
          .answer (routePort s f.dest) f.dest f.lane f.seg.src f.seg.id f.st (nth (0#1024, 0#128) f.seg.data 0).1
        else if ppaFar f.seg.target || ppaSpace f.seg.target ≤ 6 || ppaSpace f.seg.target == 8 then
          .link (routePort s f.dest) f.dest f.lane f.seg.src (!segReads f.seg) f.seg.dl f.seg.target
            (nth (0#1024, 0#128) f.seg.data 0).1 (nth (0#1024, 0#128) f.seg.data 0).2
        else .control (routePort s f.dest) f.dest f.lane f.seg.src (!segReads f.seg) f.seg.id f.seg.dl f.seg.target
          (BitVec.ofNat 64 ((nth (0#1024, 0#128) f.seg.data 0).1.toNat / 2 ^ (8 * (f.seg.target % 128))))] ∧
      creditsUsed t (routePort s f.dest) f.lane f.net = creditsUsed s (routePort s f.dest) f.lane f.net + 1 ∧
      SameMem s t) ∧
  (∀ (s : State) (p : Nat) (f : Flit) (x : Flight), p < 4 → Live s dEDGE → linkUp s p = true → f.crcOk = true →
    f.relay = none → f.dest = s.pwr.dieId → f.net = true → s.flight f.seg.id = some x → 3 ≤ x.path →
    segReads x.seg = true → x.state = .accepted → x.sent < x.seg.count → x.status = .ok →
    ∃ t y, exec (.linkFlitReceive p f) s = .next t ∧ t.flight f.seg.id = some y ∧ y.sent = x.sent + 1 ∧ y.status = f.st ∧
      y.seg.data = x.seg.data ++ [nth (0#1024, 0#128) f.seg.data 0] ∧ SameMem s t ∧ t.out = s.out) ∧
  (∀ (s : State) (p : Nat) (v : BitVec 37), p < 4 → Live s dEDGE → linkUp s p = true → (s.link p).waiting = [] →
    ∃ t, exec (.linkControlFlit p (some v) []) s = .next t ∧ (t.link p).votes = v ∧
      (t.link p).credits = (s.link p).credits) ∧
  (∀ (s : State) (p lane n : Nat) (resp : Bool), p < 4 → Live s dEDGE → linkUp s p = true → (s.link p).waiting = [] →
    ∃ t, exec (.linkControlFlit p none [(lane, resp, n)]) s = .next t ∧
      creditsUsed t p lane resp = creditsUsed s p lane resp - n ∧ (t.link p).votes = (s.link p).votes ∧
      t.regs = s.regs ∧ SameMem s t ∧ t.out = s.out) ∧
  (∀ s : State, frozen s = false → (s.dom dEDGE).state = .down → (s.dom dFAB).state = .up →
    ∃ t, exec (.wakePattern s.pwr.dieId) s = .next t ∧ (t.dom dEDGE).state = .waking ∧
      t.rgBit Reg.pwrCause 0 = true) ∧
  (∀ (s : State) (die : Nat), frozen s = false → die ≠ s.pwr.dieId → exec (.wakePattern die) s = .next s) ∧
  (∀ (s : State) (p : Nat), p < 4 → Live s dEDGE → (s.link p).state = .up →
    ∃ t, exec (.linkRetrain p) s = .next t ∧ (t.link p).state = .training ∧ (t.link p).votes = 0#37 ∧
      t = { s with edge := { s.edge with links := t.edge.links } }) ∧
  (∀ (s : State) (p : Nat), p < 4 → Live s dEDGE → (s.link p).state = .training → (s.link p).waiting = [] →
    ∃ t, exec (.linkUp p) s = .next t ∧ (t.link p).state = .up ∧
      t = { s with edge := { s.edge with links := t.edge.links }, out := t.out } ∧
      t.out = s.out ++ (if clampOn s 34 then [] else
        [.votes p (BitVec.ofNat 37 (s.rg64 (Reg.pwrLinkvoteLo p) (Reg.pwrLinkvoteHi p)))])) ∧
  (∀ (s : State) (p : Nat), p < 4 → Live s dEDGE → (s.link p).state = .training →
    (s.link p).since + 1000 * max 1 (s.rgField Reg.linkCfg 16 8) ≤ s.now →
    ∃ t, exec (.linkFailed p) s = .next t ∧ (t.link p).state = .failed ∧ quarantined t (162 + p) = true ∧
      t.rgBit Reg.rasCause 0 = true) ∧
  (∀ (s : State) (p : Nat), p < 4 → Live s dEDGE → (s.link p).state ≠ .inactive →
    (∀ f ∈ s.mesh.flights, f.2.seg.id = f.1) →
    ∃ t, exec (.linkDown p) s = .next t ∧ (t.link p).state = .down ∧ (t.link p).votes = 0#37 ∧
      (∀ f ∈ t.mesh.flights, ¬ (f.2.path = p + 3 ∧ ppaDie f.2.seg.target = peerOf s p)))

/-- CMDR_CTL and the doorbell (R128, R132, R133, R145): EN written to 1 with a good set-up clears HEAD, TAIL and DONE
and runs the ring, or leaves it stopped where STOP is written with it; with a bad one it sets CFG_ERR and the ring stays off; a
doorbell in range moves TAIL; one too far ahead puts the ring in ERROR; one behind TAIL, on a disabled ring, on one whose EN is
written to 0 in the same tc, or of a wrong offset or width moves nothing; STOP and its clearing stop and resume; EN written to 0
with nothing fetched and nothing running disables, its batches in flight doomed. -/
def Obligations.CommandRingControl : Prop :=
  (∀ (s : State) (r : Nat) (v : Word), r < 1024 → Live s dFAB → bit v.toNat 0 = true →
    cmdEn s r = false → cmdBusy s r = false → 5 ≤ s.rgField (Reg.cmdrCfg r) 0 5 → s.rgField (Reg.cmdrCfg r) 0 5 ≤ 16 →
    ringBaseOk s (s.rgBit (Reg.cmdrCfg r) 31) (s.rg64 (Reg.cmdrBaseLo r) (Reg.cmdrBaseHi r)) 2048 = true →
    ∃ t, exec (.cmdrEnable r v) s = .next t ∧ cmdEn t r = true ∧
      (t.ring r).state = (if bit v.toNat 1 then .stopped else .running) ∧ t.rg (Reg.cmdrHead r) = 0 ∧
      t.rg (Reg.cmdrTail r) = 0 ∧ t.rg (Reg.cmdrDone r) = 0 ∧
      RegsBut [Reg.cmdrCtl r, Reg.cmdrHead r, Reg.cmdrTail r, Reg.cmdrDone r] s t ∧
      t = { touch s dFAB with regs := t.regs, hw := t.hw, work := { s.work with rings := t.work.rings } }) ∧
  (∀ (s : State) (r : Nat) (v : Word), r < 1024 → Live s dFAB → bit v.toNat 0 = true → cmdEn s r = false →
    (16 < s.rgField (Reg.cmdrCfg r) 0 5 ∨ s.rgField (Reg.cmdrCfg r) 0 5 < 5) →
    ∃ t, exec (.cmdrEnable r v) s = .next t ∧ cmdEn t r = false ∧ t.rgBit (Reg.cmdrStatus r) 8 = true ∧
      OnlyRegs dFAB [Reg.cmdrCtl r, Reg.cmdrStatus r] s t) ∧
  (∀ (s : State) (r : Nat) (v : DWord), r < 1024 → Live s dFAB → cmdEn s r = true → disableWaits s r = false →
    (v.toNat % 2 ^ 32 + 2 ^ 32 - s.rg (Reg.cmdrHead r)) % 2 ^ 32 ≤ cmdSize s r →
    (s.rg (Reg.cmdrTail r) + 2 ^ 32 - s.rg (Reg.cmdrHead r)) % 2 ^ 32 ≤
      (v.toNat % 2 ^ 32 + 2 ^ 32 - s.rg (Reg.cmdrHead r)) % 2 ^ 32 →
    ∃ t, exec (.doorbell r 0 8 v) s = .next t ∧ t.rg (Reg.cmdrTail r) = v.toNat % 2 ^ 32 ∧
      t.out = s.out ++ [.reply .ok 0#64] ∧ RegsBut [Reg.cmdrTail r] s t ∧
      t = { touch s dFAB with regs := t.regs, out := t.out }) ∧
  (∀ (s : State) (r : Nat) (v : DWord), r < 1024 → Live s dFAB → cmdEn s r = true → disableWaits s r = false →
    (s.ring r).state ≠ .error → cmdSize s r < (v.toNat % 2 ^ 32 + 2 ^ 32 - s.rg (Reg.cmdrHead r)) % 2 ^ 32 →
    ∃ t, exec (.doorbell r 0 8 v) s = .next t ∧ (t.ring r).state = .error ∧ (t.ring r).err = 1 ∧
      t.rg (Reg.cmdrTail r) = s.rg (Reg.cmdrTail r)) ∧
  (∀ (s : State) (r : Nat) (v : DWord), r < 1024 → Live s dFAB →
    (cmdEn s r = false ∨ disableWaits s r = true ∨
      (v.toNat % 2 ^ 32 + 2 ^ 32 - s.rg (Reg.cmdrHead r)) % 2 ^ 32 <
        (s.rg (Reg.cmdrTail r) + 2 ^ 32 - s.rg (Reg.cmdrHead r)) % 2 ^ 32 ∧
      (v.toNat % 2 ^ 32 + 2 ^ 32 - s.rg (Reg.cmdrHead r)) % 2 ^ 32 ≤ cmdSize s r) →
    ∃ t, exec (.doorbell r 0 8 v) s = .next t ∧ t.rgBit (Reg.cmdrStatus r) 9 = true ∧
      RegsBut [Reg.cmdrStatus r] s t ∧ t.work = s.work) ∧
  (∀ (s : State) (r off width : Nat) (v : DWord), Live s dFAB → (off ≠ 0 ∨ width ≠ 8) →
    exec (.doorbell r off width v) s =
      .next ((touch s dFAB).emit (.reply (if off = 0 then .faultAlign else .faultProt) 0#64))) ∧
  (∀ (s : State) (r : Nat) (v : Word), r < 1024 → Live s dFAB → bit v.toNat 0 = true → bit v.toNat 1 = true →
    cmdEn s r = true → (s.ring r).state = .running →
    ∃ t, exec (.cmdrStop r v) s = .next t ∧ (t.ring r).state = .stopped ∧ (t.ring r).fetched = (s.ring r).fetched ∧
      t.rgBit (Reg.cmdrCtl r) 1 = true ∧ RegsBut [Reg.cmdrCtl r] s t) ∧
  (∀ (s : State) (r : Nat) (v : Word), r < 1024 → Live s dFAB → bit v.toNat 0 = true → bit v.toNat 1 = false →
    cmdEn s r = true → (s.ring r).state = .stopped → (s.ring r).fetched = [] →
    ∃ t, exec (.cmdrResume r v) s = .next t ∧ (t.ring r).state = .running ∧ t.rgBit (Reg.cmdrCtl r) 1 = false ∧
      RegsBut [Reg.cmdrCtl r] s t) ∧
  (∀ (s : State) (r : Nat) (v : Word), r < 1024 → Live s dFAB → bit v.toNat 0 = false → cmdEn s r = true →
    cmdBusy s r = false →
    ∃ t, exec (.cmdrDisable r v) s = .next t ∧ cmdEn t r = false ∧ (t.ring r).state = .disabled ∧
      (t.ring r).batches = batchesDoomed (s.ring r).batches ∧ RegsBut [Reg.cmdrCtl r] s t)

/-- Fetching (R135, R136, R141, R42): a fetch of an enabled running ring asks for the descriptors from HEAD and what
is in flight on to TAIL, at most to a multiple of 32; a batch that arrives advances HEAD and enters its descriptors in
order; a path error puts the ring in ERROR with cause 2, or 3 for ECC_UNCORR, and dooms the batches behind it, which are discarded
as they arrive; a head passes its not-before time. -/
def Obligations.CommandFetch : Prop :=
  (∀ (s : State) (r at_ n : Nat), r < 1024 → Live s dFAB → withheldNow s = false → fetchOk s r = true →
    at_ = (s.rg (Reg.cmdrHead r) + inFlight (s.ring r)) % 2 ^ 32 →
    n = min ((s.rg (Reg.cmdrTail r) + 2 ^ 32 - at_) % 2 ^ 32) (32 - at_ % 32) → 0 < n →
    ∃ t, exec (.batchFetch r) s = .next t ∧ (t.ring r).batches = (s.ring r).batches ++ [(at_, n)] ∧ n ≤ 32 ∧
      t = { s with work := { s.work with rings := t.work.rings } }) ∧
  (∀ (s u : State) (r at_ : Nat) (bytes : List Byte), r < 1024 → Live s dFAB → (s.ring r).batches = [(at_, 1)] →
    unitRead s (s.rgBit (Reg.cmdrCfg r) 31) 18
      (s.rg64 (Reg.cmdrBaseLo r) (Reg.cmdrBaseHi r) + at_ % cmdSize s r * 64) 64 = (u, none, bytes) →
    (u.ring r).fetched = [] → (∀ c, (u.ctx c).unbinding = false) →
    ∃ t c, exec (.batchArrive r .ok) s = .next t ∧ t.rg (Reg.cmdrHead r) = (at_ + 1) % 2 ^ 32 ∧
      (t.ring r).batches = [] ∧ (t.ring r).fetched = [c] ∧ c.seq = at_ % 2 ^ 32 ∧
      c.desc = (List.range 8).map (fun i => BitVec.ofNat 64 (ofBytes ((bytes.drop (8 * i)).take 8)))) ∧
  (∀ (s : State) (r at_ n : Nat) (l : List (Nat × Nat)) (st : Status), r < 1024 → Live s dFAB →
    (s.ring r).batches = (at_, n) :: l → 0 < n → (s.ring r).state ≠ .error → stOk st = false →
    ∃ t, exec (.batchArrive r st) s = .next t ∧ (t.ring r).state = .error ∧ (t.ring r).batches = batchesDoomed l ∧
      (t.ring r).err = (if st = .eccUncorr then 3 else 2) ∧ t.rg (Reg.cmdrHead r) = s.rg (Reg.cmdrHead r)) ∧
  (∀ (s : State) (r at_ : Nat) (l : List (Nat × Nat)) (st : Status), r < 1024 → Live s dFAB →
    (s.ring r).batches = (at_, 0) :: l →
    ∃ t, exec (.batchArrive r st) s = .next t ∧ (t.ring r).batches = l ∧
      t = { s with work := { s.work with rings := t.work.rings } }) ∧
  (∀ (s : State) (r : Nat) (c : Cmd) (l : List Cmd), r < 1024 → Live s dFAB → (s.ring r).fetched = c :: l →
    cmdEn s r = true → (s.ring r).state = .running → dNotBefore c.desc ≤ s.now → c.wflag = none →
    wflagOf s c.desc = none →
    ∃ t, exec (.notBeforeReached r) s = .next t ∧
      (t.ring r).fetched = { c with notBefore := true, wflag := some true, polled := s.clk.tc } :: l) ∧
  (∀ (s : State) (r : Nat) (c : Cmd) (l : List Cmd), r < 1024 → Live s dFAB → (s.ring r).fetched = c :: l →
    s.now < dNotBefore c.desc → exec (.notBeforeReached r) s = .next s)

/-- Completion (R146 to R149): a settled command counts in CMDR_DONE, frees its program context and sets its SFLAG; QUIET
without an error writes no record, else the record takes the completion ring's TAIL; a record that waited is placed once its ring
has room, and one of a disabled ring is counted in CRING_LOST. -/
def Obligations.CommandCompletion : Prop :=
  (∀ (s : State) (r seq k : Nat) (x : PCtx), r < 1024 → Live s dFAB →
    s.work.pctxs.find? (fun e => e.2.ring == r && e.2.seq == seq && pctxSettled s e.1 e.2) = some (k, x) →
    x.status = none → x.sflag = none → x.stream = none → dDeadline x.desc = 0 → dQuiet x.desc = true →
    dScope x.desc = 0 → dOp x.desc ≠ 0x0A →
    ∃ t, exec (.commandComplete r seq) s = .next t ∧ t.pctx k = none ∧
      t.rg (Reg.cmdrDone r) = (s.rg (Reg.cmdrDone r) + 1) % 2 ^ 32 ∧ t.work.cwait = s.work.cwait ∧ SameMem s t ∧
      (∀ c, c < 1024 → t.rg (ringReg false c 0x14) = s.rg (ringReg false c 0x14))) ∧
  (∀ (s : State) (r seq k : Nat) (x : PCtx), r < 1024 → Live s dFAB →
    s.work.pctxs.find? (fun e => e.2.ring == r && e.2.seq == seq && pctxSettled s e.1 e.2) = some (k, x) →
    x.status = none → x.sflag = none → x.stream = none → dQuiet x.desc = false → ringEn s false (dCring x.desc) = true → ringFull s false (dCring x.desc) = false →
    s.work.cwait = [] →
    ∃ t, exec (.commandComplete r seq) s = .next t ∧ t.pctx k = none ∧
      t.rg (Reg.cmdrDone r) = (s.rg (Reg.cmdrDone r) + 1) % 2 ^ 32 ∧ t.work.cwait = [] ∧
      t.rg (ringReg false (dCring x.desc) 0x14) = (s.rg (ringReg false (dCring x.desc) 0x14) + 1) % 2 ^ 32) ∧
  (∀ (s : State) (r seq k p : Nat) (x : PCtx), r < 1024 → Live s dFAB →
    s.work.pctxs.find? (fun e => e.2.ring == r && e.2.seq == seq && pctxSettled s e.1 e.2) = some (k, x) →
    x.status = none → x.sflag = some p → x.stream = none → dScope x.desc = 0 → flagSt s p = .ok →
    s.sync.waiters = [] →
    ∃ t, exec (.commandComplete r seq) s = .next t ∧ (t.flag p).value = true) ∧
  (∀ (s : State) (c : Nat) (w : CWait), c < 1024 → Live s dFAB → s.work.cwait = [w] → w.ring = c →
    ringEn s false c = true → ringFull s false c = false →
    ∃ t, exec (.cringRecordPlace c) s = .next t ∧ t.work.cwait = [] ∧
      t.rg (ringReg false c 0x14) = (s.rg (ringReg false c 0x14) + 1) % 2 ^ 32 ∧
      (∀ k, w.owner = some k → t.pctx k = none)) ∧
  (∀ (s : State) (c : Nat) (w : CWait), c < 1024 → Live s dFAB → s.work.cwait = [w] → w.ring = c →
    ringEn s false c = false →
    ∃ t, exec (.cringRecordPlace c) s = .next t ∧ t.work.cwait = [] ∧
      t.rg (Reg.cringLost c) = min (s.rg (Reg.cringLost c) + 1) 0xFFFFFFFF) ∧
  (∀ (s : State) (c : Nat) (w : CWait), c < 1024 → Live s dFAB → s.work.cwait = [w] → w.ring = c →
    ringEn s false c = true → ringFull s false c = true → exec (.cringRecordPlace c) s = .next s)

/-- Completion and event rings and the program store (R128, R148, R154, R155): EN with a good set-up clears HEAD and
TAIL; a HEAD within TAIL is taken, for the next tc on, one beyond it sets the error bit; the time condition fires; a high word of
the program store replaces the instruction with the held low word, or with its own where none is held; a low word alone changes
nothing. -/
def Obligations.RingRegisters : Prop :=
  (∀ (s : State) (c : Nat) (v : Word), c < 1024 → Live s dFAB → bit v.toNat 29 = true → ringEn s false c = false →
    6 ≤ bits v.toNat 24 5 → bits v.toNat 24 5 ≤ 20 →
    ringBaseOk s (bit v.toNat 31) (s.rg64 (ringReg false c 0) (ringReg false c 4)) 128 = true →
    ∃ t, exec (.cringEnable c v) s = .next t ∧ ringEn t false c = true ∧ ringLevel t false c = 0 ∧
      ringSize t false c = 2 ^ bits v.toNat 24 5 ∧
      RegsBut [ringReg false c 8, ringReg false c 0x10, ringReg false c 0x14] s t ∧
      t = { touch s dFAB with regs := t.regs, work := { s.work with cirq := t.work.cirq } }) ∧
  (∀ (s : State) (e : Nat) (v : Word), e < 16 → Live s dFAB → bit v.toNat 29 = true → ringEn s true e = false →
    (20 < bits v.toNat 24 5 ∨ bits v.toNat 24 5 < 6) →
    ∃ t, exec (.evrEnable e v) s = .next t ∧ ringEn t true e = false ∧ t.rgBit (ringStat true e) 2 = true ∧
      OnlyRegs dFAB [ringReg true e 8, ringStat true e] s t) ∧
  (∀ (s : State) (e : Nat) (v : Word), e < 16 → Live s dFAB → bit v.toNat 29 = true → ringEn s true e = false →
    6 ≤ bits v.toNat 24 5 → bits v.toNat 24 5 ≤ 20 →
    ringBaseOk s (bit v.toNat 31) (s.rg64 (ringReg true e 0) (ringReg true e 4)) 128 = true →
    ∃ t, exec (.evrEnable e v) s = .next t ∧ ringEn t true e = true ∧ ringLevel t true e = 0 ∧
      RegsBut [ringReg true e 8, ringReg true e 0x10, ringReg true e 0x14] s t ∧
      t = { touch s dFAB with regs := t.regs, work := { s.work with eirq := t.work.eirq } }) ∧
  (∀ (s : State) (evr : Bool) (c : Nat) (v : Word), c < (if evr then 16 else 1024) → Live s dFAB →
    (v.toNat + 2 ^ 32 - s.rg (ringReg evr c 0x10)) % 2 ^ 32 ≤
      (s.rg (ringReg evr c 0x14) + 2 ^ 32 - s.rg (ringReg evr c 0x10)) % 2 ^ 32 →
    ∃ t, exec (.cringHeadWrite evr c v) s = .next t ∧ t.rg (ringReg evr c 0x10) = v.toNat ∧
      ringLevel t evr c = ringLevel s evr c ∧ (t.irq evr c).since = s.now ∧ (t.irq evr c).fired = false ∧
      RegsBut [ringReg evr c 0x10] s t) ∧
  (∀ (s : State) (evr : Bool) (c : Nat) (v : Word), c < (if evr then 16 else 1024) → Live s dFAB →
    (s.rg (ringReg evr c 0x14) + 2 ^ 32 - s.rg (ringReg evr c 0x10)) % 2 ^ 32 <
      (v.toNat + 2 ^ 32 - s.rg (ringReg evr c 0x10)) % 2 ^ 32 →
    ∃ t, exec (.cringHeadWrite evr c v) s = .next t ∧ t.rgBit (ringStat evr c) 3 = true ∧
      OnlyRegs dFAB [ringStat evr c] s t) ∧
  (∀ (s : State) (evr : Bool) (c : Nat), c < (if evr then 16 else 1024) → Live s dFAB → ringEn s evr c = true →
    ringLevel s evr c ≠ 0 → s.rg (ringReg evr c 0xC) ≠ 0 →
    (s.irq evr c).since + s.rg (ringReg evr c 0xC) ≤ s.now →
    ∃ t, exec (.irqNsExpire evr c) s = .next t ∧ (t.irq evr c).fired = true ∧ ringCond t evr c = true ∧
      t = { s with work := { s.work with cirq := t.work.cirq, eirq := t.work.eirq } }) ∧
  (∀ (s : State) (n : Nat) (v : Word), n < 32768 → Live s dFAB →
    ∃ t, exec (.pstoreLowWrite n v) s = .next t ∧ (∀ i, t.instr i = s.instr i) ∧
      tfind t.work.pstoreLow n = some v ∧ t = { touch s dFAB with work := { s.work with pstoreLow := t.work.pstoreLow } }) ∧
  (∀ (s : State) (n : Nat) (v low : Word), n < 32768 → Live s dFAB → tfind s.work.pstoreLow n = some low →
    ∃ t, exec (.pstoreHighWrite n v) s = .next t ∧ t.instr n = BitVec.ofNat 64 (v.toNat * 2 ^ 32 + low.toNat) ∧
      (∀ i, i ≠ n → t.instr i = s.instr i) ∧ tfind t.work.pstoreLow n = none ∧ t.regs = s.regs ∧ SameMem s t) ∧
  (∀ (s : State) (n : Nat) (v : Word), n < 32768 → Live s dFAB → tfind s.work.pstoreLow n = none →
    ∃ t, exec (.pstoreHighWrite n v) s = .next t ∧
      t.instr n = BitVec.ofNat 64 (v.toNat * 2 ^ 32 + (s.instr n).toNat % 2 ^ 32) ∧
      (∀ i, i ≠ n → t.instr i = s.instr i) ∧ t.regs = s.regs ∧ SameMem s t)

/-- The data commands of Table 6.3 (R116, R140, R226), once their accesses have passed the issue point: each ends done without an
error when its transfers meet none, and a COPY with the status of the first error otherwise; a FILL's byte i is byte i mod its width
of the pattern; a FILL of length 0 changes no memory; a REDUCE whose length or stride is no multiple of its lane is FAULT_ALIGN,
one whose accumulator lies outside BANK space is FAULT_PROT, and both move nothing; a CONVERT of length 0 is done. -/
def Obligations.DataCommands : Prop :=
  (∀ (s : State) (r k : Nat) (x : PCtx) (u w v : State) (b : List Byte), Live s dFAB → Begins s r 0x01 anyDesc k x u →
    Issues copyEff u k x w →
    copySpan w (pctxVia w k x) false false none (dSrc x.desc) (dDst x.desc) (dLen x.desc) = (v, none, b) →
    exec (.copy r) s = .next (pctxDone v k .ok) ∧
      ∀ y, v.pctx k = some y → y.status = none → DoneOk (pctxDone v k .ok) k) ∧
  (∀ (s : State) (r k : Nat) (x : PCtx) (u w v : State) (b : List Byte) (e : XErr), Live s dFAB →
    Begins s r 0x01 anyDesc k x u → Issues copyEff u k x w → stOk e.st = false →
    copySpan w (pctxVia w k x) false false none (dSrc x.desc) (dDst x.desc) (dLen x.desc) = (v, some e, b) →
    ∃ t, exec (.copy r) s = .next t ∧
      t = pctxDone (if e.st = .quarantined then v
        else faultRec v (128 + k / 8) (dTag x.desc) e.st e.addr e.cva e.host) k e.st ∧
      ∀ y, v.pctx k = some y → y.status = none → DoneWith t k e.st) ∧
  (∀ (s : State) (r k : Nat) (x : PCtx) (u w v : State) (n : Nat), Live s dFAB → Begins s r 0x02 anyDesc k x u →
    Issues fillEff u k x w →
    writeSpan w (pctxVia w k x) false none (dDst x.desc) (allOn (fillBytes x.desc)) = (v, none, n) →
    exec (.fill r) s = .next (pctxDone v k .ok) ∧
    (∀ y, v.pctx k = some y → y.status = none → DoneOk (pctxDone v k .ok) k) ∧
    (fillBytes x.desc).length = dLen x.desc ∧
    ∀ i, i < dLen x.desc → nth 0#8 (fillBytes x.desc) i =
      BitVec.ofNat 8 (dAux2 x.desc / 2 ^ (8 * (i % 2 ^ bits (dAux0 x.desc) 0 2)))) ∧
  (∀ (s : State) (r k : Nat) (x : PCtx) (u : State), Live s dFAB → Begins s r 0x02 anyDesc k x u →
    dLen x.desc = 0 → x.status = none → ∃ t, exec (.fill r) s = .next t ∧ DoneOk t k ∧ SameMem u t) ∧
  (∀ (s : State) (r k : Nat) (x : PCtx) (u w v : State), Live s dFAB → Begins s r 0x03 anyDesc k x u →
    Issues reduceEff u k x w →
    dLen x.desc % laneBytes (bits (dAux0 x.desc) 0 3 + 3) = 0 → dAux1 x.desc % laneBytes (bits (dAux0 x.desc) 0 3 + 3) = 0 →
    accBad (pctxVia w k x) (dLen x.desc / 128 + 2) (dDst x.desc) (dLen x.desc) w = none →
    reduceBlocks (pctxVia w k x) (bits (dAux0 x.desc) 0 3 + 3) (dSrc x.desc) (dDst x.desc) (dLen x.desc) (dAux1 x.desc)
      (bits (dAux0 x.desc) 8 8 + 1) 0 w = (v, none) →
    exec (.reduce r) s = .next (pctxDone v k .ok) ∧
      ∀ y, v.pctx k = some y → y.status = none → DoneOk (pctxDone v k .ok) k) ∧
  (∀ (s : State) (r k : Nat) (x : PCtx) (u : State), Live s dFAB → Begins s r 0x03 anyDesc k x u → x.status = none →
    (dLen x.desc % laneBytes (bits (dAux0 x.desc) 0 3 + 3) ≠ 0 ∨
      dAux1 x.desc % laneBytes (bits (dAux0 x.desc) 0 3 + 3) ≠ 0) →
    ∃ t, exec (.reduce r) s = .next t ∧ DoneWith t k .faultAlign ∧ SameMem u t) ∧
  (∀ (s : State) (r k a : Nat) (x : PCtx) (u w : State), Live s dFAB → Begins s r 0x03 anyDesc k x u → x.status = none →
    Issues reduceEff u k x w →
    dLen x.desc % laneBytes (bits (dAux0 x.desc) 0 3 + 3) = 0 → dAux1 x.desc % laneBytes (bits (dAux0 x.desc) 0 3 + 3) = 0 →
    accBad (pctxVia w k x) (dLen x.desc / 128 + 2) (dDst x.desc) (dLen x.desc) w = some a →
    ∃ t, exec (.reduce r) s = .next t ∧ DoneWith t k .faultProt ∧ SameMem w t) ∧
  (∀ (s : State) (r k : Nat) (x : PCtx) (u : State), Live s dFAB → Begins s r 0x04 anyDesc k x u → dLen x.desc = 0 →
    x.status = none → ∃ t, exec (.convert r) s = .next t ∧ DoneOk t k ∧ SameMem u t) ∧
  (∀ (s : State) (r k n : Nat) (x : PCtx) (u w v : State) (m : MRes), Live s dFAB → Begins s r 0x04 anyDesc k x u →
    Issues convertEff u k x w → 0 < dLen x.desc →
    ((dMint x.desc).inF = 13 ∧ n = dLen x.desc ∨
      (dMint x.desc).inF ≠ 13 ∧ dLen x.desc % (mfmt (dMint x.desc).inF (dMint x.desc).gsz).bytes = 0 ∧
        n = dLen x.desc / (mfmt (dMint x.desc).inF (dMint x.desc).gsz).bytes *
          (mfmt (dMint x.desc).inF (dMint x.desc).gsz).unit) →
    mintRun (mintRead w (pctxVia w k x) false (dMint x.desc) true (dSrc x.desc) n).1 (pctxVia w k x) false (dMint x.desc) true
      (dSrc x.desc) (dDst x.desc) n (dAux2 x.desc)
      (mintRead w (pctxVia w k x) false (dMint x.desc) true (dSrc x.desc) n).2 = (v, m) → m.err = none →
    exec (.convert r) s = .next (pctxDone (mintErrSet v k m) k .ok) ∧
      ∀ y, v.pctx k = some y → y.status = none → DoneOk (pctxDone (mintErrSet v k m) k .ok) k)

/-- SIGNAL, WAIT, FENCE, BARRIER, STAMP and STREAM (R141, R158, R239, R248, R257, R258, R261, R264, R267, R270, Table 2.2): a
signal writes its flag, or, of another die, sends the write on its lane; a wait that holds is done, and consumes its flag where its
mode says so; one that does not hold registers, or polls under SPIN; a fence is done at its start, its completion being the release;
a barrier's arrival, once its release is done, is counted and its command waits; a stamp writes a record of type 0x0A; a STREAM
starts its program at AUX0 with a0 to a2 and n0, n1 from the descriptor. -/
def Obligations.ControlCommands : Prop :=
  (∀ (s : State) (r k f : Nat) (x : PCtx) (u : State), Live s dFAB → Begins s r 0x08 anyDesc k x u →
    dFlag u x.desc (bits (dAux0 x.desc) 0 14) = some f →
    (bit (dAux0 x.desc) 20 = false ∨ bits (dAux0 x.desc) 16 4 = u.pwr.dieId) → x.status = none → flagSt u f = .ok →
    (∀ w ∈ u.sync.waiters, w.flag ≠ f) →
    ∃ t, exec (.signal r) s = .next t ∧ (t.flag f).value = (bits (dAux0 x.desc) 14 2 == 0) ∧ DoneOk t k ∧
      (∀ g, g ≠ f → t.flag g = u.flag g) ∧ SameMem u t) ∧
  (∀ (s : State) (r k f p d : Nat) (x : PCtx) (u : State), Live s dFAB → Begins s r 0x08 anyDesc k x u →
    dFlag u x.desc (bits (dAux0 x.desc) 0 14) = some f → d = bits (dAux0 x.desc) 16 4 → bit (dAux0 x.desc) 20 = true →
    d ≠ u.pwr.dieId → d ∈ u.build.dies → p = routePort u d → portQuar u p = false → x.status = none →
    laneOrdered u (pctxSrc u k) d (dClass x.desc) (2 ^ 64) = true → linkUp u p = true → (u.link p).waiting = [] →
    creditsUsed u p (dClass x.desc) false < 32 → clampOn u 34 = false →
    ∃ t id, exec (.signal r) s = .next t ∧ DoneOk t k ∧ t.sync.flags = u.sync.flags ∧ SameMem u t ∧
      t.out = u.out ++ [.control p d (dClass x.desc) (pctxSrc u k) true id
        (pullIn u (dClass x.desc) (shortStamp u.now 0)) (diePPA d 0xA (8 * f))
        (BitVec.ofNat 64 (b2n (bits (dAux0 x.desc) 14 2 == 0)))]) ∧
  (∀ (s : State) (r k f : Nat) (x : PCtx) (u : State), Live s dFAB → Begins s r 0x09 anyDesc k x u →
    dFlag u x.desc (bits (dAux0 x.desc) 0 14) = some f → flagSt u f = .ok →
    waitHolds u f (bits (dAux0 x.desc) 14 2) = true → x.status = none →
    (bits (dAux0 x.desc) 14 2 = 2 → ∀ w ∈ u.sync.waiters, w.flag ≠ f) →
    ∃ t, exec (.wait r) s = .next t ∧ DoneOk t k ∧ SameMem u t ∧
      (t.flag f).value = (if bits (dAux0 x.desc) 14 2 = 2 then false else (u.flag f).value) ∧
      (∀ g, g ≠ f → t.flag g = u.flag g) ∧ t.sync.waiters = u.sync.waiters) ∧
  (∀ (s : State) (r k f : Nat) (x : PCtx) (u : State), Live s dFAB → Begins s r 0x09 anyDesc k x u →
    dFlag u x.desc (bits (dAux0 x.desc) 0 14) = some f → flagSt u f = .ok →
    waitHolds u f (bits (dAux0 x.desc) 14 2) = false → dSpin u x.desc = false →
    ∃ t w, exec (.wait r) s = .next t ∧ t.sync.waiters = u.sync.waiters ++ [w] ∧ w.flag = f ∧
      w.mode = bits (dAux0 x.desc) 14 2 ∧ w.who = .pctx k ∧ w.acq = true ∧ w.scope = dScope x.desc ∧
      t.pctx k = some { x.waits u.now (.flag f) with spin := false } ∧ t.sync.flags = u.sync.flags ∧ SameMem u t) ∧
  (∀ (s : State) (r k f : Nat) (x : PCtx) (u : State), Live s dFAB → Begins s r 0x09 anyDesc k x u →
    dFlag u x.desc (bits (dAux0 x.desc) 0 14) = some f → flagSt u f = .ok →
    waitHolds u f (bits (dAux0 x.desc) 14 2) = false → dSpin u x.desc = true →
    ∃ t, exec (.wait r) s = .next t ∧ t.pctx k = some { x.waits u.now (.flag f) with spin := true } ∧
      t = { u with work := { u.work with pctxs := t.work.pctxs } }) ∧
  (∀ (s : State) (r k : Nat) (x : PCtx) (u : State), Live s dFAB → Begins s r 0x0A anyDesc k x u → x.status = none →
    ∃ t, exec (.fence r) s = .next t ∧ DoneOk t k ∧
      t = { u with work := { u.work with pctxs := t.work.pctxs }, regu := t.regu }) ∧
  (∀ (s : State) (r k c : Nat) (x : PCtx) (u : State), Live s dFAB → Begins s r 0x0B anyDesc k x u →
    c = bits (dAux0 x.desc) 0 5 → barEn u c = true → releaseReady u (pctxSrc u k) (dScope x.desc) = true →
    (u.bar c).arrived + 1 < barCount u c →
    ∃ t, exec (.barrier r) s = .next t ∧ (t.bar c).arrived = (u.bar c).arrived + 1 ∧
      (t.bar c).toggle = (u.bar c).toggle ∧ t.pctx k = some (x.waits u.now (.barrier c)) ∧
      (dScope x.desc = 0 → SameMem u t)) ∧
  (∀ (s : State) (r k c : Nat) (x : PCtx) (u : State), Live s dFAB → Begins s r 0x0B anyDesc k x u →
    c = bits (dAux0 x.desc) 0 5 → barEn u c = true → releaseReady u (pctxSrc u k) (dScope x.desc) = true →
    (u.bar c).arrived + 1 = barCount u c →
    ∃ t, exec (.barrier r) s = .next t ∧ (t.bar c).arrived = barCount u c ∧ (t.bar c).toggle = !(u.bar c).toggle ∧
      t.pctx k = some (x.waits u.now (.barrier c))) ∧
  (∀ (s : State) (r k : Nat) (x : PCtx) (u : State), Live s dFAB → Begins s r 0x13 anyDesc k x u → x.status = none →
    ∃ t, exec (.stamp r) s = .next t ∧ DoneOk t k ∧ SameMem u t ∧
      (u.rgBit Reg.evlCtl 0 = true → evlWaiting u (u.src (128 + k / 8)) < 8 →
        (u.evl.stampTc = u.clk.tc → tget 0 u.evl.stamped (u.src (128 + k / 8)) < 32) →
        ∃ e, t.evl.waiting = u.evl.waiting ++ [e] ∧ e.type = 0x0A ∧ e.src = u.src (128 + k / 8) ∧ e.stamp = u.now ∧
          e.arg0 = BitVec.ofNat 64 (dAux2 x.desc))) ∧
  (∀ (s : State) (r k : Nat) (x : PCtx) (u : State), Live s dFAB → Begins s r 0x06 anyDesc k x u → dCtxV x.desc = true →
    dSrc x.desc < 2 ^ 48 → dDst x.desc < 2 ^ 48 → dAux2 x.desc < 2 ^ 48 →
    ∃ t y z, exec (.stream r) s = .next t ∧ t.pctx k = some z ∧ z.done = x.done ∧ z.stream = some y ∧
      y.front.pc = bits (dAux0 x.desc) 0 15 ∧ y.front.prog = bits (dAux0 x.desc) 0 15 ∧ y.front.ra 0 = dSrc x.desc ∧
      y.front.ra 1 = dDst x.desc ∧ y.front.ra 2 = dAux2 x.desc ∧ y.front.rn 0 = dLen x.desc ∧
      y.front.rn 1 = dAux1 x.desc ∧ y.front.levels = [] ∧ y.back = [] ∧
      t = { u with work := { u.work with pctxs := t.work.pctxs } })

/-- INVALIDATE, FLUSH, DIGEST_READ and RELAY's start (R140, R203, R204, R378): without SLC banks a sweep is done and
changes nothing; an INVALIDATE of everything leaves no line, a FLUSH leaves every line, clean; one of a range ends as its lines do;
DIGEST_READ writes the 64 B record it took, and clears the digest where it is told to; a RELAY of length 0 is done, one whose chain
passes the checks holds its links, and a chain that names a die the package lacks is CHAIN_GAP. -/
def Obligations.SweepCommands : Prop :=
  (∀ (s : State) (r k : Nat) (x : PCtx) (u : State), Live s dFAB → slcBanks u = 0 → x.status = none →
    (Begins s r 0x10 anyDesc k x u → ∃ t, exec (.invalidate r) s = .next t ∧ DoneOk t k ∧ SameMem u t) ∧
    (Begins s r 0x11 anyDesc k x u → ∃ t, exec (.flush r) s = .next t ∧ DoneOk t k ∧ SameMem u t)) ∧
  (∀ (s : State) (r k : Nat) (x : PCtx) (u : State), Live s dFAB → Begins s r 0x10 anyDesc k x u → slcBanks u ≠ 0 →
    bit (dAux0 x.desc) 0 = true → x.status = none → (∀ l ∈ u.slc.lines, l.2.dirty = false) →
    ∃ t, exec (.invalidate r) s = .next t ∧ DoneOk t k ∧ t.slc.lines = [] ∧ SameMem u t) ∧
  (∀ (s : State) (r k : Nat) (x : PCtx) (u : State), Live s dFAB → Begins s r 0x11 anyDesc k x u → slcBanks u ≠ 0 →
    bit (dAux0 x.desc) 0 = true → x.status = none → tsorted u.slc.lines = true →
    ∃ t, exec (.flush r) s = .next t ∧ DoneOk t k ∧ (∀ l ∈ t.slc.lines, l.2.dirty = false) ∧
      t.slc.lines.map (·.1) = u.slc.lines.map (·.1)) ∧
  (∀ (s : State) (r k : Nat) (x : PCtx) (u w : State) (e : Option XErr), Live s dFAB → slcBanks u ≠ 0 →
    bit (dAux0 x.desc) 0 = false →
    (Begins s r 0x10 anyDesc k x u →
      sweepSpan (pctxVia u k x) true (dLen x.desc / 128 + 2) (dSrc x.desc) (dLen x.desc) u = (w, e) →
      exec (.invalidate r) s = .next (cmdEnd w k x e)) ∧
    (Begins s r 0x11 anyDesc k x u →
      sweepSpan (pctxVia u k x) false (dLen x.desc / 128 + 2) (dSrc x.desc) (dLen x.desc) u = (w, e) →
      exec (.flush r) s = .next (cmdEnd w k x e))) ∧
  (∀ (s : State) (r k n : Nat) (x : PCtx) (u w v y : State), Live s dFAB → Begins s r 0x12 anyDesc k x u →
    Issues digestReadEff u k x w →
    v = (if bit (dAux0 x.desc) 3 then digestClear w (k / 8) (bits (dAux0 x.desc) 0 3) else w) →
    writeSpan v (pctxVia w k x) false none (dDst x.desc) (allOn (digestRecord w (k / 8) (bits (dAux0 x.desc) 0 3))) =
      (y, none, n) →
    exec (.digestRead r) s = .next (pctxDone y k .ok) ∧
    (∀ z, y.pctx k = some z → z.status = none → DoneOk (pctxDone y k .ok) k) ∧
    (digestRecord w (k / 8) (bits (dAux0 x.desc) 0 3)).length = 64 ∧
    (bit (dAux0 x.desc) 3 = true → (v.digest (k / 8) (bits (dAux0 x.desc) 0 3)).count = 0)) ∧
  (∀ (s : State) (r k : Nat) (x : PCtx) (u w v : State) (b : List Byte), Live s dFAB → Begins s r 0x05 anyDesc k x u →
    Issues relayEff u k x w → dAux2 x.desc % 8 = 0 →
    readSpan w (pctxVia w k x) false (dAux2 x.desc) (16 + 8 * bits (dAux0 x.desc) 0 10) = (v, none, b) →
    (dLen x.desc = 0 → exec (.relay r) s = .next (pctxDone v k .ok)) ∧
    (0 < dLen x.desc → chainCheck v (relayOf x.desc b) = .ok →
      exec (.relay r) s = .next (v.setPctx k { x with wait := none, relay := some (relayOf x.desc b) })) ∧
    (0 < dLen x.desc → (∃ e ∈ (relayOf x.desc b).links, ¬ e.1 ∈ v.build.dies) →
      chainCheck v (relayOf x.desc b) = .chainGap ∧
      exec (.relay r) s = .next (cmdFault v k x (bareErr .chainGap))))

/-- The instructions that only the front executes (R160 to R162, R177): SETA loads a register, ADDA adds to one,
STRIDE sets a stride, LOOP enters a level or skips its body, ENDL adds the strides and goes back or leaves the level,
SEAM opens the guard set, with its range, or behind a NEXT the declare set; each leaves everything but the program's front as it was. -/
def Obligations.StreamRegisters : Prop :=
  (∀ (s : State) (m p i : Nat) (x : PCtx) (y : Stream), Live s dFAB → Fetches s m p 0x05 x y i →
    exec (.seta m p) s = .next (s.setPctx (m % 32 * 8 + p % 8)
      { x with stream := some { y with front := (y.front.setR (bits i 6 5) (bits i 11 48)).stepped } })) ∧
  (∀ (s : State) (m p i : Nat) (x : PCtx) (y : Stream), Live s dFAB → Fetches s m p 0x06 x y i → bits i 6 5 < 16 →
    ∃ f, exec (.adda m p) s = .next (s.setPctx (m % 32 * 8 + p % 8) { x with stream := some { y with front := f } }) ∧
      f.pc = y.front.pc + 1 ∧ f.n = y.front.n ∧ f.strides = y.front.strides ∧ f.levels = y.front.levels ∧
      (bit i 11 = true →
        f.ra (bits i 6 5) = (y.front.ra (bits i 6 5) + y.front.rn (bits i 12 3) * 2 ^ bits i 15 5) % 2 ^ 48) ∧
      (bit i 11 = false →
        (f.ra (bits i 6 5) : Int) = ((y.front.ra (bits i 6 5) : Int) + signed (bits i 20 32) 32) % 2 ^ 48) ∧
      ∀ r, r ≠ bits i 6 5 → f.ra r = y.front.ra r) ∧
  (∀ (s : State) (m p i : Nat) (x : PCtx) (y : Stream), Live s dFAB → Fetches s m p 0x06 x y i → 16 ≤ bits i 6 5 →
    ∃ f, exec (.adda m p) s = .next (s.setPctx (m % 32 * 8 + p % 8) { x with stream := some { y with front := f } }) ∧
      f.pc = y.front.pc + 1 ∧ f.a = y.front.a ∧
      (bit i 11 = true → f.rn (bits i 6 5 - 16) =
        (y.front.rn (bits i 6 5 - 16) + y.front.rn (bits i 12 3) * 2 ^ bits i 15 5) % 2 ^ 32) ∧
      (bit i 11 = false → (f.rn (bits i 6 5 - 16) : Int) =
        ((y.front.rn (bits i 6 5 - 16) : Int) + signed (bits i 20 32) 32) % 2 ^ 32)) ∧
  (∀ (s : State) (m p i : Nat) (x : PCtx) (y : Stream), Live s dFAB → Fetches s m p 0x07 x y i →
    ∃ f, exec (.stride m p) s = .next (s.setPctx (m % 32 * 8 + p % 8) { x with stream := some { y with front := f } }) ∧
      f.pc = y.front.pc + 1 ∧ f.a = y.front.a ∧ f.n = y.front.n ∧ f.levels = y.front.levels ∧
      tget 0 f.strides (6 * bits i 6 4 + bits i 10 3) = signed (bits i 13 32) 32) ∧
  (∀ (s : State) (m p i : Nat) (x : PCtx) (y : Stream), Live s dFAB → Fetches s m p 0x03 x y i →
    y.front.levels.length < 6 → bits (s.instr (y.front.pc + bits i 10 10)).toNat 0 6 = 0x04 →
    ∃ f c, exec (.loop m p) s = .next (s.setPctx (m % 32 * 8 + p % 8) { x with stream := some { y with front := f } }) ∧
      c = (if bit i 6 then y.front.rn (bits i 7 3) else bits i 20 32 + 1) ∧ f.a = y.front.a ∧ f.n = y.front.n ∧
      (c = 0 → f.pc = y.front.pc + bits i 10 10 + 1 ∧ f.levels = y.front.levels) ∧
      (0 < c → f.pc = y.front.pc + 1 ∧ ∃ l, f.levels = l :: y.front.levels ∧ l.trips = c ∧
        l.body = y.front.pc + 1 ∧ l.endl = y.front.pc + bits i 10 10)) ∧
  (∀ (s : State) (m p i : Nat) (x : PCtx) (y : Stream) (l : Level) (r : List Level), Live s dFAB →
    Fetches s m p 0x04 x y i → y.front.levels = l :: r → l.endl = y.front.pc →
    ∃ f, exec (.endl m p) s = .next (s.setPctx (m % 32 * 8 + p % 8) { x with stream := some { y with front := f } }) ∧
      (∀ a, a < 16 → (f.ra a : Int) = ((y.front.ra a : Int) + tget 0 y.front.strides (6 * a + r.length)) % 2 ^ 48) ∧
      f.n = y.front.n ∧ (1 < l.trips → f.pc = l.body ∧ f.levels = { l with trips := l.trips - 1 } :: r) ∧
      (l.trips ≤ 1 → f.pc = y.front.pc + 1 ∧ f.levels = r)) ∧
  (∀ (s : State) (m p i : Nat) (x : PCtx) (y : Stream), Live s dFAB → Fetches s m p 0x19 x y i → y.crossed = false →
    ∃ f, exec (.seam m p) s = .next (s.setPctx (m % 32 * 8 + p % 8) { x with stream := some { y with front := f } }) ∧
      f.pc = y.front.pc + 1 ∧ f.guardSet.isOpen = true ∧ f.declareSet = y.front.declareSet ∧ f.a = y.front.a ∧
      f.n = y.front.n ∧ (bit i 16 = true → f.guardSet.ranges = y.front.guardSet.ranges) ∧
      (bit i 16 = false → ∃ lo hi, tfind f.guardSet.ranges (bits i 6 3) = some (lo, hi) ∧
        lo = y.front.ra (bits i 9 4) / 128 * 128 ∧ (y.front.rn (bits i 13 3) = 0 → hi = lo) ∧
        (0 < y.front.rn (bits i 13 3) → y.front.ra (bits i 9 4) + y.front.rn (bits i 13 3) ≤ hi))) ∧
  (∀ (s : State) (m p i : Nat) (x : PCtx) (y : Stream), Live s dFAB → Fetches s m p 0x19 x y i → y.crossed = true →
    ∃ f, exec (.seam m p) s = .next (s.setPctx (m % 32 * 8 + p % 8) { x with stream := some { y with front := f } }) ∧
      f.pc = y.front.pc + 1 ∧ f.declareSet.isOpen = true ∧ f.guardSet = y.front.guardSet)

/-- The data instructions of a program (R58, R116, R165 to R171, R173 to R175), whose accesses pass the issue point and whose
transfers meet no error, with no digest open: RD puts its bytes behind the stage, WR takes them from its front, COPY, RED, GATH,
SCAT, PWALK and MINT read theirs and write them, and leave the stage; each goes on at the next instruction, its registers advanced
under PI, and changes of the state what its transfer changed. -/
def Obligations.StreamData : Prop :=
  (∀ (s : State) (k : Nat) (x : PCtx) (y : Stream) (a d n e : Nat) (h g : Bool),
    (fetchItem s k x y (.rd a n h)).2.got.bytes = (readSpan s (pctxVia s k x) h a n).2.2 ∧
    (fetchItem s k x y (.copy a d n h g)).2.got.bytes = (readSpan s (pctxVia s k x) h a n).2.2 ∧
    (fetchItem s k x y (.red a d n e)).2.got.bytes = (readSpan s (pctxVia s k x) false a n).2.2) ∧
  ∀ (s : State) (m p i k : Nat) (x z : PCtx) (y : Stream) (f : Front) (r : Reading) (u q w v : State), Live s dFAB →
    k = m % 32 * 8 + p % 8 → y.folds = [] →
    (∀ (n : Nat) (op : BackOp), Fetches s m p 0x08 x y i → n = lenOf y.front (bit i 10) (bits i 11 3) (bits i 16 32) →
      (bit i 14 = false ∨ cmdPriv s x.ring = true) → y.front.unclaimed + n ≤ 32768 →
      f = { (if bit i 15 then y.front.addA (bits i 6 4) n else y.front) with unclaimed := y.front.unclaimed + n }.stepped →
      op = .rd (y.front.ra (bits i 6 4)) n (bit i 14) → u = fronted s k x y f op → ReadsPass u k y f op r q →
      ∃ t, exec (.rd m p) s = .next t ∧ Runs t k { y with front := f, stage := y.stage ++ r.got.bytes, kept := r.kept } ∧
        t = { q with work := t.work }) ∧
    (∀ (n j : Nat) (op : BackOp), Fetches s m p 0x09 x y i → n = lenOf y.front (bit i 10) (bits i 11 3) (bits i 16 32) →
      (bit i 14 = false ∨ cmdPriv s x.ring = true) → n ≤ y.front.unclaimed →
      f = { (if bit i 15 then y.front.addA (bits i 6 4) n else y.front) with unclaimed := y.front.unclaimed - n }.stepped →
      op = .wr (y.front.ra (bits i 6 4)) n (bit i 14) → u = fronted s k x y f op →
      WritesPass u k z { y with front := f, back := [itemAt y.front op] } (itemAt y.front op) w →
      writeSpan (onStream w k (fun b => { b with stage := b.stage.drop n })) (pctxVia w k z) (bit i 14) none
        (y.front.ra (bits i 6 4)) (allOn (y.stage.take n)) = (v, none, j) →
      (∃ b, v.program k = some (b, { y with front := f, back := [itemAt y.front op], stage := y.stage.drop n })) →
      ∃ t, exec (.wr m p) s = .next t ∧ Runs t k { y with front := f, stage := y.stage.drop n } ∧
        t = { v with work := t.work }) ∧
    (∀ (n j : Nat) (op : BackOp), Fetches s m p 0x0A x y i →
      n = lenOf y.front (bit i 14) (bits i 15 3) (bits i 21 32) →
      (bit i 18 = false ∧ bit i 19 = false ∨ cmdPriv s x.ring = true) →
      f = (if bit i 20 then (y.front.addA (bits i 6 4) n).addA (bits i 10 4) n else y.front).stepped →
      op = .copy (y.front.ra (bits i 6 4)) (y.front.ra (bits i 10 4)) n (bit i 18) (bit i 19) →
      u = fronted s k x y f op → ReadsPass u k y f op r q →
      WritesPass q k z (held y f op r) { itemAt y.front op with got := some r.got } w →
      writeSpan { w with freeCtr := w.freeCtr + 1 } (pctxVia w k z) (bit i 19) none (y.front.ra (bits i 10 4))
        (allOn (overlapBytes w.freeCtr (y.front.ra (bits i 6 4)) n (y.front.ra (bits i 10 4)) (bit i 18 == bit i 19)
          (gotPart (y.front.ra (bits i 10 4)) n r.got))) = (v, none, j) →
      (∃ b, v.program k = some (b, held y f op r)) →
      ∃ t, exec (.streamCopy m p) s = .next t ∧ Runs t k { y with front := f, kept := r.kept } ∧
        t = { v with work := t.work }) ∧
    (∀ (n j : Nat) (op : BackOp), Fetches s m p 0x0B x y i →
      n = lenOf y.front (bit i 14) (bits i 15 3) (bits i 21 32) → n % laneBytes (bits i 18 2 + 3) = 0 →
      y.front.ra (bits i 6 4) % laneBytes (bits i 18 2 + 3) = 0 →
      y.front.ra (bits i 10 4) % laneBytes (bits i 18 2 + 3) = 0 →
      f = (if bit i 20 then (y.front.addA (bits i 6 4) n).addA (bits i 10 4) n else y.front).stepped →
      op = .red (y.front.ra (bits i 6 4)) (y.front.ra (bits i 10 4)) n (bits i 18 2) →
      u = fronted s k x y f op → ReadsPass u k y f op r q →
      WritesPass q k z (held y f op r) { itemAt y.front op with got := some r.got } w →
      writeSpan w (pctxVia w k z) false (some (bits i 18 2 + 3)) (y.front.ra (bits i 10 4))
        (allOn (gotPart (y.front.ra (bits i 10 4)) n r.got)) = (v, none, j) →
      (∃ b, v.program k = some (b, held y f op r)) →
      ∃ t, exec (.red m p) s = .next t ∧ Runs t k { y with front := f, kept := r.kept } ∧ t = { v with work := t.work }) ∧
    (∀ (n j : Nat) (op : BackOp), Fetches s m p 0x0C x y i → n = y.front.rn (bits i 18 3) →
      y.front.ra (bits i 6 4) % 4 = 0 → y.front.ra (bits i 10 4) % 2 ^ bits i 21 3 = 0 →
      f = (if bit i 24 then (y.front.addA (bits i 6 4) (4 * n)).addA (bits i 14 4) (n * 2 ^ bits i 21 3)
        else y.front).stepped →
      op = .gath (y.front.ra (bits i 6 4)) (y.front.ra (bits i 10 4)) (y.front.ra (bits i 14 4)) n (bits i 21 3) →
      u = fronted s k x y f op → ReadsPass u k y f op r q →
      WritesPass q k z (held y f op r) { itemAt y.front op with got := some r.got } w →
      writeSpan w (pctxVia w k z) false none (y.front.ra (bits i 14 4))
        (allOn (gotPart (y.front.ra (bits i 14 4)) (n * 2 ^ bits i 21 3) r.got)) = (v, none, j) →
      (∃ b, v.program k = some (b, held y f op r)) →
      ∃ t, exec (.gath m p) s = .next t ∧ Runs t k { y with front := f, kept := r.kept } ∧ t = { v with work := t.work }) ∧
    (∀ (n : Nat) (op : BackOp) (out : List Byte), Fetches s m p 0x0D x y i → n = y.front.rn (bits i 18 3) →
      y.front.ra (bits i 10 4) % 4 = 0 → y.front.ra (bits i 14 4) % 2 ^ bits i 21 3 = 0 →
      f = (if bit i 24 then (y.front.addA (bits i 10 4) (4 * n)).addA (bits i 6 4) (n * 2 ^ bits i 21 3)
        else y.front).stepped →
      op = .scat (y.front.ra (bits i 6 4)) (y.front.ra (bits i 10 4)) (y.front.ra (bits i 14 4)) n (bits i 21 3) →
      u = fronted s k x y f op → ReadsPass u k y f op r q →
      WritesPass q k z (held y f op r) { itemAt y.front op with got := some r.got } w →
      scatWrite (pctxVia w k z) (2 ^ bits i 21 3) (places (y.front.ra (bits i 14 4)) (2 ^ bits i 21 3) r.got.idx)
        r.got.bytes w = (v, none, out) →
      (∃ b, v.program k = some (b, held y f op r)) →
      ∃ t, exec (.scat m p) s = .next t ∧ Runs t k { y with front := f, kept := r.kept } ∧ t = { v with work := t.work }) ∧
    (∀ (np nc g j : Nat) (op : BackOp), Fetches s m p 0x0E x y i → np = y.front.rn (bits i 14 3) →
      nc = y.front.rn (bits i 17 3) → g = bits i 20 4 + 1 → (s.ctx (dCtx x.desc)).kvLen ≠ 0 → np ≤ 16777215 →
      np + nc ≤ (s.ctx (dCtx x.desc)).kvLen * 2 ^ (s.ctx (dCtx x.desc)).kvShift → y.front.ra (bits i 6 4) % 128 = 0 →
      f = (if bit i 24 then (y.front.addN (bits i 14 3) nc).addA (bits i 10 4) (nc * g * 128) else y.front).stepped →
      op = .pwalk (y.front.ra (bits i 6 4)) (y.front.ra (bits i 10 4)) np nc g →
      u = fronted s k x y f op → ReadsPass u k y f op r q →
      WritesPass q k z (held y f op r) { itemAt y.front op with got := some r.got } w →
      writeSpan w (pctxVia w k z) false none (y.front.ra (bits i 10 4))
        (allOn (gotPart (y.front.ra (bits i 10 4)) (nc * g * 128) r.got)) = (v, none, j) →
      (∃ b, v.program k = some (b, held y f op r)) →
      ∃ t, exec (.pwalk m p) s = .next t ∧ Runs t k { y with front := f, kept := r.kept } ∧ t = { v with work := t.work }) ∧
    (∀ (n fc rc : Nat) (op : BackOp) (seed : Option Nat) (adv : Nat × Nat) (o : MRes), Fetches s m p 0x0F x y i →
      (bit i 28 = false ∨ cmdPriv s x.ring = true) →
      n = y.front.rn (bits i 14 3) → fc = y.front.rn (bits i 17 3) → rc = y.front.rn (bits i 20 3) →
      seed = (if bit i 27 then some (y.front.ra (bits i 23 4)) else none) →
      adv = (if bit i 29 then mintPi s k x (mcode fc rc) (y.front.ra (bits i 6 4)) n (bit i 28) else (0, 0)) →
      f = ((y.front.addA (bits i 6 4) adv.1).addA (bits i 10 4) adv.2).stepped →
      op = .mint (y.front.ra (bits i 6 4)) (y.front.ra (bits i 10 4)) n fc rc seed (bit i 28) →
      u = fronted s k x y f op → ReadsPass u k y f op r q →
      WritesPass q k z (held y f op r) { itemAt y.front op with got := some r.got } w →
      mintRun w (pctxVia w k z) (bit i 28) (mcode fc rc) false (y.front.ra (bits i 6 4)) (y.front.ra (bits i 10 4)) n
        (seed.getD y.gen) r.got = (v, o) → o.err = none → o.cause = 0 →
      (∃ b, v.program k = some (b, held y f op r)) →
      ∃ t, exec (.mint m p) s = .next t ∧ Runs t k { y with front := f, gen := o.gen, kept := r.kept } ∧
        t = { v with work := t.work })

/-- The instructions of a program on slots, cheques, flags, scopes, the event ledger and digests (R172, R178, R186 to R188,
R196, R197, R199, R239, R248, R253, R258, R261, R264, R267, R376): SLOTA loads the CVA of the slot it takes, or its front waits;
SLOTR gives its oldest slot back; CHQIN loads a cheque and its CVA, or its front waits; CHQOUT puts one; a WAITF that holds goes on,
one that does not is recorded and registers, or polls under SPIN; SETF and CLRF write their flag, with REL after their release, or
send it to another die; FENCE goes on once its waits are done; STAMP writes a record; DIGEST opens or closes a digest. -/
def Obligations.StreamSync : Prop :=
  ∀ (s : State) (m p i k : Nat) (x : PCtx) (y : Stream), Live s dFAB → k = m % 32 * 8 + p % 8 → y.fwait = none →
    (∀ r sd ad : Nat, Fetches s m p 0x10 x y i → r = bits i 6 12 → sd = bits i 18 1 → ad = bits i 19 4 →
      relayDenied (s.slotRing r) (some (pctxDom s x)) = false → (s.slotRing r).standing = [] → slotWaiters s r sd = [] →
      ((s.slotRing r).avail sd = true → (s.slotRing r).open s.clk.tc sd = true →
        ∃ t j q, exec (.slota m p) s = .next t ∧ (j, q) = slotTake (s.slotRing r) s.clk.tc sd k ∧ t.slotRing r = q ∧
          Runs t k { y with front := (y.front.setA ad ((s.slotRing r).cvaOf j)).stepped, fsince := s.now } ∧ SameMem s t) ∧
      ((s.slotRing r).avail sd = false ∨ (s.slotRing r).open s.clk.tc sd = false →
        ∃ t, exec (.slota m p) s = .next t ∧ Runs t k { y with fwait := some (.slot r sd ad), fsince := s.now } ∧
          t.slotRing r = s.slotRing r ∧ t = { s with work := t.work, float := t.float })) ∧
    (∀ r sc j : Nat, Fetches s m p 0x11 x y i → r = bits i 6 12 → bits i 18 1 = 0 → sc = bits i 19 3 →
      relayDenied (s.slotRing r) (some (pctxDom s x)) = false → (s.slotRing r).oldest 0 k = some j →
      releaseReady s (pctxSrc s k) sc = true →
      ∃ t, exec (.slotr m p) s = .next t ∧ Runs t k { y with front := y.front.stepped } ∧
        (t.slotRing r).holders = (s.slotRing r).holders.erase (k, 0, j) ∧
        (t.slotRing r).full + (t.slotRing r).heldP = (s.slotRing r).full + (s.slotRing r).heldP ∧
        tget 0 (t.slotRing r).filler j = pctxSrc s k ∧ (sc = 0 → HomesUp s → SameMem s t)) ∧
    (∀ r j : Nat, Fetches s m p 0x11 x y i → r = bits i 6 12 → bits i 18 1 = 1 →
      relayDenied (s.slotRing r) (some (pctxDom s x)) = false → (s.slotRing r).oldest 1 k = some j →
      ∃ t, exec (.slotr m p) s = .next t ∧ Runs t k { y with front := y.front.stepped } ∧
        (t.slotRing r).holders = (s.slotRing r).holders.erase (k, 1, j) ∧
        (readsDue s (pctxSrc s k) (some (dCtx x.desc)) ≠ [] →
          (t.slotRing r).creads = (s.slotRing r).creads ++ [(j, readsDue s (pctxSrc s k) (some (dCtx x.desc)))] ∧
          (t.slotRing r).heldC = (s.slotRing r).heldC) ∧
        (t.slotRing r).heldP = (s.slotRing r).heldP ∧ (t.slotRing r).full = (s.slotRing r).full ∧
        (HomesUp s → SameMem s t)) ∧
    (∀ q nd ad : Nat, Fetches s m p 0x12 x y i → q = bits i 6 10 → nd = bits i 16 3 → ad = bits i 19 4 →
      (s.queue q).denied (some (pctxDom s x)) = false → (s.queue q).standing = [] → queueWaiters s q false = [] →
      (∀ (c e : Nat) (l : List (Nat × Nat)), (s.queue q).cheques = (c, e) :: l → (s.queue q).takeTc ≠ some s.clk.tc →
        chqCurrent s c = true → (s.pool (chqPool c)).permits (pctxDom s x) = true →
        ∃ t, exec (.chqin m p) s = .next t ∧ (t.queue q).cheques = l ∧
          Runs t k { y with front := ((y.front.setN nd c).setA ad (chqCva s c)).stepped, fsince := s.now } ∧
          (HomesUp s → SameMem s t)) ∧
      ((s.queue q).cheques = [] →
        ∃ t, exec (.chqin m p) s = .next t ∧ Runs t k { y with fwait := some (.take q nd ad), fsince := s.now } ∧
          t.queue q = s.queue q ∧ t = { s with work := t.work, float := t.float })) ∧
    (∀ q c : Nat, Fetches s m p 0x13 x y i → q = bits i 6 10 → c = y.front.rn (bits i 16 3) →
      releaseReady s (pctxSrc s k) (s.queue q).scope = true → (s.queue q).denied (some (pctxDom s x)) = false →
      chqCurrent s c = true → recalled s c = false → (s.queue q).cheques.length < (s.queue q).depth →
      (s.queue q).standing = [] → queueWaiters s q true = [] → (s.queue q).putTc ≠ some s.clk.tc →
      ∃ t c', exec (.chqout m p) s = .next t ∧ Runs t k { y with front := y.front.stepped } ∧
        (t.queue q).cheques = (s.queue q).cheques ++ [(c', pctxSrc s k)] ∧ chqIndex c' = chqIndex c ∧
        chqPool c' = chqPool c ∧ (t.queue q).puts = ((s.queue q).puts + 1) % 2 ^ 32 ∧
        ((s.queue q).scope = 0 → HomesUp s → SameMem s t)) ∧
    (∀ g mode : Nat, Fetches s m p 0x14 x y i → insFlag s x y.front i = some g → mode = bits i 24 2 →
      (waitHolds s g mode = true → (mode = 2 → ∀ w ∈ s.sync.waiters, w.flag ≠ g) →
        ∃ t, exec (.waitf m p) s = .next t ∧ Runs t k { y with front := y.front.stepped } ∧
          (t.flag g).value = (if mode = 2 then false else (s.flag g).value) ∧ (∀ h, h ≠ g → t.flag h = s.flag h) ∧
          t.sync.waiters = s.sync.waiters ∧ SameMem s t) ∧
      (waitHolds s g mode = false → x.spin = false →
        ∃ t w b, exec (.waitf m p) s = .next t ∧ t.sync.waiters = s.sync.waiters ++ [w] ∧ w.flag = g ∧ w.mode = mode ∧
          w.who = .pctx k ∧ w.acq = bit i 26 ∧ w.scope = bits i 27 3 ∧ t.sync.flags = s.sync.flags ∧
          Runs t k { y with front := y.front.stepped, fwait := some (.flag g), fsince := s.now, back := [b] } ∧
          SameMem s t) ∧
      (waitHolds s g mode = false → x.spin = true →
        ∃ t b, exec (.waitf m p) s = .next t ∧
          Runs t k { y with front := y.front.stepped, fwait := some (.flag g), fsince := s.now, back := [b] } ∧
          t = { s with work := { s.work with pctxs := t.work.pctxs } })) ∧
    (∀ g : Nat, insFlag s x y.front i = some g → (bit i 28 = false ∨ bits i 29 4 = s.pwr.dieId) →
      (bit i 24 = false ∨ releaseReady s (pctxSrc s k) (bits i 25 3) = true) → (∀ w ∈ s.sync.waiters, w.flag ≠ g) →
      (Fetches s m p 0x15 x y i → ∃ t, exec (.setf m p) s = .next t ∧ Runs t k { y with front := y.front.stepped } ∧
        (t.flag g).value = true ∧ (∀ h, h ≠ g → t.flag h = s.flag h) ∧
        (bit i 24 = false ∨ bits i 25 3 = 0 → SameMem s t)) ∧
      (Fetches s m p 0x16 x y i → ∃ t, exec (.clrf m p) s = .next t ∧ Runs t k { y with front := y.front.stepped } ∧
        (t.flag g).value = false ∧ (∀ h, h ≠ g → t.flag h = s.flag h) ∧
        (bit i 24 = false ∨ bits i 25 3 = 0 → SameMem s t))) ∧
    (∀ g d l a : Nat, insFlag s x y.front i = some g → bit i 28 = true → d = bits i 29 4 → d ≠ s.pwr.dieId →
      d ∈ s.build.dies → l = routePort s d → portQuar s l = false → bit i 24 = false →
      laneOrdered s (pctxSrc s k) d (dClass x.desc) (2 ^ 64) = true → linkUp s l = true → (s.link l).waiting = [] →
      creditsUsed s l (dClass x.desc) false < 32 → clampOn s 34 = false →
      a = pullIn s (dClass x.desc) (shortStamp s.now 0) →
      (Fetches s m p 0x15 x y i → ∃ t id, exec (.setf m p) s = .next t ∧ Runs t k { y with front := y.front.stepped } ∧
        t.out = s.out ++ [.control l d (dClass x.desc) (pctxSrc s k) true id a (diePPA d 0xA (8 * g)) 1#64] ∧
        t.sync.flags = s.sync.flags ∧ SameMem s t) ∧
      (Fetches s m p 0x16 x y i → ∃ t id, exec (.clrf m p) s = .next t ∧ Runs t k { y with front := y.front.stepped } ∧
        t.out = s.out ++ [.control l d (dClass x.desc) (pctxSrc s k) true id a (diePPA d 0xA (8 * g)) 0#64] ∧
        t.sync.flags = s.sync.flags ∧ SameMem s t)) ∧
    (Fetches s m p 0x17 x y i → releaseReady s (pctxSrc s k) (bits i 6 3) = true →
      ∃ t, exec (.streamFence m p) s = .next t ∧ Runs t k { y with front := y.front.stepped } ∧
        (bits i 6 3 = 0 → SameMem s t)) ∧
    (Fetches s m p 0x17 x y i → releaseReady s (pctxSrc s k) (bits i 6 3) = false →
      ∃ t, exec (.streamFence m p) s = .next t ∧
        (∃ z, t.pctx k = some z ∧ z.wait = some (.release s.sync.nextKey)) ∧
        (tfind t.sync.releases s.sync.nextKey).map (·.effect) = some .nothing ∧ SameMem s t) ∧
    (Fetches s m p 0x18 x y i → s.rgBit Reg.evlCtl 0 = true → s.evl.waiting = [] → s.evl.stampTc ≠ s.clk.tc →
      ∃ t e, exec (.streamStamp m p) s = .next t ∧ Runs t k { y with front := y.front.stepped } ∧
        t.evl.waiting = [e] ∧ e.type = 0x0A ∧ e.src = s.src (128 + k / 8) ∧ e.stamp = s.now ∧
        e.arg0 = BitVec.ofNat 64 (bits i 9 32 * 2 ^ 32 + y.front.rn (bits i 6 3)) ∧ SameMem s t) ∧
    (Fetches s m p 0x18 x y i → s.rgBit Reg.evlCtl 0 = false →
      ∃ t, exec (.streamStamp m p) s = .next t ∧ Runs t k { y with front := y.front.stepped } ∧ t.evl = s.evl) ∧
    (Fetches s m p 0x1A x y i → bit i 9 = true → bit i 14 = true →
      ∃ t, exec (.digest m p) s = .next t ∧
        Runs t k { y with front := y.front.stepped, folds := tput y.folds (bits i 6 3) (bits i 10 4) } ∧
        t.digest (k / 8) (bits i 6 3) = { digestEmpty with fmt := bits i 10 4 } ∧ SameMem s t) ∧
    (Fetches s m p 0x1A x y i → bit i 9 = false → bit i 14 = false →
      ∃ t, exec (.digest m p) s = .next t ∧
        Runs t k { y with front := y.front.stepped, folds := terase y.folds (bits i 6 3) } ∧
        t = { s with work := { s.work with pctxs := t.work.pctxs } })

/-- The ends of a program (R163, R164, R174 to R181): HALT ends the command; NEXT with a closed seam waits at the back, where its
flag is read; with an open seam the front crosses it along its path; its retirement opens the next program, whose declare set
becomes its guard set, and squashes first what ran ahead on the wrong path; a pending fault writes STRM_FAULTm and ends the command
with its status; an instruction outside its program's 1024 is a fault; a front that keeps 64 writes, or whose next read does not fit
its allowance, stands at an RD. -/
def Obligations.StreamControl : Prop :=
  (∀ (s : State) (m p i k : Nat) (x : PCtx) (y : Stream), Live s dFAB → k = m % 32 * 8 + p % 8 →
    Fetches s m p 0x01 x y i → x.status = none →
    ∃ t, exec (.halt m p) s = .next t ∧ DoneOk t k ∧
      t = { s with work := { s.work with pctxs := t.work.pctxs }, regu := t.regu }) ∧
  (∀ (s : State) (m p i k : Nat) (x : PCtx) (y : Stream), Live s dFAB → k = m % 32 * 8 + p % 8 →
    Fetches s m p 0x02 x y i → y.front.levels = [] → y.front.guardSet.isOpen = false → bits i 21 3 ≤ 2 →
    ∃ t b, exec (.next m p) s = .next t ∧ Runs t k { y with back := [itemAt y.front b] } ∧
      b = .next (if frontTaken y.front i then 0 else 1) 0 (bits i 6 15) (y.front.pc + 1) (frontTaken y.front i) ∧
      t = { s with work := { s.work with pctxs := t.work.pctxs } }) ∧
  (∀ (s : State) (m p i k g : Nat) (x : PCtx) (y : Stream), Live s dFAB → k = m % 32 * 8 + p % 8 →
    Fetches s m p 0x02 x y i → y.front.levels = [] → y.front.guardSet.isOpen = false →
    (bits i 21 3 = 3 ∨ bits i 21 3 = 4) → flagOfIndex s (dCtx x.desc) (bits i 27 14) = some g →
    ∃ t b, exec (.next m p) s = .next t ∧ Runs t k { y with back := [itemAt y.front b] } ∧
      b = .next (if (s.flag g).value = (bits i 21 3 == 3) then 0 else 1) g (bits i 6 15) (y.front.pc + 1) (bit i 41) ∧
      t = { s with work := { s.work with pctxs := t.work.pctxs } }) ∧
  (∀ (s : State) (m p i k : Nat) (x : PCtx) (y : Stream), Live s dFAB → k = m % 32 * 8 + p % 8 →
    Fetches s m p 0x02 x y i → y.front.levels = [] → y.front.guardSet.isOpen = true → bits i 21 3 ≤ 2 →
    ∃ t v, exec (.next m p) s = .next t ∧ Runs t k v ∧ v.crossed = true ∧ v.check = none ∧
      v.front = nextFront y.front (frontTaken y.front i) (bits i 6 15) ∧ SameMem s t) ∧
  (∀ (s : State) (m p i k g : Nat) (x : PCtx) (y : Stream), Live s dFAB → k = m % 32 * 8 + p % 8 →
    Fetches s m p 0x02 x y i → y.front.levels = [] → y.front.guardSet.isOpen = true →
    (bits i 21 3 = 3 ∨ bits i 21 3 = 4) → flagOfIndex s (dCtx x.desc) (bits i 27 14) = some g →
    ∃ t v, exec (.next m p) s = .next t ∧ Runs t k v ∧ v.crossed = true ∧ v.check = none ∧
      v.front = nextFront y.front ((s.flag g).value == (bits i 21 3 == 3)) (bits i 6 15) ∧ SameMem s t) ∧
  (∀ (s : State) (m p k target nt c flag : Nat) (pred : Bool) (x : PCtx) (y : Stream) (b : BackItem), Live s dFAB →
    k = m % 32 * 8 + p % 8 → s.program k = some (x, y) → moverPrograms s (m % 32) = [(k, x)] → backWaits x = false →
    y.back = [b] → b.op = .next c flag target nt pred → b.got = none → c ≤ 1 → releaseReady s (pctxSrc s k) 1 = true →
    ∃ t v, exec (.nextRetire m p) s = .next t ∧ Runs t k v ∧ v.back = [] ∧ v.crossed = false ∧
      v.front = seamShift (if y.crossed then y.front else nextFront y.front (c == 0) target) ∧ v.stage = y.stage ∧
      t = { s with work := { s.work with pctxs := t.work.pctxs } }) ∧
  (∀ (s : State) (m p k target nt flag : Nat) (pred : Bool) (x : PCtx) (y : Stream) (f : Front) (b : BackItem)
    (l : List BackItem), Live s dFAB → k = m % 32 * 8 + p % 8 → s.program k = some (x, y) →
    moverPrograms s (m % 32) = [(k, x)] → backWaits x = false → y.check = some f → y.crossed = true → y.back = b :: l →
    b.op = .next 3 flag target nt pred → b.got = none →
    (∀ a ∈ l, isWaitf a = false ∧ (itemReads a = false ∨ a.got.isSome = true)) → pred = !(s.flag flag).value →
    releaseReady s (pctxSrc s k) 1 = true →
    ∃ t v, exec (.nextRetire m p) s = .next t ∧ Runs t k v ∧ v.back = [] ∧ v.check = none ∧ v.crossed = false ∧
      v.front = seamShift (nextFront f (s.flag flag).value target) ∧ SameMem s t) ∧
  (∀ (s : State) (m p k : Nat) (st : Status) (a : DWord) (cva host : Bool) (x : PCtx) (y : Stream) (b : BackItem)
    (l : List BackItem), Live s dFAB → k = m % 32 * 8 + p % 8 → s.program k = some (x, y) →
    moverPrograms s (m % 32) = [(k, x)] → y.back = b :: l → b.op = .fault st a cva host → b.got = none → stOk st = false →
    x.status = none →
    ∃ t, exec (.pendingFaultTake m p) s = .next t ∧ DoneWith t k st ∧
      t.rg (Reg.strmFault (k / 8)) = 2 ^ 31 + k % 8 * 2 ^ 28 + stCode st * 2 ^ 20 + b.pc % 32768 ∧
      t.rg (Reg.strmFaultp (k / 8)) = b.prog % 2 ^ 32 ∧ SameMem s t) ∧
  (∀ (s : State) (m p k : Nat) (x : PCtx) (y : Stream), Live s dFAB → k = m % 32 * 8 + p % 8 →
    s.program k = some (x, y) → moverPrograms s (m % 32) = [(k, x)] → y.back = [] → frontStands y = false →
    y.check = none → y.crossed = false → (y.front.pc < y.front.prog ∨ y.front.prog + 1023 < y.front.pc) →
    ∃ t v, exec (.halt m p) s = .next t ∧ Runs t k v ∧ v.halted = true ∧
      v.back = [itemAt y.front (.fault .faultProt 0#64 false false)] ∧ SameMem s t) ∧
  (∀ (s : State) (m p k : Nat) (x : PCtx) (y : Stream), Live s dFAB → k = m % 32 * 8 + p % 8 →
    s.program k = some (x, y) → streamGo s (m % 32) = s →
    (64 ≤ (y.back.filter itemWrites).length ∨
      ∃ l b r, y.back = l ++ b :: r ∧ l ≠ [] ∧ (∀ a ∈ l, itemFails a = false ∧ (itemReads a = false ∨ a.got.isSome = true)) ∧
        itemFails b = false ∧ itemReads b = true ∧ b.got = none ∧ readHeld s k x y l b.op = false ∧
        runFits s k y (l.any isNext) (itemHeld { b with got := some (fetchItem s k x y b.op).2.got }) = false) →
    exec (.rd m p) s = .next s)

/-- Slot rings (R184, R186 to R191): EN written to 1 with a good set-up clears the counts and enables the ring, with a
bad one it sets CFG_ERR; EN written to 0 with nobody waiting ends every hold and changes no count; a waiting acquire
takes a slot that is free, at most one of a side in a tc; a consumer's release counts once its reads have returned. -/
def Obligations.SlotRings : Prop :=
  (∀ (s : State) (r : Nat) (v : DWord), r < 4096 → Live s dFAB → bit v.toNat 0 = true → (s.slotRing r).en = false →
    slotSetupOk s { s.slotRing r with cfg := BitVec.ofNat 64 (v.toNat &&& slotCfgMask) } = true →
    ∃ t, exec (.slotRingEnable r v) s = .next t ∧ (t.slotRing r).en = true ∧ (t.slotRing r).heldP = 0 ∧
      (t.slotRing r).full = 0 ∧ (t.slotRing r).heldC = 0 ∧ (t.slotRing r).holders = [] ∧
      (t.slotRing r).base = (s.slotRing r).base ∧ (∀ q, q ≠ r → t.slotRing q = s.slotRing q) ∧
      t = { touch s dFAB with float := t.float, tableMark := t.tableMark }) ∧
  (∀ (s : State) (r : Nat) (v : DWord), r < 4096 → Live s dFAB → bit v.toNat 0 = true → (s.slotRing r).en = false →
    slotSetupOk s { s.slotRing r with cfg := BitVec.ofNat 64 (v.toNat &&& slotCfgMask) } = false →
    ∃ t, exec (.slotRingEnable r v) s = .next t ∧ (t.slotRing r).en = false ∧ (t.slotRing r).cfgErr = true ∧
      t = { touch s dFAB with float := t.float }) ∧
  (∀ (s : State) (r : Nat) (v : DWord), r < 4096 → Live s dFAB → bit v.toNat 0 = false → (s.slotRing r).en = true →
    slotWaiters s r 0 = [] → slotWaiters s r 1 = [] → (s.slotRing r).engP = [] → (s.slotRing r).engC = [] →
    ∃ t, exec (.slotRingDisable r v) s = .next t ∧ (t.slotRing r).en = false ∧ (t.slotRing r).holders = [] ∧
      (t.slotRing r).full = (s.slotRing r).full ∧ (t.slotRing r).heldP = (s.slotRing r).heldP ∧
      (t.slotRing r).opErr = (s.slotRing r).opErr ∧ t = { touch s dFAB with float := t.float, sync := t.sync }) ∧
  (∀ (s : State) (r sd k ad : Nat) (w : Stand) (x : PCtx) (y : Stream), r < 4096 → sd < 2 → Live s dFAB →
    (s.slotRing r).en = true → (s.slotRing r).avail sd = true → (s.slotRing r).open s.clk.tc sd = true →
    slotWaiters s r sd = [w] → w.who = .front k ad → s.pctx k = some x → x.stream = some y →
    ∃ t j q, exec (.slotAcquireRetry r sd) s = .next t ∧ (j, q) = slotTake (s.slotRing r) s.clk.tc sd k ∧
      t.slotRing r = { q with standing := q.standing.erase w } ∧
      t.pctx k = some { x with stream := some { y with
        fwait := none, front := (y.front.setA ad ((s.slotRing r).cvaOf j)).stepped } } ∧ SameMem s t) ∧
  (∀ (s : State) (r sd : Nat), r < 4096 → sd < 2 → Live s dFAB →
    ((s.slotRing r).avail sd = false → (s.slotRing r).standing = [] →
      ∃ t, exec (.slotAcquireRetry r sd) s = .next t ∧ t.slotRing r = s.slotRing r ∧ t = { s with float := t.float }) ∧
    ((s.slotRing r).avail sd = true → (s.slotRing r).open s.clk.tc sd = false →
      exec (.slotAcquireRetry r sd) s = .next s)) ∧
  (∀ (s : State) (r j : Nat) (ids : List Nat), r < 4096 → Live s dFAB → (s.slotRing r).en = true →
    (s.slotRing r).creads = [(j, ids)] → readsDone s ids = true → (s.slotRing r).cdone = [] → (s.slotRing r).cr = j →
    0 < (s.slotRing r).heldC →
    ∃ t, exec (.slotConsumerReleaseDone r j) s = .next t ∧ (t.slotRing r).creads = [] ∧
      (t.slotRing r).heldC = (s.slotRing r).heldC - 1 ∧ (t.slotRing r).cr = (j + 1) % (s.slotRing r).count ∧
      (t.slotRing r).full = (s.slotRing r).full ∧ (t.slotRing r).freed.1 = s.clk.tc ∧
      (HomesUp s → SameMem s t)) ∧
  (∀ (s : State) (r j : Nat) (ids : List Nat), r < 4096 → Live s dFAB → (s.slotRing r).creads = [(j, ids)] →
    readsDone s ids = false → exec (.slotConsumerReleaseDone r j) s = .next s)

/-- Cheques (R193 to R199): a pool enabled with a good set-up has its generations at 0 and, under SEED, its free queue
filled in index order while it has room; RECALL advances one generation (and ignores an index at or above COUNT, the model's
choice: log 76); a queue is enabled empty, and disabled loses its cheques; PUT, once its release is done, appends a current cheque,
notes a stale one or one that is recalled in the same tc, drops one that finds the queue full, and a disabled queue answers
FAULT_PROT; a waiting put or take goes on; the control words answer by their offset. -/
def Obligations.Cheques : Prop :=
  (∀ (s : State) (p : Nat) (v : DWord) (y : Pool), p < 256 → Live s dFAB → bit v.toNat 0 = true →
    (s.pool p).en = false → y = { s.pool p with cfg := BitVec.ofNat 64 (v.toNat % 2 ^ 19 / 2 * 2) } →
    poolSetupOk s p y = true →
    ∃ t, exec (.chequePoolEnable p v) s = .next t ∧ (t.pool p).en = true ∧ (t.pool p).cfgErr = (s.pool p).cfgErr ∧
      (∀ e, y.gbase ≤ e → e < y.gbase + y.count → t.gen e = 0) ∧
      (∀ e, (e < y.gbase ∨ y.gbase + y.count ≤ e) → t.gen e = s.gen e) ∧
      (y.seed = true → (t.queue y.freeq).cheques.length = (s.queue y.freeq).cheques.length +
        min y.count ((s.queue y.freeq).depth - (s.queue y.freeq).cheques.length)) ∧
      (y.seed = false → t = { touch s dFAB with float := t.float, tableMark := t.tableMark }) ∧ (HomesUp s → SameMem s t)) ∧
  (∀ (s : State) (p : Nat) (v : DWord), p < 256 → Live s dFAB → bit v.toNat 0 = true → (s.pool p).en = false →
    poolSetupOk s p { s.pool p with cfg := BitVec.ofNat 64 (v.toNat % 2 ^ 19 / 2 * 2) } = false →
    ∃ t, exec (.chequePoolEnable p v) s = .next t ∧ (t.pool p).en = false ∧ (t.pool p).cfgErr = true ∧
      t = { touch s dFAB with float := t.float }) ∧
  (∀ (s : State) (p e : Nat) (v : DWord), p < 256 → Live s dFAB → v.toNat % 2 ^ 20 < (s.pool p).count →
    e = (s.pool p).gbase + v.toNat % 2 ^ 20 → e < 1048576 →
    ∃ t, exec (.recall p v) s = .next t ∧ t.gen e = (s.gen e + 1) % 16 ∧ (∀ f, f ≠ e → t.gen f = s.gen f) ∧
      t = { touch s dFAB with float := t.float }) ∧
  (∀ (s : State) (p : Nat) (v : DWord), p < 256 → Live s dFAB → (s.pool p).count ≤ v.toNat % 2 ^ 20 →
    exec (.recall p v) s = .next (touch s dFAB)) ∧
  (∀ (s : State) (q : Nat) (v : DWord), q < 1024 → Live s dFAB → bit v.toNat 0 = true → (s.queue q).en = false →
    ∃ t, exec (.chequeQueueEnable q v) s = .next t ∧
      (queueSetupOk s v.toNat = true → (t.queue q).en = true ∧ (t.queue q).cheques = [] ∧ (t.queue q).puts = 0) ∧
      (queueSetupOk s v.toNat = false → (t.queue q).en = false ∧ (t.queue q).cfgErr = true) ∧
      (∀ o, o ≠ q → t.queue o = s.queue o) ∧
      t = { touch s dFAB with float := t.float, tableMark := t.tableMark }) ∧
  (∀ (s : State) (q : Nat) (v : DWord), q < 1024 → Live s dFAB → bit v.toNat 0 = false → (s.queue q).en = true →
    ∃ t, exec (.chequeQueueDisable q v) s = .next t ∧ (t.queue q).en = false ∧ (t.queue q).cheques = [] ∧
      (t.queue q).engT = [] ∧ (t.queue q).engP = [] ∧ (HomesUp s → SameMem s t)) ∧
  (∀ (s : State) (q c src : Nat) (v : DWord), q < 1024 → Live s dFAB → c = v.toNat % 2 ^ 32 → (s.queue q).en = true →
    releaseReady s src (s.queue q).scope = true → s.tableMark = [] → chqCurrent s c = true → recalled s c = false →
    (s.queue q).cheques.length < (s.queue q).depth → (s.queue q).standing = [] → queueWaiters s q true = [] →
    (s.queue q).putTc ≠ some s.clk.tc →
    ((s.pool (chqPool c)).freeq ≠ q → (s.queue q).engT = [] → (s.queue q).engP = [] →
      ∃ t, exec (.put q v src) s = .next t ∧ (t.queue q).cheques = (s.queue q).cheques ++ [(c, src)] ∧
        (t.queue q).puts = ((s.queue q).puts + 1) % 2 ^ 32 ∧ t.float.gens = s.float.gens ∧
        ((s.queue q).scope = 0 → t = { touch s dFAB with float := t.float, out := s.out ++ [.reply .ok 0#64] })) ∧
    ((s.pool (chqPool c)).freeq = q →
      ∃ t, exec (.put q v src) s = .next t ∧ t.gen (chqEntry s c) = (s.gen (chqEntry s c) + 1) % 16 ∧
        (t.queue q).cheques = (s.queue q).cheques ++ [(putBits c 28 4 ((s.gen (chqEntry s c) + 1) % 16), src)] ∧
        ((s.queue q).scope = 0 → HomesUp s → SameMem s t))) ∧
  (∀ (s : State) (q c src : Nat) (v : DWord), q < 1024 → Live s dFAB → c = v.toNat % 2 ^ 32 → (s.queue q).en = true →
    releaseReady s src (s.queue q).scope = true → s.tableMark = [] → (chqCurrent s c = false ∨ recalled s c = true) →
    ∃ t, exec (.put q v src) s = .next t ∧ (t.queue q).cheques = (s.queue q).cheques ∧ (t.queue q).putStale = true ∧
      (t.pool (chqPool c)).stale = min ((s.pool (chqPool c)).stale + 1) 0xFFFFFFFF ∧
      t.rgBit Reg.syncErrStatus 1 = true) ∧
  (∀ (s : State) (q c src : Nat) (v : DWord), q < 1024 → Live s dFAB → c = v.toNat % 2 ^ 32 → (s.queue q).en = true →
    releaseReady s src (s.queue q).scope = true → s.tableMark = [] → chqCurrent s c = true → recalled s c = false →
    (s.queue q).depth ≤ (s.queue q).cheques.length →
    ∃ t, exec (.put q v src) s = .next t ∧ (t.queue q).cheques = (s.queue q).cheques ∧ (t.queue q).putDrop = true ∧
      ((s.queue q).scope = 0 → t = { touch s dFAB with float := t.float, out := s.out ++ [.reply .ok 0#64] })) ∧
  (∀ (s : State) (q src : Nat) (v : DWord), q < 1024 → Live s dFAB → (s.queue q).en = false →
    exec (.put q v src) s = .next ((touch s dFAB).emit (.reply .faultProt 0#64))) ∧
  (∀ (s : State) (q k c : Nat) (w : Stand) (x : PCtx) (y : Stream), q < 1024 → Live s dFAB → s.pctx k = some x →
    queueWaiters s q true = [w] → w.who = .back k c → x.stream = some y → s.tableMark = [] →
    (s.queue q).denied (some (dDomain s x.desc)) = false → chqCurrent s c = true → recalled s c = false →
    (s.queue q).cheques.length < (s.queue q).depth → (s.queue q).putTc ≠ some s.clk.tc →
    ∃ t, exec (.chequeWaitRetry q true) s = .next t ∧
      (t.queue q).cheques.length = (s.queue q).cheques.length + 1 ∧
      t.pctx k = some { x with wait := none, stream := some { y with back := y.back.drop 1 } } ∧
      (HomesUp s → SameMem s t)) ∧
  (∀ (s : State) (q k c e nd ad : Nat) (l : List (Nat × Nat)) (w : Stand) (x : PCtx) (y : Stream), q < 1024 →
    Live s dFAB → s.pctx k = some x → queueWaiters s q false = [w] → w.who = .front k ad → x.stream = some y →
    y.fwait = some (.take q nd ad) → s.tableMark = [] → (s.queue q).en = true → (s.queue q).takeTc ≠ some s.clk.tc →
    (s.queue q).cheques = (c, e) :: l → chqCurrent s c = true →
    (s.pool (chqPool c)).permits (dDomain s x.desc) = true →
    ∃ t, exec (.chequeWaitRetry q false) s = .next t ∧ (t.queue q).cheques = l ∧
      t.pctx k = some { x with stream := some { y with
        fwait := none, front := ((y.front.setN nd c).setA ad (chqCva s c)).stepped } } ∧
      (HomesUp s → SameMem s t)) ∧
  (∀ (s : State) (o src : Nat) (v : DWord), Live s dFAB → (o % 8 ≠ 0 ∨ 0x54000 ≤ o) →
    exec (.slotChequeControlWrite o v src) s =
      .next ((touch s dFAB).emit (.reply (if o % 8 ≠ 0 then .faultAlign else .faultProt) 0#64))) ∧
  (∀ (s : State) (r src : Nat) (v : DWord), r < 4096 → Live s dFAB →
    ∃ t, exec (.slotChequeControlWrite (64 * r + 8) v src) s = .next t ∧ t.out = s.out ++ [.reply .ok 0#64] ∧
      (t.slotRing r).base = (if (s.slotRing r).en then (s.slotRing r).base else BitVec.ofNat 64 (v.toNat % 2 ^ 56)) ∧
      (∀ q, q ≠ r → t.slotRing q = s.slotRing q) ∧ t = { touch s dFAB with float := t.float, out := t.out })

/-- Relays (R116, R203 to R207): a reservation takes a producer slot at a ring of this die, or stands there, or its header goes
on to the next die; the header of another die's relay stands at its ring, gets its slot and returns the grant, or its error is
reported; a granted piece of one granule is read once and written into its slot; a link's last release ends the relay; a link of
another die's relay frees its slot and reports it; a reported error ends a relay with no piece left with that status. -/
def Obligations.Relays : Prop :=
  (∀ (s : State) (m p k n r : Nat) (x : PCtx) (y : Relay), Live s dFAB → k = m % 32 * 8 + p % 8 → s.pctx k = some x →
    x.relay = some y → relayMoves s k x y = true → y.resvAt < y.links.length → relayFromHere s y y.resvAt = true →
    y.link y.resvAt = (s.pwr.dieId, n, r) → r < 4096 → s.tableMark = [] → relayDenied (s.slotRing r) (relayDom s x) = false →
    (y.resv = 0 → y.piece ≤ (s.slotRing r).size) → (s.slotRing r).standing = [] → slotWaiters s r 0 = [] →
    ((s.slotRing r).avail 0 = true → (s.slotRing r).open s.clk.tc 0 = true →
      ∃ t j q, exec (.relayReservation m p none) s = .next t ∧ (j, q) = slotTake (s.slotRing r) s.clk.tc 0 k ∧
        t.slotRing r = q ∧ t.pctx k = some { x with relay := some { y with
          slots := y.slots ++ [(y.resv, y.resvAt, j)], resvAt := y.resvAt + 1 } } ∧ SameMem s t) ∧
    ((s.slotRing r).avail 0 = false ∨ (s.slotRing r).open s.clk.tc 0 = false →
      ∃ t w, exec (.relayReservation m p none) s = .next t ∧ (t.slotRing r).standing = [w] ∧
        w.who = .relay k y.resvAt ∧ t = { s with float := t.float })) ∧
  (∀ (s : State) (m p k l : Nat) (e : Nat × Nat × Nat) (x : PCtx) (y : Relay), Live s dFAB → k = m % 32 * 8 + p % 8 →
    s.pctx k = some x → x.relay = some y → relayMoves s k x y = true → y.resvAt < y.links.length →
    relayFromHere s y y.resvAt = true → y.link y.resvAt = e → e.1 ≠ s.pwr.dieId → l = routePort s e.1 → portQuar s l = false →
    linkUp s l = true → (s.link l).waiting = [] → creditsUsed s l (dClass x.desc) false < 32 → clampOn s 34 = false →
    ∃ t, exec (.relayReservation m p none) s = .next t ∧
      t.pctx k = some { x with relay := some (y.passed (y.resvAt + 1)) } ∧
      t.out = s.out ++ [.relay l e.1 (dClass x.desc) k (.header (relayHop s x y y.resv y.resvAt))] ∧ SameMem s t) ∧
  (∀ (s : State) (m p k r : Nat) (h : RelayHop), Live s dFAB → k = m % 32 * 8 + p % 8 → h.die ≠ s.pwr.dieId →
    r = hopRing h → s.tableMark = [] → relayDenied (s.slotRing r) h.dom = false →
    (h.piece = 0 → h.size ≤ (s.slotRing r).size) →
    ∃ t w, exec (.relayReservation m p (some h)) s = .next t ∧
      (t.slotRing r).standing = (s.slotRing r).standing ++ [w] ∧ w.who = .hop k h ∧ t = { s with float := t.float }) ∧
  (∀ (s : State) (m p k r l : Nat) (h : RelayHop), Live s dFAB → k = m % 32 * 8 + p % 8 → h.die ≠ s.pwr.dieId →
    r = hopRing h → s.tableMark = [] → relayDenied (s.slotRing r) h.dom = true → l = routePort s h.die →
    linkUp s l = true → (s.link l).waiting = [] → creditsUsed s l h.lane true < 32 → clampOn s 34 = false →
    ∃ t, exec (.relayReservation m p (some h)) s = .next t ∧ (t.slotRing r).opErr = true ∧
      t.out = s.out ++ [.relay l h.die h.lane k (.failed h.link .faultProt)] ∧ SameMem s t) ∧
  (∀ (s : State) (r k l : Nat) (h : RelayHop) (w : Stand), r < 4096 → Live s dFAB → (s.slotRing r).en = true →
    (s.slotRing r).avail 0 = true → (s.slotRing r).open s.clk.tc 0 = true → slotWaiters s r 0 = [w] → w.who = .hop k h →
    (hopNext h).chain = [] → l = routePort s h.die → linkUp s l = true → (s.link l).waiting = [] →
    creditsUsed s l h.lane true < 32 → clampOn s 34 = false →
    ∃ t, exec (.slotAcquireRetry r 0) s = .next t ∧ (t.slotRing r).heldP = (s.slotRing r).heldP + 1 ∧
      t.out = s.out ++ [.relay l h.die h.lane k (.grant h.piece)] ∧ SameMem s t) ∧
  (∀ (s u v w a : State) (m p k n r j c : Nat) (x z : PCtx) (y g : Relay) (b : List Byte), Live s dFAB →
    k = m % 32 * 8 + p % 8 → s.pctx k = some x → x.relay = some y → relayMoves s k x y = true →
    moverQuar s (k / 8) = false → y.links = [(s.pwr.dieId, n, r)] → r < 4096 → y.resv = 0 → y.resvAt = 1 →
    y.slots = [(0, 0, j)] → y.srcRing = none → g = { y.passed 1 with granted := true } →
    z = { x with relay := some g } →
    issueRun (s.setPctx k z) (.pctx k false) (pctxRq s k z) x.issued (fun t => (pieceRead t k z g).1) = (u, c, true) →
    pieceRead u k z g = (v, none, b) → 0 < b.length → b.length ≤ 128 → v.pwr.dieId = s.pwr.dieId →
    a = v.setPctx k { z with
      relay := some { g with resv := 1, resvAt := 0, granted := false, srcSlot := none, sent := 1 },
      wait := none, issued := 0 } →
    linkWrite { src := s.pwr.dieId * 256 + 128 + k / 8, ctx := none, cls := some (dClass x.desc),
                dl := some (shortStamp s.now (dDeadline x.desc)) }
      (b.length / 128 + 2) ((a.slotRing r).ppa j) b a = (w, none) →
    exec (.relayGrant m p) s = .next w) ∧
  (∀ (s : State) (m p k n r j : Nat) (x : PCtx) (y : Relay), Live s dFAB → k = m % 32 * 8 + p % 8 → s.pctx k = some x →
    x.relay = some y → x.done = false → x.status = none → y.links = [(s.pwr.dieId, n, r)] → r < 4096 →
    y.slots = [(0, 0, j)] → 0 < y.sent → y.pieces ≤ y.resv → releaseReady s (pctxSrc s k) (s.slotRing r).scope = true →
    relayDenied (s.slotRing r) (relayDom s x) = false → (k, 0, j) ∈ (s.slotRing r).holders →
    ∃ t, exec (.relayLinkRelease m p 0 none) s = .next t ∧ DoneOk t k ∧
      (t.slotRing r).holders = (s.slotRing r).holders.erase (k, 0, j) ∧
      (t.slotRing r).full + (t.slotRing r).heldP = (s.slotRing r).full + (s.slotRing r).heldP ∧
      ((s.slotRing r).scope = 0 → HomesUp s → SameMem s t)) ∧
  (∀ (s : State) (m p k i j r l : Nat) (h : RelayHop), Live s dFAB → k = m % 32 * 8 + p % 8 → h.die ≠ s.pwr.dieId →
    r = hopRing h → relayDenied (s.slotRing r) h.dom = false → (s.slotRing r).oldest 0 (holdFar h.die k) = some j →
    releaseReady s (h.die * 256 + 128 + k / 8) (s.slotRing r).scope = true → l = routePort s h.die → linkUp s l = true →
    (s.link l).waiting = [] → creditsUsed s l h.lane true < 32 → clampOn s 34 = false →
    HomesUp s → ∃ t, exec (.relayLinkRelease m p i (some h)) s = .next t ∧
      t.out = s.out ++ [.relay l h.die h.lane k (.released h.link h.piece)] ∧
      (t.slotRing r).holders = (s.slotRing r).holders.erase (holdFar h.die k, 0, j) ∧ SameMem s t) ∧
  (∀ (s : State) (m p k l : Nat) (st : Status) (x : PCtx) (y : Relay), Live s dFAB → k = m % 32 * 8 + p % 8 →
    s.pctx k = some x → x.relay = some y → x.done = false → x.status = none → stOk st = false →
    (∀ e ∈ y.slots, e.2.1 = l) →
    ∃ t, exec (.relayErrorReport m p l st) s = .next t ∧ DoneWith t k st ∧ SameMem s t)

/-- The flag store (R249, R252, R257 to R259, R261, R262, R264, R239, R265, R266, R309): an aligned 8 B write sets the value
with LAST and CHANGES where it changes, satisfies the waits it meets and is answered; another width or alignment, an offset
past the flags and an uncorrectable word change no flag; operations of one tc go by source; a remote write follows its lane; a
due spin poll that is first ranked goes on when its wait holds; a release performs its flag once its waits are done; a quiescent
node's lend signal rises. -/
def Obligations.FlagStore : Prop :=
  (∀ (s : State) (off f src : Nat) (v : List Byte), off = 8 * f → v.length = 8 → f < 16384 → Live s dFAB → s.tableMark = [] →
    (∀ w ∈ s.sync.waiters, w.flag ≠ f) →
    ∃ t, exec (.flagsWrite off v src) s = .next t ∧
      t.flag f = (if (s.flag f).value = bit (ofBytes v) 0 then s.flag f
        else { value := bit (ofBytes v) 0, last := src % 4096, changes := ((s.flag f).changes + 1) % 2 ^ 32 }) ∧
      (∀ g, g ≠ f → t.flag g = s.flag g) ∧ t.sync.waiters = s.sync.waiters ∧ t.work = s.work ∧
      t.out = s.out ++ [.reply .ok 0#64] ∧ SameMem s t) ∧
  (∀ (s : State) (off f src k : Nat) (v : List Byte) (w : Waiter) (x : PCtx), off = 8 * f → v.length = 8 → f < 16384 → Live s dFAB →
    s.tableMark = [] → bit (ofBytes v) 0 = true → s.sync.waiters = [w] → w.flag = f → (w.mode = 0 ∨ w.mode = 2) →
    w.who = .pctx k → s.pctx k = some x → x.stream = none →
    ∃ t, exec (.flagsWrite off v src) s = .next t ∧ t.sync.waiters = [] ∧ (t.flag f).value = (w.mode == 0) ∧
      t.pctx k = some { x with wait := none, done := true } ∧ SameMem s t) ∧
  (∀ (s : State) (off f src token port c node : Nat) (v : List Byte) (w : Waiter), off = 8 * f → v.length = 8 → f < 16384 → Live s dFAB →
    s.tableMark = [] → bit (ofBytes v) 0 = false → s.sync.waiters = [w] → w.flag = f → w.mode = 1 →
    w.who = .engine token port c node → isUp s (dHome node) = true →
    ∃ t, exec (.flagsWrite off v src) s = .next t ∧ t.sync.waiters = [] ∧ (t.flag f).value = false ∧
      t.sync.wakes = s.sync.wakes ++ [
        { node := node, kind := 0, id := token, status := .ok, acq := if w.acq = true then some (port, w.scope) else none }] ∧ t.work = s.work ∧ SameMem s t) ∧
  (∀ (s : State) (off src : Nat) (v : List Byte), Live s dFAB → off < 0x20000 → (v.length ≠ 8 ∨ off % 8 ≠ 0) →
    exec (.flagsWrite off v src) s = .next ((touch s dFAB).emit (.reply .faultAlign 0#64))) ∧
  (∀ (s : State) (off src : Nat) (v : List Byte), Live s dFAB → 0x20000 ≤ off →
    exec (.flagsWrite off v src) s = .next ((touch s dFAB).emit (.reply .faultProt 0#64))) ∧
  (∀ (s : State) (off f src : Nat) (v : List Byte), off = 8 * f → v.length = 8 → f < 16384 → Live s dFAB → tableBad s .flag f = true →
    ∃ t o, exec (.flagsWrite off v src) s = .next t ∧ t.sync = s.sync ∧ t.out = s.out ++ o ++ [.reply .eccUncorr 0#64] ∧
      t.tableMark = s.tableMark) ∧
  (∀ (s : State) (f a b : Nat) (p q : Bool), f < 16384 → Live s dFAB → s.tableMark = [] →
    (∀ w ∈ s.sync.waiters, w.flag ≠ f) → a < b →
    ∃ t, exec (.flagOperationPerform f [(b, q), (a, p)]) s = .next t ∧ (t.flag f).value = q ∧
      (∀ g, g ≠ f → t.flag g = s.flag g) ∧ t.work = s.work ∧ SameMem s t) ∧
  (∀ (s : State) (f src lane : Nat) (v : DWord), f < 16384 → Live s dFAB → s.tableMark = [] →
    (∀ w ∈ s.sync.waiters, w.flag ≠ f) → laneBusy s lane = false →
    ∃ t, exec (.remoteFlagWrite f v src lane) s = .next t ∧ (t.flag f).value = bit v.toNat 0 ∧
      (∀ g, g ≠ f → t.flag g = s.flag g) ∧ t.out = s.out ++ [.reply .ok 0#64] ∧ SameMem s t) ∧
  (∀ (s : State) (f src lane : Nat) (v : DWord), Live s dFAB → laneBusy s lane = true →
    exec (.remoteFlagWrite f v src lane) s = .next (touch s dFAB)) ∧
  (∀ (s : State) (m p f mode since : Nat) (x : PCtx), Live s dFAB → s.pctx (m * 8 + p) = some x →
    spinWait x = some (f, mode, since) → s.tableMark = [] →
    ((firstRanked (pollRank s) (pollsDue s f)).map (·.1) ≠ some (m * 8 + p) → exec (.spinPoll m p) s = .next s) ∧
    ((firstRanked (pollRank s) (pollsDue s f)).map (·.1) = some (m * 8 + p) →
      (waitHolds s f mode = false →
        exec (.spinPoll m p) s = .next (s.setPctx (m * 8 + p) { x with polled := s.clk.tc })) ∧
      (waitHolds s f mode = true → x.stream = none → (∀ w ∈ s.sync.waiters, w.flag ≠ f) →
        ∃ t, exec (.spinPoll m p) s = .next t ∧
          t.pctx (m * 8 + p) = some { x with polled := s.clk.tc, wait := none, done := true } ∧
          (mode = 2 → (t.flag f).value = false) ∧ (mode ≠ 2 → t.flag f = s.flag f) ∧ SameMem s t))) ∧
  (∀ (s : State) (key f k : Nat) (set : Bool) (z : Release) (x : PCtx), Live s dFAB → s.tableMark = [] →
    tfind s.sync.releases key = some z → z.effect = .flag f set → z.owner = .pctx k → s.pctx k = some x →
    x.stream = none → (∀ w ∈ s.sync.waiters, w.flag ≠ f) → dirtyRecord s (z.src % 256) = [] →
    (releaseReady s z.src z.scope = false → exec (.releasePerform key) s = .next s) ∧
    (releaseReady s z.src z.scope = true →
      ∃ t, exec (.releasePerform key) s = .next t ∧ (t.flag f).value = set ∧
        t.sync.releases = terase s.sync.releases key ∧ t.pctx k = some { x with wait := none, done := true } ∧
        SameMem s t)) ∧
  (∀ (s : State) (n : Nat), n < 32 → Live s dFAB → nodeQuiet s n = true → s.rgBit Reg.syncLendCfg 31 = true →
    tget 0 s.sync.quietSince n + s.rgField Reg.syncLendCfg 0 16 ≤ s.now →
    ∃ t, exec (.lendAssert n) s = .next t ∧ t.rgBit Reg.syncLendStatus n = true ∧
      RegsBut [Reg.syncLendStatus] s t ∧ t = { s with regs := t.regs, hw := t.hw }) ∧
  (∀ (s : State) (n : Nat), n < 32 → Live s dFAB → nodeQuiet s n = false → exec (.lendAssert n) s = .next s) ∧
  (∀ (s : State) (n : Nat) (w : Bool), n < 32 → Live s (dHome n) →
    ∃ t, exec (.nodeAllWait n w) s = .next t ∧ (n ∈ t.sync.allWait ↔ w = true) ∧
      (∀ k, k ≠ n → (k ∈ t.sync.allWait ↔ k ∈ s.sync.allWait)) ∧ t.sync.flags = s.sync.flags ∧
      t = { touch s (dHome n) with sync := t.sync })

/-- Barrier channels (R269 to R277): EN written to 1 starts a channel with EXPECT set and TOGGLE clear; written to 0
it ends the arrivals with FAULT_PROT and sets MEMBER_LEFT; an arrival counts up to COUNT and the last one flips
TOGGLE; a release flips EXPECT, counts the round, takes over the held arrivals and starts 64 ns of true and 128 ns of
false; FORCE holds the output true. -/
def Obligations.Barriers : Prop :=
  (∀ (s : State) (c : Nat) (v : Word), c < 32 → frozen s = false → bit v.toNat 0 = true → barEn s c = false →
    ∃ t, exec (.barEnable c v) s = .next t ∧ barEn t c = true ∧ barCount t c = bits v.toNat 1 8 + 1 ∧
      (t.bar c).toggle = false ∧ (t.bar c).expect = true ∧ (t.bar c).arrived = 0 ∧ (t.bar c).held = 0 ∧
      (∀ d, d ≠ c → t.bar d = s.bar d) ∧ RegsBut [Reg.barCfg c] s t ∧
      t = { s with regs := t.regs, sync := t.sync }) ∧
  (∀ (s : State) (c : Nat) (v : Word), c < 32 → frozen s = false → bit v.toNat 0 = false → barEn s c = true →
    (s.bar c).arrivals = [] → (s.bar c).heldBy = [] →
    ∃ t, exec (.barDisable c v) s = .next t ∧ barEn t c = false ∧ barCount t c = barCount s c ∧
      (t.bar c).arrived = 0 ∧ (t.bar c).held = 0 ∧ RegsBut [Reg.barCfg c] s t ∧
      t = { s with regs := t.regs, sync := t.sync }) ∧
  (∀ (s : State) (c k : Nat) (v : Word) (a : Arrival) (x : PCtx), c < 32 → frozen s = false → bit v.toNat 0 = false →
    barEn s c = true → (s.bar c).arrivals = [a] → (s.bar c).heldBy = [] → a.who = some (.pctx k) → s.pctx k = some x →
    x.stream = none → x.status = none →
    ∃ t, exec (.barDisable c v) s = .next t ∧ barEn t c = false ∧ DoneWith t k .faultProt ∧
      t.rgBit Reg.syncErrStatus 2 = true ∧ (t.bar c).arrivals = [] ∧ SameMem s t) ∧
  (∀ (s : State) (c : Nat) (v : Word), c < 32 → frozen s = false → bit v.toNat 8 = true → bits v.toNat 0 5 = c →
    barEn s c = true → (s.bar c).arrived < barCount s c →
    ∃ t, exec (.barArrive v) s = .next t ∧ (t.bar c).arrived = (s.bar c).arrived + 1 ∧
      (t.bar c).toggle = ((s.bar c).toggle != ((s.bar c).arrived + 1 == barCount s c)) ∧
      t.rg Reg.barCtl = v.toNat &&& 0x21F ∧ SameMem s t) ∧
  (∀ (s : State) (v : Word), frozen s = false → bit v.toNat 8 = false → bit v.toNat 9 = true →
    ∃ t, exec (.barForce v) s = .next t ∧ barOut t (bits v.toNat 0 5) = true ∧ t.rg Reg.barCtl = v.toNat &&& 0x21F ∧
      RegsBut [Reg.barCtl] s t ∧ t = { s with regs := t.regs }) ∧
  (∀ (s : State) (c : Nat) (a : Arrival), c < 32 → Live s dFAB → (s.bar c).waiting = [a] → barEn s c = true →
    (s.bar c).arrived < barCount s c → dirtyRecord s (a.src % 256) = [] →
    (releaseReady s a.src a.scope = false → exec (.barrierArrivalCount c) s = .next s) ∧
    (releaseReady s a.src a.scope = true →
      ∃ t, exec (.barrierArrivalCount c) s = .next t ∧ (t.bar c).waiting = [] ∧
        (t.bar c).arrived = (s.bar c).arrived + 1 ∧ (t.bar c).arrivals = (s.bar c).arrivals ++ [a] ∧ t.work = s.work ∧
        SameMem s t)) ∧
  (∀ (s : State) (c : Nat), c < 32 → frozen s = false → (s.bar c).quiet = .off → barEn s c = true →
    (s.bar c).toggle = (s.bar c).expect →
    (∀ a ∈ (s.bar c).arrivals, ∀ k p x n, a.who = some (.engine k p x n) → isUp s (dHome n) = true) →
    ∃ t, exec (.barrierReleaseSeen c) s = .next t ∧ (t.bar c).expect = !(s.bar c).expect ∧
      (t.bar c).round = ((s.bar c).round + 1) % 2 ^ 32 ∧ (t.bar c).arrived = (s.bar c).held ∧ (t.bar c).held = 0 ∧
      (t.bar c).toggle = ((s.bar c).toggle != ((s.bar c).held == barCount s c)) ∧ (t.bar c).quiet = .high s.now ∧
      t.rg64 (Reg.barRelease (2 * c)) (Reg.barRelease (2 * c + 1)) = s.now ∧ SameMem s t) ∧
  (∀ (s : State) (c a : Nat), c < 32 → frozen s = false →
    ((s.bar c).quiet = .high a → a + 64 ≤ s.now →
      ∃ t, exec (.quietPhaseEnd c) s = .next t ∧ (t.bar c).quiet = .low (a + 64) ∧ t = { s with sync := t.sync }) ∧
    ((s.bar c).quiet = .low a → a + 128 ≤ s.now →
      ∃ t, exec (.quietPhaseEnd c) s = .next t ∧ (t.bar c).quiet = .off ∧ (t.bar c).wire = false ∧
        t = { s with sync := t.sync }) ∧
    ((s.bar c).quiet = .high a → s.now < a + 64 → exec (.quietPhaseEnd c) s = .next s))

/-- Scrubbing and the correction window (R308, R313): a due step advances the bank's row; in a tc that the gateway or the
bank's teller does not leave it, it counts a skip, else it counts a corrected granule and remembers its write-back; the
write-back leaves fresh check bits and the same data; a window of 2^30 ns ends at a multiple of 2^30 and clears its counts. -/
def Obligations.Scrubbing : Prop :=
  (∀ (s : State) (b row : Nat) (u : Bool), b < 256 → Live s (dHome (b / 8)) → scrubs s b = true →
    s.rgField Reg.rasCfg 0 20 ≠ 0 → tget 0 s.ras.scrubAt b + s.rgField Reg.rasCfg 0 20 ≤ s.now →
    row = tget 0 s.ras.scrubRow b →
    ∃ t, exec (.scrubStep b u) s = .next t ∧ tget 0 t.ras.scrubRow b = (row + 1) % 16384 ∧
      tget 0 t.ras.scrubAt b = s.now ∧
      (u = false ∨ scrubMay s b = false → t.rg Reg.scrubSkip = min (s.rg Reg.scrubSkip + 1) 0xFFFFFFFF ∧ RegsBut [Reg.scrubSkip] s t ∧
        t = { s with ras := t.ras, regs := t.regs, hw := t.hw }) ∧
      (u = true → scrubMay s b = true → granuleMarks s .ce (bankPhys s b) row = [] → granuleMarks s .ue (bankPhys s b) row = [] →
        t = { s with ras := t.ras }) ∧
      (u = true → scrubMay s b = true → granuleMarks s .ce (bankPhys s b) row ≠ [] → granuleMarks s .ue (bankPhys s b) row = [] →
        s.rgField Reg.rasCfg 24 8 = 0 → tfind t.ras.scrubBack (bankPhys s b) = some (row + 1) ∧
        bits (t.rg (Reg.bankErrcnt (bankPhys s b))) 0 16 = min (bits (s.rg (Reg.bankErrcnt (bankPhys s b))) 0 16 +
          (granuleMarks s .ce (bankPhys s b) row).length) 0xFFFF ∧
        RegsBut [Reg.bankErrcnt (bankPhys s b)] s t ∧ t = { s with ras := t.ras, regs := t.regs, hw := t.hw })) ∧
  (∀ (s : State) (b : Nat) (u : Bool), b < 256 → Live s (dHome (b / 8)) →
    (scrubs s b = false ∨ s.rgField Reg.rasCfg 0 20 = 0) → exec (.scrubStep b u) s = .next s) ∧
  (∀ (s : State) (b r : Nat), b < 256 → Live s (dHome (b / 8)) → tfind s.ras.scrubBack (bankPhys s b) = some (r + 1) →
    ∃ t, exec (.scrubWriteBack b) s = .next t ∧ tfind t.ras.scrubBack (bankPhys s b) = none ∧
      granuleMarks t .ce (bankPhys s b) r = [] ∧ (∀ m ∈ s.bankMark, m.2 = .ue →
        (∀ n ∈ s.bankMark, n.1 = m.1 → n.2 = .ue) → m ∈ t.bankMark) ∧
      t = { s with ras := t.ras, bankMark := t.bankMark }) ∧
  (∀ s : State, Live s dFAB →
    (s.ras.ceStart ≠ s.now / 2 ^ 30 * 2 ^ 30 → ∃ t, exec .ceWindowEnd s = .next t ∧ t.ras.ceWin = [] ∧
      t.ras.ceLogged = [] ∧ t.ras.ceStart = s.now / 2 ^ 30 * 2 ^ 30 ∧ t = { s with ras := t.ras }) ∧
    (s.ras.ceStart = s.now / 2 ^ 30 * 2 ^ 30 → exec .ceWindowEnd s = .next s))

/-- The bank map, sparing and withdrawing (R314 to R318, R342): before the seal a map entry takes an unused physical bank,
a bank that the write withdraws losing its contents, and bit 0 of BANK_STATUS notes a bad write; after it nothing changes; the clerk starts a copy into an OK spare, whose
end switches the map to the spare with the old data; a withdrawal sets WD; from other sources outside relief mode the
write is ignored. -/
def Obligations.BankSparing : Prop :=
  (∀ (s : State) (b : Nat) (v : Word), b < 256 → Live s dFAB → isSealedDie s = false → v.toNat % 512 < 264 →
    (∀ k, k < 256 → k ≠ b → bankPhys s k ≠ v.toNat % 512) →
    ∃ t, exec (.bankMapWrite b v) s = .next t ∧ bankPhys t b = v.toNat % 512 ∧ bankWd t b = bit v.toNat 9 ∧
      RegsBut [Reg.bankMap b] s t ∧
      (bankWd s b = true ∨ bit v.toNat 9 = false → OnlyRegs dFAB [Reg.bankMap b] s t) ∧
      (∀ a, (a < v.toNat % 512 * 2 ^ 21 ∨ (v.toNat % 512 + 1) * 2 ^ 21 ≤ a) → t.bankMem.read a = s.bankMem.read a) ∧
      t = { touch s dFAB with regs := t.regs, bankMem := t.bankMem, freeCtr := t.freeCtr }) ∧
  (∀ (s : State) (b : Nat) (v : Word), b < 256 → Live s dFAB → isSealedDie s = false →
    (264 ≤ v.toNat % 512 ∨ ∃ k, k < 256 ∧ k ≠ b ∧ bankPhys s k = v.toNat % 512) →
    ∃ t, exec (.bankMapWrite b v) s = .next t ∧ t.rgBit Reg.bankStatus 0 = true ∧ OnlyRegs dFAB [Reg.bankStatus] s t) ∧
  (∀ (s : State) (b : Nat) (v : Word), Live s dFAB → isSealedDie s = true →
    exec (.bankMapWrite b v) s = .next (touch s dFAB)) ∧
  (∀ (s : State) (v : Word) (src : Nat), Live s dFAB → (src = s.srcClerk ∨ relief s = true) → bit v.toNat 31 = true →
    bit v.toNat 30 = false → s.ras.copy = none → s.rgBit Reg.bankSpareOk (bits v.toNat 8 3) = true →
    bankWd s (bits v.toNat 0 8) = false →
    ∃ t, exec (.bankSpare v src) s = .next t ∧
      t.ras.copy = some { bank := bits v.toNat 0 8, spare := bits v.toNat 8 3 } ∧ t.ras.spareState = 1 ∧
      t = { touch s dFAB with ras := t.ras }) ∧
  (∀ (s : State) (v : Word) (src : Nat), Live s dFAB → src ≠ s.srcClerk → relief s = false →
    exec (.bankSpare v src) s = .next (touch s dFAB) ∧ exec (.bankWithdraw v src) s = .next (touch s dFAB)) ∧
  (∀ (s : State) (v : Word) (src b : Nat), Live s dFAB → (src = s.srcClerk ∨ relief s = true) → bit v.toNat 31 = true →
    bit v.toNat 30 = true → s.ras.copy = none → b = bits v.toNat 0 8 → bankWd s b = false → bankSlc s b = false →
    (s.teller b).entries = [] →
    ∃ t, exec (.bankWithdraw v src) s = .next t ∧ bankWd t b = true ∧ bankPhys t b = bankPhys s b ∧
      (∀ c, c < 256 → c ≠ b → t.rg (Reg.bankMap c) = s.rg (Reg.bankMap c)) ∧ t.ras.spareState = 3 ∧
      t.rgBit Reg.rasCause 1 = true) ∧
  (∀ (s : State) (c : SpareCopy) (p q : Nat), Live s dFAB → s.ras.copy = some c → c.bank < 256 → c.spare < 8 →
    p = bankPhys s c.bank → q = 256 + c.spare → p ≠ q → s.bankMem.wf = true → s.bankMem.undef = [] →
    (∀ m ∈ s.bankMark, m.2 = .ce) → relief s = false → s.rg Reg.evtRoute0 = 0 →
    ∃ t, exec .spareCopyEnd s = .next t ∧ bankPhys t c.bank = q ∧ t.rgBit Reg.bankSpareOk c.spare = false ∧
      t.ras.copy = none ∧ t.ras.spareState = 2 ∧
      (∀ o, o < 2 ^ 21 → t.bankMem.read (bankAddr q o) = s.bankMem.read (bankAddr p o)) ∧
      (∀ a, (a < q * 2 ^ 21 ∨ (q + 1) * 2 ^ 21 ≤ a) → t.bankMem.read a = s.bankMem.read a))

/-- Frame rescue and restoring losses (R322 to R326, R309), while no ledger operation waits: the clerk starts a rescue into
the frame of RAS_RESCUE0 where that is valid and FREE, or a retirement without a copy; a frame that is not RETIRING, or whose
ledger word is uncorrectable, is refused; the end of the copy of a frame that is not linked leaves its data in the rescue frame
and sends the shootdowns; FRAME_SET retires or withdraws a FREE frame before the seal. -/
def Obligations.FrameRescue : Prop :=
  (∀ (s : State) (v : Word) (src f r : Nat), Live s dFAB → (src = s.srcClerk ∨ relief s = true) → bit v.toNat 31 = true →
    bit v.toNat 30 = false → f = bits v.toNat 0 17 → (s.frame f).state = .retiring → rescuing s = false →
    s.rgBit (Reg.rasRescue 0) 31 = true → r = s.rgField (Reg.rasRescue 0) 0 17 → (s.frame r).state = .free →
    framePresent s r = true → s.tableMark = [] →
    ∃ t, exec (.frameRescue v src) s = .next t ∧ t.ras.rescue = some { frame := f, rescue := r } ∧
      t.ras.rescueState = 1 ∧ t.rgBit (Reg.rasRescue 0) 31 = false ∧ RegsBut [Reg.rasRescue 0] s t ∧
      t = { touch s dFAB with ras := t.ras, regs := t.regs }) ∧
  (∀ (s : State) (v : Word) (src f : Nat), Live s dFAB → (src = s.srcClerk ∨ relief s = true) → bit v.toNat 31 = true →
    f = bits v.toNat 0 17 → (s.frame f).state ≠ .retiring → s.tableMark = [] → s.xl.waitMaps = [] →
    ∃ t, (bit v.toNat 30 = false → exec (.frameRescue v src) s = .next t) ∧
      (bit v.toNat 30 = true → exec (.frameRescueNone v src) s = .next t) ∧ t.ras.rescueState = 3 ∧
      t.ras.rescueFrame = f ∧ t = { touch s dFAB with ras := t.ras }) ∧
  (∀ (s : State) (v : Word) (src f : Nat), Live s dFAB → (src = s.srcClerk ∨ relief s = true) → bit v.toNat 31 = true →
    bit v.toNat 30 = true → f = bits v.toNat 0 17 → (s.frame f).state = .retiring → (s.frame f).linked = false →
    rescuing s = false → s.tableMark = [] → s.xl.waitMaps = [] →
    ∃ t h, exec (.frameRescueNone v src) s = .next t ∧ t.xl.shoots = s.xl.shoots ++ [h] ∧ h.frame = f ∧
      h.retire = true ∧ h.rescue = none ∧ h.nodes = List.range 32 ∧ t.ras.rescueState = 0 ∧
      t = { touch s dFAB with ras := t.ras, xl := t.xl }) ∧
  (∀ (s : State) (r : Rescue), Live s dFAB → s.ras.rescue = some r → s.ras.rescueState = 1 → r.frame ≠ r.rescue →
    (∀ h ∈ s.xl.shoots, h.retire = false) → s.edge.badRows = [] → s.stackMem.wf = true → s.stackMem.undef = [] →
    (s.frame r.frame).linked = false → s.xl.waitMaps = [] →
    ∃ t h, exec .rescueCopyEnd s = .next t ∧ t.xl.shoots = s.xl.shoots ++ [h] ∧ h.frame = r.frame ∧ h.retire = true ∧
      h.rescue = some (r.rescue, false) ∧
      (∀ o, o < 2 ^ 21 → t.stackMem.read (r.rescue * 2 ^ 21 + o) = s.stackMem.read (r.frame * 2 ^ 21 + o)) ∧
      (∀ a, (a < r.rescue * 2 ^ 21 ∨ (r.rescue + 1) * 2 ^ 21 ≤ a) → t.stackMem.read a = s.stackMem.read a) ∧
      t = { s with stackMem := t.stackMem, xl := t.xl }) ∧
  (∀ (s : State) (v : Word) (f : Nat), Live s dFAB → bit v.toNat 31 = true → isSealedDie s = false →
    f = bits v.toNat 0 17 → (s.frame f).state = .free → framePresent s f = true →
    s.tableMark = [] → s.xl.waitMaps = [] →
    ∃ t, exec (.frameSet v s.srcClerk) s = .next t ∧
      (t.frame f).state = (if bit v.toNat 30 then .withdrawn else .retired) ∧ (∀ e, e ≠ f → t.frame e = s.frame e)) ∧
  (∀ (s : State) (v : Word) (src : Nat), Live s dFAB → bit v.toNat 31 = true →
    (src ≠ s.srcClerk ∨ isSealedDie s = true) → s.tableMark = [] → s.xl.waitMaps = [] →
    ∃ t, exec (.frameSet v src) s = .next t ∧ t.rgBit Reg.bankStatus 1 = true ∧ OnlyRegs dFAB [Reg.bankStatus] s t) ∧
  (∀ (s : State) (v : Word) (src f : Nat), Live s dFAB → (src = s.srcClerk ∨ relief s = true) → bit v.toNat 31 = true →
    bit v.toNat 30 = false → f = bits v.toNat 0 17 → tableBad s .frame f = true →
    ∃ t, exec (.frameRescue v src) s = .next t ∧ t.ras.rescueState = 3 ∧ t.ras.rescueFrame = f ∧ t.xl = s.xl ∧
      t.rgBit Reg.rasCause 0 = true)

/-- Votes and the way down (R336, R338 to R340, R343, R347): a node's votes, the host's and the clerk's are taken as
written, the clerk's only from the clerk; a vote that is dropped changes nothing else, and a new vote for a domain
that is down wakes it with the voter's number in PWR_WAKESRC; an activity timer's end marks its domain, which with no
vote and nothing left to do starts entry, latches its clamps and, for FAB, empties the tally caches; the entry delay
ends it DOWN, or starts the wake that came meanwhile; EDGE takes its links down. -/
def Obligations.VotesAndEntry : Prop :=
  ((∀ (s : State) (n : Nat) (m : BitVec 37), n < 32 → s.pwr.asserted = false →
    ∃ t, exec (.nodeVote n m) s = .next t ∧ nodeVotes t n = m.toNat ∧ (∀ k, k ≠ n → nodeVotes t k = nodeVotes s k) ∧
      ((∀ d, d < 37 → bit m.toNat d = true → bit (nodeVotes s n) d = true) →
        t = { s with pwr := { s.pwr with nodeVotes := t.pwr.nodeVotes } })) ∧
  (∀ (s : State) (n d : Nat), n < 32 → 2 ≤ d → domPresent s d = true → s.pwr.asserted = false → nodeVotes s n = 0 →
    (s.dom d).state = .down → (s.dom 1).state = .up →
    ∃ t, exec (.nodeVote n (BitVec.ofNat 37 (2 ^ d))) s = .next t ∧ (t.dom d).state = .waking ∧
      (t.dom d).due = s.now + wakeDelay s d ∧ t.rg (Reg.pwrWakesrc d) = n * 2 ^ 16 ∧ t.rgBit Reg.pwrCause 0 = true ∧
      (∀ e, e ≠ d → t.dom e = s.dom e)) ∧
  (∀ (s : State) (v : Word), frozen s = false →
    (∃ t, exec (.pwrVoteHostWrite false v) s = .next t ∧ t.rg Reg.pwrVoteHostLo = v.toNat ∧
      (v = 0#32 → RegsBut [Reg.pwrVoteHostLo] s t ∧ t = { s with regs := t.regs })) ∧
    (∃ t, exec (.pwrVoteHostWrite true v) s = .next t ∧ t.rg Reg.pwrVoteHostHi = v.toNat % 32 ∧
      (v = 0#32 → RegsBut [Reg.pwrVoteHostHi] s t ∧ t = { s with regs := t.regs })) ∧
    (∃ t, exec (.pwrVoteClerkWrite false v s.srcClerk) s = .next t ∧ t.rg Reg.pwrVoteClerkLo = v.toNat) ∧
    (∃ t, exec (.pwrVoteClerkWrite true v s.srcClerk) s = .next t ∧ t.rg Reg.pwrVoteClerkHi = v.toNat % 32)) ∧
  (∀ (s : State) (hi : Bool) (v : Word) (src : Nat), frozen s = false → src ≠ s.srcClerk →
    exec (.pwrVoteClerkWrite hi v src) s = .next s)) ∧
  ((∀ (s : State) (d : Nat), s.pwr.asserted = false → domPresent s d = true → (s.dom d).state = .up →
    ((s.dom d).timer ≤ s.now → ∃ t, exec (.activityTimerExpire d) s = .next t ∧
      t.dom d = { s.dom d with expired := true } ∧ (∀ e, e ≠ d → t.dom e = s.dom e) ∧
      t = { s with pwr := { s.pwr with doms := t.pwr.doms } }) ∧
    (s.now < (s.dom d).timer → exec (.activityTimerExpire d) s = .next s)) ∧
  (∀ (s : State) (d : Nat), frozen s = false → domPresent s d = true → d ≠ 0 → (s.dom d).state = .up →
    (s.dom d).expired = true → bit (heldMask s) d = false → domQuiet s d = true →
    ∃ t, exec (.domainEntryStart d) s = .next t ∧ (t.dom d).state = .entering ∧
      (t.dom d).due = s.now + entryDelay d ∧ (∀ g ∈ clampGroups d, clampOn t g = true) ∧
      (d = 1 → t.xl.tally = []) ∧ (∀ e, e ≠ d → t.dom e = s.dom e) ∧ RegsBut [Reg.pwrClampLo, Reg.pwrClampHi] s t ∧
      SameMem s t) ∧
  (∀ (s : State) (d : Nat), s.pwr.asserted = false → (bit (heldMask s) d = true ∨ domQuiet s d = false ∨
      (s.dom d).expired = false) → exec (.domainEntryStart d) s = .next s) ∧
  (∀ (s : State) (d : Nat), s.pwr.asserted = false → (s.dom d).state = .entering →
    ((s.dom d).due ≤ s.now → (s.dom d).wake = none → d ≠ 36 → ∃ t, exec (.domainEntryDone d) s = .next t ∧
      (t.dom d).state = .down ∧ (∀ e, e ≠ d → t.dom e = s.dom e) ∧
      t = { s with pwr := { s.pwr with doms := t.pwr.doms } }) ∧
    (s.now < (s.dom d).due → exec (.domainEntryDone d) s = .next s)) ∧
  (∀ (s : State) (kind src : Nat), s.pwr.asserted = false → (s.dom 1).state = .entering → (s.dom 1).due ≤ s.now →
    (s.dom 1).wake = some (kind, src) →
    ∃ t, exec (.domainEntryDone 1) s = .next t ∧ (t.dom 1).state = .waking) ∧
  (∀ (s : State), s.pwr.asserted = false → (s.dom 36).state = .entering → (s.dom 36).due ≤ s.now →
    (s.dom 36).wake = none →
    ∃ t, exec (.domainEntryDone 36) s = .next t ∧ (t.dom 36).state = .down ∧
      (∀ p, p < 4 → (s.link p).state ≠ .inactive → (t.link p).state = .down ∧ (t.link p).votes = 0#37)))

/-- A domain comes up (R340, R341, R343, R345, R347): a wake starts it with its delay, FAB with it where FAB is down,
and records the kind and the source; the delay's end brings it UP, releases its clamp groups with AUTO and sets
CLAMP_HELD for the others; a bank that was off in the down domain is zero-filled; EDGE trains its links; FAB wakes
3,000 ns before a timed action. -/
def Obligations.DomainWake : Prop :=
  (∀ (s : State) (d kind src : Nat), s.pwr.asserted = false → 2 ≤ d → domPresent s d = true → (s.dom d).state = .down →
    kind < 16 → src < 4096 →
    ((s.dom 1).state = .up → ∃ t, exec (.domainWake d kind src) s = .next t ∧ (t.dom d).state = .waking ∧
      (t.dom d).due = s.now + wakeDelay s d ∧ t.rg (Reg.pwrWakesrc d) = kind + src * 2 ^ 16 ∧
      t.rgBit Reg.pwrCause 0 = true ∧ (∀ e, e ≠ d → t.dom e = s.dom e)) ∧
    ((s.dom 1).state = .down → ∃ t, exec (.domainWake d kind src) s = .next t ∧ (t.dom 1).state = .waking ∧
      (t.dom d).state = .waking ∧ (t.dom d).due = s.now + max 3000 (wakeDelay s d) ∧
      t.rg (Reg.pwrWakesrc d) = kind + src * 2 ^ 16)) ∧
  (∀ (s : State) (d kind src : Nat), s.pwr.asserted = false → (isUp s d = true ∨ domPresent s d = false) →
    exec (.domainWake d kind src) s = .next s) ∧
  (∀ (s : State) (d : Nat), s.pwr.asserted = false → (s.dom d).state = .waking → s.now < (s.dom d).due →
    exec (.domainWakeDone d) s = .next s) ∧
  (∀ (s : State) (d : Nat), s.pwr.asserted = false → (s.dom d).state = .waking → (s.dom d).due ≤ s.now →
    ∃ t, exec (.domainWakeDone d) s = .next t ∧ (t.dom d).state = .up ∧ (t.dom d).expired = false ∧
      (t.dom d).timer = s.now + s.rgField Reg.pwrCfg 0 20 ∧ (∀ e, e ≠ d → t.dom e = s.dom e) ∧
      (∀ g ∈ clampGroups d, clampAuto s g = true → clampOn t g = false) ∧
      (∀ g ∈ clampGroups d, clampAuto s g = false → clampOn s g = true →
        clampOn t g = true ∧ t.rgBit Reg.pwrCause 3 = true) ∧
      RegsBut [Reg.pwrClampLo, Reg.pwrClampHi, Reg.pwrCause] s t) ∧
  (∀ (s : State) (n k : Nat), n < 32 → k < 8 → s.pwr.asserted = false → (s.dom (dHome n)).state = .waking →
    (s.dom (dHome n)).due ≤ s.now → s.rgBit (Reg.pwrBank (8 * n + k)) 2 = true → bankRun s (8 * n + k) = 0 →
    (∀ j, j < 8 → j ≠ k → s.rgBit (Reg.pwrBank (8 * n + j)) 2 = false) →
    ∃ t, exec (.domainWakeDone (dHome n)) s = .next t ∧
      (∀ o, o < 2 ^ 21 → t.bankMem.read (bankAddr (bankPhys s (8 * n + k)) o) = 0#8)) ∧
  (∀ (s : State) (p : Nat), p < 4 → s.pwr.asserted = false → (s.dom 36).state = .waking → (s.dom 36).due ≤ s.now →
    (s.link p).state ≠ .inactive → ∃ t, exec (.domainWakeDone 36) s = .next t ∧ (t.link p).state = .training) ∧
  (∀ (s : State) (a : Nat), s.pwr.asserted = false → (s.dom 1).state = .down → a ∈ timedActions s → a ≤ s.now + 3000 →
    ∃ t, exec .timedWake s = .next t ∧ (t.dom 1).state = .waking) ∧
  (∀ s : State, s.pwr.asserted = false → (∀ a ∈ timedActions s, s.now + 3000 < a) → timedStacks s = [] →
    exec .timedWake s = .next s)

/-- Run states of banks, clamps and sensors (R342, R347, R380): a refused write of PWR_BANK sets BANK_REFUSED, an
accepted one sets the run and down states, a bank that returns to ON from OFF reads as zeros, and one that goes from OFF to
RETENTION loses no other bank's contents; an access brings a bank in RETENTION to ON; ones written to PWR_CLAMP release the
groups that the hardware did not latch in that tc, and the ports released so, with nothing waiting, send their votes; the
sensors' readings show with their valid bit. -/
def Obligations.BankPower : Prop :=
  (∀ (s : State) (b : Nat) (v : Word), b < 256 → frozen s = false → pwrBankRefused s b v.toNat = true →
    ∃ t, exec (.pwrBankWrite b v) s = .next t ∧ t.rgBit Reg.pwrStatus 0 = true ∧ RegsBut [Reg.pwrStatus] s t ∧
      t = { s with regs := t.regs, hw := t.hw }) ∧
  (∀ (s : State) (b : Nat) (v : Word), b < 256 → frozen s = false → pwrBankRefused s b v.toNat = false →
    ∃ t, exec (.pwrBankWrite b v) s = .next t ∧
      bankRun t b = (if v.toNat % 4 = 3 then bankRun s b else v.toNat % 4) ∧
      t.rgBit (Reg.pwrBank b) 2 = bit v.toNat 2 ∧ RegsBut [Reg.pwrBank b] s t ∧
      (bankRun s b = 2 → v.toNat % 4 = 0 → ∀ o, o < 2 ^ 21 → t.bankMem.read (bankAddr (bankPhys s b) o) = 0#8) ∧
      (∀ a, (a < bankPhys s b * 2 ^ 21 ∨ (bankPhys s b + 1) * 2 ^ 21 ≤ a) → t.bankMem.read a = s.bankMem.read a) ∧
      (bankRun s b ≠ 2 ∨ 2 ≤ v.toNat % 4 → t = { s with regs := t.regs })) ∧
  (∀ (s : State) (b : Nat), b < 256 → Live s (dHome (b / 8)) →
    (bankRun s b = 1 → ∃ t, exec (.bankRetentionExit b) s = .next t ∧ bankRun t b = 0 ∧
      OnlyRegs (dHome (b / 8)) [Reg.pwrBank b] s t) ∧
    (bankRun s b ≠ 1 → exec (.bankRetentionExit b) s = .next (touch s (dHome (b / 8))))) ∧
  (∀ (s : State) (v : Word), frozen s = false → s.driven Reg.pwrClampLo = 0 → s.driven Reg.pwrClampHi = 0 →
    (∃ t, exec (.clampRelease false v) s = .next t ∧ (∀ g, g < 32 → clampOn t g = (clampOn s g && !bit v.toNat g)) ∧
      RegsBut [Reg.pwrClampLo] s t ∧ t = { s with regs := t.regs }) ∧
    ((∀ p, p < 4 → (s.link p).waiting = []) → ∃ t, exec (.clampRelease true v) s = .next t ∧
      (∀ g, g < 6 → clampOn t (32 + g) = (clampOn s (32 + g) && !bit v.toNat g)) ∧ RegsBut [Reg.pwrClampHi] s t ∧
      t.out = s.out ++ (if clampOn s 34 = true ∧ bit v.toNat 2 = true then
        ((List.range 4).filter (fun p => linkUp s p)).map (fun p =>
          .votes p (BitVec.ofNat 37 (s.rg64 (Reg.pwrLinkvoteLo p) (Reg.pwrLinkvoteHi p)))) else []) ∧
      t = { s with regs := t.regs, out := t.out })) ∧
  (∀ (s : State) (l : List (BitVec 12)), frozen s = false →
    ∃ t, exec (.thermUpdate l) s = .next t ∧ (∀ i, i < 16 → t.rg (Reg.thermT i) = 2 ^ 31 + (nth 0#12 l i).toNat) ∧
      RegsBut ((List.range 16).map Reg.thermT) s t ∧ t = { s with regs := t.regs })

/-- Estimates, the governor and DVFS steps (R348 to R350, R381): an update shows the estimates, their sum and its
time; over its ceiling in SYNC2 the governor throttles one step more; with the governor off the point follows REQ,
down at once with the voltage request after it, up after the acknowledgement; a step ends with it, or after 50,000 ns
with VTIMEOUT. -/
def Obligations.Governor : Prop :=
  (∀ (s : State) (l : List Nat) (cap : Nat), frozen s = false →
    ∃ t, exec (.powerEstimateUpdate l cap) s = .next t ∧ (∀ d, d < 37 → t.rg (Reg.pwrEst d) = nth 0 l d % 2 ^ 20) ∧
      t.rg Reg.pwrEstDie = ((List.range 37).map (fun d => nth 0 l d % 2 ^ 20)).sum % 2 ^ 20 ∧
      t.rg64 Reg.pwrEstStampLo Reg.pwrEstStampHi = s.now ∧ t.pwr.cap = cap % 1024 ∧
      (s.pwr.clkMode = 2 → t.clk = s.clk)) ∧
  (∀ (s : State) (l : List Nat), frozen s = false → s.pwr.clkMode = 0 → s.rgBit Reg.pwrGov 31 = true →
    1000 * min 170 (s.rgField Reg.pwrGov 0 8) < ((List.range 37).map (fun d => nth 0 l d % 2 ^ 20)).sum →
    s.clk.throttle < 7 →
    ∃ t, exec (.powerEstimateUpdate l 0) s = .next t ∧ t.clk.throttle = s.clk.throttle + 1 ∧
      t.clk.point = s.clk.point ∧ t.rgBit Reg.pwrCause 1 = true) ∧
  (∀ (s : State) (l : List Nat) (cap : Nat), frozen s = false → s.pwr.clkMode = 1 → s.rgBit Reg.pwrGov 31 = false →
    s.clk.step = none → s.rgBit Reg.pwrCause 2 = false →
    (s.clk.point < dvfsReq s → ∃ t x o, exec (.powerEstimateUpdate l cap) s = .next t ∧ t.clk.point = s.clk.point + 1 ∧
      t.clk.step = some x ∧ x.up = false ∧ t.out = s.out ++ o ++ [.vreq (s.clk.point + 1)]) ∧
    (dvfsReq s < s.clk.point → ∃ t x, exec (.powerEstimateUpdate l cap) s = .next t ∧ t.clk.point = s.clk.point ∧
      t.clk.step = some x ∧ x.up = true ∧ x.target = s.clk.point - 1 ∧ t.out = s.out ++ [.vreq (s.clk.point - 1)])) ∧
  (∀ (s : State) (x : VStep), s.pwr.asserted = false → s.clk.step = some x →
    (∃ t, exec .voltageAck s = .next t ∧ t.clk.step = none ∧
      t.clk.point = (if x.up then x.target else s.clk.point) ∧
      (x.up = false → t = { s with clk := { s.clk with step := none } })) ∧
    (x.since + 50000 ≤ s.now → ∃ t, exec .voltageTimeout s = .next t ∧ t.clk = { s.clk with step := none } ∧
      t.rgBit Reg.pwrCause 2 = true ∧ RegsBut [Reg.pwrCause] s t ∧ t = { s with regs := t.regs, hw := t.hw, clk := t.clk }) ∧
    (s.now < x.since + 50000 → exec .voltageTimeout s = .next s)) ∧
  (∀ s : State, s.pwr.asserted = false → s.clk.step = none →
    exec .voltageAck s = .next s ∧ exec .voltageTimeout s = .next s)

/-- Resets (R351 to R355, R358, R394): each source resets the die with its class, whatever the die did; classes W and
F keep the memories but for the sealed banks, class F also keeps PT; RST_CTL acts only with the key; the release
samples the straps and wakes FAB under the clerk's vote; a lost backup zeroes the vault's counters, and shows in LOST
at the next power-on. -/
def Obligations.Resets : Prop :=
  (∀ s : State, s.pwr.backupLost = false → ∃ t, exec .powerOn s = .next t ∧ ResetBy s t 0 .cold) ∧
  (∀ s : State, s.pwr.backupLost = true → ∃ t, exec .powerOn s = .next t ∧ t.pwr.asserted = true ∧ t.pwr.last = 0 ∧
    t.rg (Reg.vaultCnt 0) = min (s.rg (Reg.vaultCnt 0) + 1) 0xFFFF ∧
    t.rgBit Reg.vaultStatus 0 = true ∧ t.pwr.backupLost = false) ∧
  (∀ s : State, ∃ t, exec (.brownOut true) s = .next t ∧ ResetBy s t 1 .cold) ∧
  (∀ s : State, ∃ t, exec (.brownOut false) s = .next t ∧ ResetBy s t 1 .warm ∧ t.stackMem = s.stackMem ∧
    (sealedList s = [] → t.bankMem = s.bankMem)) ∧
  (∀ s : State, ∃ t, exec .pin s = .next t ∧ ResetBy s t 2 .warm ∧ t.stackMem = s.stackMem ∧
    (sealedList s = [] → t.bankMem = s.bankMem)) ∧
  (∀ (s : State) (v : Word), frozen s = false → bit v.toNat 31 = true → v.toNat % 256 = 0xA5 →
    ∃ t, exec (.software v) s = .next t ∧ ResetBy s t 5 .fast ∧ t.pt = s.pt ∧ t.stackMem = s.stackMem ∧
      (sealedList s = [] → t.bankMem = s.bankMem) ∧ (∀ b, b < 256 → t.rg (Reg.bankMap b) = s.rg (Reg.bankMap b))) ∧
  (∀ (s : State) (v : Word), frozen s = false → (bit v.toNat 31 = false ∨ v.toNat % 256 ≠ 0xA5) →
    exec (.software v) s = .next s) ∧
  (∀ s : State, ∃ t, exec .debug s = .next t ∧ ResetBy s t 6 .fast ∧ t.pt = s.pt ∧ t.stackMem = s.stackMem ∧
    (sealedList s = [] → t.bankMem = s.bankMem)) ∧
  (∀ s : State, ∃ t, exec .clockFail s = .next t ∧ ResetBy s t 7 .warm ∧ t.stackMem = s.stackMem) ∧
  (∀ s : State, s.pwr.asserted = true → bit (clerkVotes s) 1 = true →
    ∃ t, exec .resetRelease s = .next t ∧ t.pwr.asserted = false ∧ t.pwr.fresh = true ∧ t.pwr.releasedAt = s.now ∧
      t.pwr.dieId = s.build.dieId % 16 ∧ t.pwr.clkMode = min 2 (s.build.clkMode % 4) ∧ (t.dom 1).state = .waking) ∧
  (∀ s : State, s.pwr.asserted = false → exec .resetRelease s = .next s) ∧
  (∀ s : State, ∃ t, exec .vaultBackupLoss s = .next t ∧ (∀ j, j < 9 → t.rg (Reg.vaultCnt j) = 0) ∧
    RegsBut ((List.range 9).map Reg.vaultCnt) s t ∧
    t = { s with regs := t.regs, pwr := { s.pwr with backupLost := true } })

/-- The life cycle and the wipe (R359, R360): a change of the life-cycle input and a rise of tamper each start a wipe
of the sealed banks, which then read as zeros; the wipe is done once their homes are up, counted and stamped; the
input at rest changes nothing. -/
def Obligations.LifeCycle : Prop :=
  (∀ (s : State) (n : Nat), s.pwr.lcState ≠ n % 8 → (∀ b ∈ sealedList s, isUp s (dHome (b / 8)) = true) →
    ∃ t, exec (.lifeCycleChange n) s = .next t ∧ t.pwr.lcState = n % 8 ∧ t.pwr.wiping = true ∧
      t.pwr.wipeBanks = sealedList s ∧ invasive t = false ∧
      (∀ b ∈ sealedList s, ∀ o, o < 2 ^ 21 → t.bankMem.read (bankAddr (bankPhys s b) o) = 0#8) ∧
      t = { s with pwr := t.pwr, bankMem := t.bankMem, bankMark := t.bankMark }) ∧
  (∀ (s : State) (n : Nat), s.pwr.lcState = n % 8 → exec (.lifeCycleChange n) s = .next s) ∧
  (∀ s : State, s.pwr.tamper = false → (∀ b ∈ sealedList s, isUp s (dHome (b / 8)) = true) →
    ∃ t, exec .tamper s = .next t ∧ t.pwr.tamper = true ∧ t.pwr.wiping = true ∧ t.pwr.lcState = s.pwr.lcState ∧
      (∀ b ∈ sealedList s, ∀ o, o < 2 ^ 21 → t.bankMem.read (bankAddr (bankPhys s b) o) = 0#8) ∧
      t = { s with pwr := t.pwr, bankMem := t.bankMem, bankMark := t.bankMark }) ∧
  (∀ s : State, s.pwr.tamper = true → exec .tamper s = .next s) ∧
  (∀ s : State, exec .tamperDeasserted s = .next { s with pwr := { s.pwr with tamper := false } }) ∧
  (∀ s : State, s.pwr.asserted = false → s.pwr.wiping = true →
    (∀ b ∈ s.pwr.wipeBanks, isUp s (dHome (b / 8)) = true) →
    ∃ t, exec .wipeDone s = .next t ∧ t.pwr.wiping = false ∧ t.pwr.wipes = (s.pwr.wipes + 1) % 65536 ∧
      t.rg64 Reg.lcWipeLo Reg.lcWipeHi = s.now ∧ RegsBut [Reg.lcWipeLo, Reg.lcWipeHi] s t ∧
      t = { s with regs := t.regs, pwr := t.pwr }) ∧
  (∀ s : State, s.pwr.asserted = false → s.pwr.wiping = false → exec .wipeDone s = .next s)

/-- The clerk's start, its alert and kick, and the watchdogs (R328, R330 to R332, R355, R356, R412): after the release
sequence the clerk loads a good image from the stacks, waits for the host's image where the straps say so, or raises
an alert; GO checks the image in its memory; the clerk's write of CLERK_ALERT_CODE raises ALERT, another source's only
writes it; the clerk's kick restarts its watchdog; a missed period puts the die in relief mode, a second resets it in
class F; a command past its time is ended with ABORTED, past twice its time the die may be reset; a site whose work
stands still is reported once. -/
def Obligations.ClerkAndWatchdogs : Prop :=
  ((∀ s : State, Live s dFAB → s.pwr.fresh = true →
    s.pwr.releasedAt + (if s.pwr.clkMode = 2 then 170000 else 30000) ≤ s.now →
    (s.pwr.bootSrc ≠ 0 → ∃ t, exec .clerkStart s = .next t ∧ t.ras.boot = 1 ∧ t.pwr.fresh = false ∧
      t = { s with ras := t.ras, pwr := t.pwr }) ∧
    (s.pwr.bootSrc = 0 → imageOk s.stackMem 0 = true → ∃ t, exec .clerkStart s = .next t ∧ t.ras.boot = 4 ∧
      t.clerkMem = s.clerkMem.copyFrom s.stackMem 0 (ofBytes (s.stackMem.readN 4 4)) 0 ∧
      t = { s with ras := t.ras, pwr := t.pwr, clerkMem := t.clerkMem }) ∧
    (s.pwr.bootSrc = 0 → imageOk s.stackMem 0 = false → ∃ t, exec .clerkStart s = .next t ∧ t.ras.boot = 3 ∧
      t.rgBit Reg.clerkStatus 1 = true)) ∧
  (∀ s : State, Live s dFAB → s.pwr.fresh = false → exec .clerkStart s = .next s) ∧
  (∀ (s : State) (v : Word), Live s dFAB → bit v.toNat 31 = true → (s.ras.boot = 1 ∨ s.ras.boot = 3) →
    (imageOk s.clerkMem 0 = true → ∃ t, exec (.clerkBootGo v) s = .next t ∧ t.ras.boot = 4 ∧
      t = { touch s dFAB with ras := t.ras }) ∧
    (imageOk s.clerkMem 0 = false → ∃ t, exec (.clerkBootGo v) s = .next t ∧ t.ras.boot = 3 ∧
      t.rgBit Reg.clerkStatus 1 = true)) ∧
  (∀ (s : State) (v : Word), Live s dFAB → (bit v.toNat 31 = false ∨ s.ras.boot = 4) →
    exec (.clerkBootGo v) s = .next (touch s dFAB))) ∧
  ((∀ (s : State) (v : Word), Live s dFAB →
    ∃ t, exec (.clerkAlert v s.srcClerk) s = .next t ∧ t.rg Reg.clerkAlertCode = v.toNat ∧
      t.rgBit Reg.clerkStatus 1 = true) ∧
  (∀ (s : State) (v : Word) (src : Nat), Live s dFAB → src ≠ s.srcClerk →
    ∃ t, exec (.clerkAlert v src) s = .next t ∧ t.rg Reg.clerkAlertCode = v.toNat ∧
      OnlyRegs dFAB [Reg.clerkAlertCode] s t) ∧
  (∀ (s : State) (v : Word) (src : Nat), Live s dFAB →
    ∃ t, exec (.clerkWdKick v src) s = .next t ∧ t = { touch s dFAB with ras := t.ras } ∧
      (src = s.srcClerk → t.ras.wdStart = s.ras.clerkWatch ∧ t.ras.wdStage = 0) ∧
      (src ≠ s.srcClerk → t.ras = s.ras)) ∧
  (∀ s : State, Live s dFAB → s.ras.boot = 4 → s.rgBit Reg.auditCtl 1 = false →
    s.ras.wdStart + s.rg Reg.clerkWdNs * (s.ras.wdStage + 1) ≤ s.ras.clerkWatch →
    (s.ras.wdStage = 0 → ∃ t, exec .clerkWatchdog s = .next t ∧ relief t = true ∧ t.rgBit Reg.clerkStatus 2 = true ∧
      t.ras.wdStage = 1 ∧ t.pwr.asserted = false ∧ t.rgBit Reg.rasCause 0 = true) ∧
    (s.ras.wdStage = 1 → ∃ t, exec .clerkWatchdog s = .next t ∧ t.pwr.asserted = true ∧ t.pwr.last = 3)) ∧
  (∀ s : State, Live s dFAB →
    (s.ras.boot ≠ 4 ∨ s.ras.clerkWatch < s.ras.wdStart + s.rg Reg.clerkWdNs * (s.ras.wdStage + 1)) →
    exec .clerkWatchdog s = .next s) ∧
  (∀ (s : State) (m p k : Nat) (x : PCtx), Live s dFAB → k = m * 8 + p → s.pctx k = some x → x.record = false →
    s.rg Reg.cmdWdNs ≠ 0 → x.wdFrom + s.rg Reg.cmdWdNs * (x.wdStage + 1) ≤ s.ras.watch →
    (x.wdStage = 0 → s.rgBit Reg.auditCtl 1 = false → ∃ t, exec (.cmdWatchdog m p) s = .next t ∧
      DoneWith t k .aborted ∧ (∃ y, t.pctx k = some y ∧ y.wdStage = 1 ∧ y.sflag = none ∧ y.stream = none) ∧
      t.rgBit Reg.rasCause 0 = true) ∧
    (x.wdStage = 1 → s.rgBit Reg.cmdWdCtl 0 = true → ∃ t, exec (.cmdWatchdog m p) s = .next t ∧
      t.pwr.asserted = true ∧ t.pwr.last = 4) ∧
    (x.wdStage = 1 → s.rgBit Reg.cmdWdCtl 0 = false → ∃ t, exec (.cmdWatchdog m p) s = .next t ∧
      t.pctx k = some { x with wdStage := 2 } ∧ t.pwr = s.pwr)) ∧
  (∀ (s : State) (m p : Nat) (x : PCtx), Live s dFAB → s.pctx (m * 8 + p) = some x →
    (s.rg Reg.cmdWdNs = 0 ∨ s.ras.watch < x.wdFrom + s.rg Reg.cmdWdNs * (x.wdStage + 1)) →
    exec (.cmdWatchdog m p) s = .next s) ∧
  (∀ (s : State) (site node out lane t0 : Nat), Live s dFAB → site < 4 → node < 64 → out < 8 → lane < 16 →
    siteWaits s site node out lane = some t0 → 0 < 1000 * s.rgField Reg.lockupCfg 0 24 →
    lockSite site node out lane ∉ s.ras.lockups →
    tget 0 s.ras.progress (lockSite site node out lane) + 1000 * s.rgField Reg.lockupCfg 0 24 ≤ s.ras.watch →
    t0 + 1000 * s.rgField Reg.lockupCfg 0 24 ≤ s.now → s.rgBit Reg.auditCtl 1 = false →
    (s.rgBit Reg.lockupCfg 31 = false → ∃ t, exec (.lockup site node out lane) s = .next t ∧
      lockSite site node out lane ∈ t.ras.lockups ∧ t.rgBit Reg.rasCause 0 = true ∧ t.pwr = s.pwr) ∧
    (s.rgBit Reg.lockupCfg 31 = true → ∃ t, exec (.lockup site node out lane) s = .next t ∧ t.pwr.asserted = true ∧
      t.pwr.last = 8)) ∧
  (∀ (s : State) (site node out lane : Nat), Live s dFAB → site < 4 → node < 64 → out < 8 → lane < 16 →
    lockSite site node out lane ∈ s.ras.lockups → exec (.lockup site node out lane) s = .next s))

/-- The global stop (R360 to R363, R366, R368): arming sets the tick, STOP_AT or, where that lies nearer, 64 ns ahead
with LATE; outside the life-cycle state that permits it only LC_ERR is set; at the tick the die holds with line 6
raised; ACK lowers the line; RESUME ends the stop. -/
def Obligations.GlobalStop : Prop :=
  (∀ (s : State) (v : Word), frozen s = false → bit v.toNat 0 = true → invasive s = true →
    (nowFine s + 1024 ≤ 16 * s.rg64 Reg.stopAtLo Reg.stopAtHi → ∃ t, exec (.stopArm v) s = .next t ∧
      t.obs = { s.obs with tick := some (s.rg64 Reg.stopAtLo Reg.stopAtHi) } ∧
      t.rg64 Reg.stopTickLo Reg.stopTickHi = s.rg64 Reg.stopAtLo Reg.stopAtHi ∧
      RegsBut [Reg.stopTickLo, Reg.stopTickHi] s t ∧ t = { s with regs := t.regs, obs := t.obs }) ∧
    (16 * s.rg64 Reg.stopAtLo Reg.stopAtHi < nowFine s + 1024 → ∃ t, exec (.stopArm v) s = .next t ∧
      t.obs.tick = some ((nowFine s + 1039) / 16) ∧ t.rgBit Reg.stopStatus 2 = true ∧ t.obs.holds = false)) ∧
  (∀ (s : State) (v : Word), frozen s = false → bit v.toNat 0 = true → invasive s = false →
    ∃ t, exec (.stopArm v) s = .next t ∧ t.rgBit Reg.stopStatus 3 = true ∧ RegsBut [Reg.stopStatus] s t ∧
      t = { s with regs := t.regs, hw := t.hw }) ∧
  (∀ (s : State) (tk : Nat), frozen s = false → s.obs.tick = some tk →
    (tk ≤ s.now → invasive s = true → s.evl.waiting = [] → ∃ t, exec .globalStop s = .next t ∧ t.obs.holds = true ∧
      t.obs.line6 = true ∧ t.obs.tick = none ∧ t.obs.held = [] ∧ t.rg Reg.stopTransitCount = t.obs.transit.length ∧
      t.work = s.work ∧ t.sync = s.sync ∧ SameMem s t) ∧
    (tk ≤ s.now → invasive s = false → ∃ t, exec .globalStop s = .next t ∧ t.obs.holds = false ∧ t.obs.tick = none ∧
      t.rgBit Reg.stopStatus 3 = true ∧ RegsBut [Reg.stopStatus] s t) ∧
    (s.now < tk → exec .globalStop s = .next s)) ∧
  (∀ (s : State) (v : Word), s.pwr.asserted = false → bit v.toNat 2 = true →
    exec (.stopAck v) s = .next { s with obs := { s.obs with line6 := false } }) ∧
  (∀ (s : State) (v : Word), s.pwr.asserted = false → bit v.toNat 1 = true → s.obs.holds = true → s.obs.held = [] →
    s.sync.stopFlags = [] →
    ∃ t, exec (.resume v) s = .next t ∧ t.obs.holds = false ∧ t.obs.line6 = false ∧ t.obs.transit = [] ∧
      t.rg Reg.stopTransitCount = 0 ∧ t.work.pctxs = s.work.pctxs ∧ t.work.rings = s.work.rings ∧ t.waits = s.waits) ∧
  (∀ (s : State) (v : Word), s.pwr.asserted = false → (bit v.toNat 1 = false ∨ s.obs.holds = false) →
    exec (.resume v) s = .next s)

/-- DEBUG space and the TAP (R369 to R371): while a stop holds with the invasive features on, a 4 B read of bank data
answers the bytes and a write puts them with fresh check bits; without a stop the answer is FAULT_PROT; the TAP
reaches DEBUG space the same way, holds its register writes during a stop, and gets no answer from a domain that is
down. -/
def Obligations.DebugAndTap : Prop :=
  (∀ (s : State) (o : Nat), s.pwr.asserted = false → s.obs.holds = true → invasive s = true → o % 4 = 0 →
    o < 264 * 2 ^ 21 →
    exec (.debugAccess o none) s = .next (s.emit (.reply .ok (BitVec.ofNat 64 (ofBytes (s.bankMem.readN o 4))))) ∧
    ∀ v : Word, ∃ t, exec (.debugAccess o (some v)) s = .next t ∧ t.out = s.out ++ [.reply .ok 0#64] ∧
      (∀ i, i < 4 → t.bankMem.read (o + i) = BitVec.ofNat 8 (v.toNat / 2 ^ (8 * i))) ∧
      (∀ a, (a < o ∨ o + 4 ≤ a) → t.bankMem.read a = s.bankMem.read a) ∧ tfind t.bankMark (o / 8) = none ∧
      t = { s with bankMem := t.bankMem, bankMark := t.bankMark, out := t.out }) ∧
  (∀ (s : State) (o : Nat) (w : Option Word), s.pwr.asserted = false → o % 4 ≠ 0 →
    exec (.debugAccess o w) s = .next (s.emit (.reply .faultAlign 0#64))) ∧
  (∀ (s : State) (o : Nat) (w : Option Word), s.pwr.asserted = false → o % 4 = 0 → s.obs.holds = false →
    exec (.debugAccess o w) s = .next (s.emit (.reply .faultProt 0#64))) ∧
  (∀ (s : State) (o : Nat) (w : Option Word), s.pwr.asserted = false → o % 4 = 0 → s.obs.holds = true →
    invasive s = false → ∃ t, exec (.debugAccess o w) s = .next t ∧ t.out = s.out ++ [.reply .faultProt 0#64] ∧
      t.rgBit Reg.stopStatus 3 = true ∧ RegsBut [Reg.stopStatus] s t ∧
      t = { s with regs := t.regs, hw := t.hw, out := t.out }) ∧
  (∀ (s : State) (o : Nat) (w : Option Word), exec (.tapInstrumentAccess true o w) s = exec (.debugAccess o w) s) ∧
  (∀ (s : State) (o : Nat) (w : Option Word), s.pwr.asserted = false → isUp s (regDom o) = false →
    exec (.tapInstrumentAccess false o w) s = .next s) ∧
  (∀ (s : State) (o : Nat) (v : Word), s.pwr.asserted = false → isUp s (regDom o) = true → s.obs.holds = true →
    stopWord o = false → o % 4 = 0 → (regBlock o).isSome = true → s.obs.held.length < 64 →
    exec (.tapInstrumentAccess false o (some v)) s = .next
      (({ s with obs := { s.obs with held := s.obs.held ++ [(o, v)] } }).emit (.reply .ok 0#64))) ∧
  (∀ (s u : State) (o x : Nat) (st : Status), s.pwr.asserted = false → isUp s (regDom o) = true → s.obs.holds = false →
    regRead (touch s (regDom o)) o = (st, x, u) →
    exec (.tapInstrumentAccess false o none) s = .next (u.emit (.reply st (BitVec.ofNat 64 x)))) ∧
  (∀ (s : State) (o : Nat) (v : Word), s.pwr.asserted = false → isUp s (regDom o) = true → s.obs.holds = false →
    o % 4 = 0 → regBlock o = none →
    exec (.tapInstrumentAccess false o (some v)) s = .next ((touch s (regDom o)).emit (.reply .faultProt 0#64)))

/-- Audits and counters (R372, R379): a trigger takes an audit that ends 1,024 tc later with FULL and its END time;
one that finds the buffer full or a sweep running is counted in AUDIT_MISSED; the armed triggers need their bit;
RELEASE clears FULL; CLR empties the counters that counted nothing in its tc (R12). -/
def Obligations.AuditAndCounters : Prop :=
  (∀ (s : State) (src : Nat), frozen s = false → s.rgBit Reg.auditStatus 1 = false → s.obs.auditBusy = false →
    ∃ t, exec (.auditTake 0 src) s = .next t ∧ t.obs.auditBusy = true ∧ t.obs.auditEnd = s.clk.tc + 1024 ∧
      t.rgBit Reg.auditStatus 0 = true ∧ tget 0#64 t.obs.audit 0 = BitVec.ofNat 64 s.now ∧
      RegsBut [Reg.auditStatus] s t ∧ t = { s with regs := t.regs, hw := t.hw, obs := t.obs }) ∧
  (∀ (s : State) (src : Nat), frozen s = false → (s.rgBit Reg.auditStatus 1 = true ∨ s.obs.auditBusy = true) →
    ∃ t, exec (.auditTake 0 src) s = .next t ∧ t.rg Reg.auditMissed = min (s.rg Reg.auditMissed + 1) 0xFFFFFFFF ∧
      RegsBut [Reg.auditMissed] s t ∧ t = { s with regs := t.regs, hw := t.hw }) ∧
  (∀ (s : State) (n src : Nat), frozen s = false → 1 ≤ n → n ≤ 4 →
    s.rgBit Reg.auditCtl (if n = 4 then 2 else 1) = false → exec (.auditTake n src) s = .next s) ∧
  (∀ s : State, frozen s = false → s.obs.auditBusy = true →
    (s.obs.auditEnd ≤ s.clk.tc → ∃ t, exec .auditDone s = .next t ∧ t.obs.auditBusy = false ∧ t.rg Reg.auditStatus = 2 ∧
      tget 0#64 t.obs.audit 1 = BitVec.ofNat 64 s.now ∧ RegsBut [Reg.auditStatus] s t ∧
      t = { s with regs := t.regs, obs := t.obs }) ∧
    (s.clk.tc < s.obs.auditEnd → exec .auditDone s = .next s)) ∧
  (∀ (s : State) (v : Word), frozen s = false → bit v.toNat 3 = true → bit v.toNat 0 = false →
    ∃ t, exec (.auditRelease v) s = .next t ∧ t.rgBit Reg.auditStatus 1 = false ∧
      t.rg Reg.auditCtl = v.toNat % 8 / 2 * 2 ∧ RegsBut [Reg.auditCtl, Reg.auditStatus] s t ∧
      t = { s with regs := t.regs }) ∧
  (∀ (s : State) (v : Word), Live s dFAB → bit v.toNat 1 = true → (∀ k, s.counted (2 ^ 21 + k) = 0) →
    ∃ t, exec (.cntClr v) s = .next t ∧ t.obs.counters = [] ∧ t.rg Reg.cntCtl = v.toNat % 2 ∧
      RegsBut [Reg.cntCtl] s t ∧ t = { touch s dFAB with regs := t.regs, obs := t.obs }) ∧
  (∀ (s : State) (v : Word), Live s dFAB → bit v.toNat 1 = false → exec (.cntClr v) s = .next (touch s dFAB))

/-- Reads and writes at an engine port (R78, R116, R232, R239, R240, R347, R383 to R386): an accepted read that issues answers the
granules it read, an acquire acts with them; a write waits for its beats, then issues, is performed and answered, a release after
its waits; a request that touches a granule of an earlier one, or follows an acquire of its context that is not satisfied, waits
in the issue queue; a refused request is answered with its error; behind a latched clamp group it waits, and where the handshake cannot complete in this tc it stands until the next. -/
def Obligations.PortAccess : Prop :=
  (∀ (s u v w : State) (q r : PortReq) (rs : List (Status × List Byte)), PortReady s q r 0 u →
    portCtxSt u r.ctx = .ok → PortIssues u (portItem u r 0 []) v →
    portReadAll r (List.range (r.cnt + 1)) none v = (w, rs) →
    exec (.portRd q) s = .next (portBeats r.port r.tag 17 rs w) ∧
    (∀ st data, r.port % 4 ≠ 3 → rs = [(st, data)] →
      (portBeats r.port r.tag 17 rs w).out = w.out ++ [.beat r.port r.tag 0 (worstOf [st]) 1 true data])) ∧
  (∀ (s u : State) (q r : PortReq) (st : Status), PortReady s q r 0 u → portCtxSt u r.ctx = st → st ≠ .ok →
    exec (.portRd q) s = .next (portBeats r.port r.tag 17 (List.replicate (r.cnt + 1) (st, List.replicate 128 0#8)) u)) ∧
  (∀ (s u : State) (q r : PortReq), PortReady s q r 0 u → portCtxSt u r.ctx = .ok →
    portDrains u (portItem u r 0 []) = false → portWalks u (portItem u r 0 []) = false →
    portBehind u (portItem u r 0 []) = true → exec (.portRd q) s = .next (portQueue u (portItem u r 0 []))) ∧
  (∀ (s u v w : State) (q r : PortReq) (rs : List (Status × List Byte)), PortReady s q r 2 u →
    portCtxSt u r.ctx = .ok → PortIssues u (portItem u r 2 []) v →
    portReadAll r (List.range (r.cnt + 1)) none v = (w, rs) →
    ∃ t, exec (.portRdAcq q) s = .next t ∧ t.out = (portBeats r.port r.tag 17 rs w).out ∧
      (2 ≤ r.port % 4 → r.scope ≠ 0 → acquireMark t r.port = w.now) ∧
      t = { portBeats r.port r.tag 17 rs w with slc := t.slc }) ∧
  (∀ (s u : State) (q r : PortReq), PortReady s q r 6 u → portCtxSt u r.ctx = .ok → PortReleases u r r.scope →
    ∃ t, exec (.portFence q) s = .next t ∧ Answers u t r 1 .ok [] ∧ t = { u with ports := t.ports, out := t.out }) ∧
  (∀ (s u : State) (q r : PortReq), PortReady s q r 6 u → portCtxSt u r.ctx = .ok →
    releaseReady u (u.src r.port) r.scope (u.port r.port).count = false →
    ∃ t x, exec (.portFence q) s = .next t ∧ t.sync.releases = tput s.sync.releases s.sync.nextKey x ∧
      x.effect = .nothing ∧ x.scope = r.scope ∧ t.out = s.out) ∧
  (∀ (s u v w : State) (q r : PortReq) (b : List WByte) (sts : List Status) (l : List Nat), PortReady s q r 1 u →
    portCtxSt u r.ctx = .ok → (s.port r.port).writes = [] → b.length = writeBytes r false →
    PortIssues u (portItem u r 1 b) v → portWriteAll r (List.range (r.cnt + 1)) b v = (w, sts, l) →
    exec (.portWr q b) s = .next (portDone (runRecs w (portRq v r) l) r.port r.tag (worstOf sts))) ∧
  (∀ (s u : State) (q r : PortReq), PortReady s q r 1 u → portCtxSt u r.ctx = .ok →
    ∃ t w, exec (.portWr q []) s = .next t ∧ (t.port r.port).writes = (s.port r.port).writes ++ [w] ∧ w.q = r ∧
      w.bytes = [] ∧ (t.port r.port).tags = (s.port r.port).tags ++ [(r.tag, r.ctx)] ∧ t.out = s.out ∧ SameMem s t) ∧
  (∀ (s u v w : State) (q r : PortReq) (b : List WByte) (sts : List Status) (l : List Nat), PortReady s q r 3 u →
    portCtxSt u r.ctx = .ok → (s.port r.port).writes = [] → b.length = writeBytes r false → PortReleases u r r.scope →
    PortIssues u (portItem u r 1 b) v → portWriteAll r (List.range (r.cnt + 1)) b v = (w, sts, l) →
    exec (.portWrRel q b) s = .next (portDone (runRecs w (portRq v r) l) r.port r.tag (worstOf sts))) ∧
  (∀ (s u v : State) (q r : PortReq) (b : List WByte), PortReady s q r 4 u → portCtxSt u r.ctx = .ok →
    (s.port r.port).writes = [] → b.length = 128 → PortIssues u (portItem u r 4 b) v →
    exec (.portAtomic q b) s = .next (portAtomicDo v r b)) ∧
  (∀ (s : State) (p : Nat) (b : List WByte), p < 128 → Live s (dHome (p / 4)) → clampOn s (p / 4) = false →
    ((s.port p).writes = [] → exec (.portWriteBeat p b) s = .next (touch s (dHome (p / 4)))) ∧
    (∀ (w : PWrite) (l : List PWrite), (s.port p).writes = w :: l → b.length = beatBytes p →
      w.bytes.length + beatBytes p < writeBytes w.q w.atomic →
      ∃ t, exec (.portWriteBeat p b) s = .next t ∧ (t.port p).writes = { w with bytes := w.bytes ++ b } :: l ∧
        (t.port p).tags = (s.port p).tags ∧ t = { touch s (dHome (p / 4)) with ports := t.ports })) ∧
  (∀ (s u : State) (q r : PortReq) (st : Status), PortTakes s q r u → portCheck s r 0 = st → st ≠ .ok →
    exec (.portRd q) s = .next (u.emit (.beat r.port r.tag 1 st 0 true []))) ∧
  (∀ (s : State) (q r : PortReq), r = portNorm q → Live s (dHome (r.port / 4)) → clampOn s (r.port / 4) = true →
    ∃ t, exec (.portRd q) s = .next t ∧
      t.waits = s.waits ++ [(dHome (r.port / 4), some (r.port / 4), .portRd q)] ∧ t.out = s.out ∧ t.ports = s.ports ∧
      SameMem s t) ∧
  (∀ (s : State) (q r : PortReq), r = portNorm q → Live s (dHome (r.port / 4)) → clampOn s (r.port / 4) = false →
    portReady s r.port = false →
    ∃ t, exec (.portRd q) s = .next t ∧ t.waits = s.waits ++ [(dHome (r.port / 4), some (nextTc s), .portRd q)] ∧
      (t.port r.port).stands.isSome = true ∧ (t.port r.port).tags = (s.port r.port).tags ∧ t.out = s.out ∧ SameMem s t)

/-- SYNC requests (R186 to R188, R196, R197, R199, R239, R240, R243, R262, R264, R270, R387, R388), while no word of the table store
shows an error (R309): a flag set or clear is performed and answered; a wait that holds is answered, one that does not takes a
token, and as an acquire holds the later requests of its context, or is turned away in spin mode or with no entry free; a slot,
a cheque and a put are taken, given and answered, or not available; a second acquire of a ring's side in one tc stands there; a
barrier arrival is counted, answered WAITING and held to as an acquire. -/
def Obligations.PortSync : Prop :=
  ∀ (s u : State) (q r : PortReq), PortReady s q r 5 u → portCtxSt u r.ctx = .ok → s.tableMark = [] →
    (∀ (f : Nat) (b : Bool), flagOfIndex s r.ctx (syncObj r) = some f →
      (bit r.addr 6 = false ∨ bits r.addr 7 4 = s.pwr.dieId) →
      (syncOrd r = false ∧ fenceWaits u r.port = false ∨ syncOrd r = true ∧ PortReleases u r r.scope) →
      (∀ w ∈ s.sync.waiters, w.flag ≠ f) → syncKind r = (if b then 0 else 1) →
      ∃ t, (if b then exec (.flagSet q) s else exec (.flagClr q) s) = .next t ∧ (t.flag f).value = b ∧
        (∀ g, g ≠ f → t.flag g = s.flag g) ∧ Answers u t r 1 .ok [] ∧ SameMem s t) ∧
    (∀ (f mode : Nat) (c : Instr), flagOfIndex s r.ctx (syncObj r) = some f → syncKind r = 2 + mode →
      (mode = 0 ∧ c = .waitSet q ∨ mode = 1 ∧ c = .waitClr q ∨ mode = 2 ∧ c = .waitSetThenClr q) →
      (waitHolds s f mode = true → (∀ w ∈ s.sync.waiters, w.flag ≠ f) →
        ∃ t, exec c s = .next t ∧ Answers u t r 1 .ok [] ∧ (t.flag f).value = (mode == 0) ∧ SameMem s t) ∧
      (waitHolds s f mode = false → (s.ctx r.ctx).spin = true →
        ∃ t, exec c s = .next t ∧ Answers u t r 3 .ok [2#8] ∧ t = { u with ports := t.ports, out := t.out }) ∧
      (waitHolds s f mode = false → (s.ctx r.ctx).spin = false → poolUsed s < 4096 →
        ∃ t w, exec c s = .next t ∧ t.sync.waiters = s.sync.waiters ++ [w] ∧ w.flag = f ∧ w.mode = mode ∧
          w.who = .engine (freeToken s) r.port r.ctx (s.ctx r.ctx).homeNode ∧
          (t.port r.port).acquires = (u.port r.port).acquires ++
            (if syncOrd r then [(freeToken s, r.ctx, (u.port r.port).count)] else []) ∧
          Answers u t r 2 .ok (toBytes 2 (freeToken s)) ∧ t.sync.flags = s.sync.flags ∧ SameMem s t) ∧
      (waitHolds s f mode = false → (s.ctx r.ctx).spin = false → 4096 ≤ poolUsed s → (s.ctx r.ctx).homeNode < 32 →
        ∃ t, exec c s = .next t ∧ Answers u t r 3 .ok [0#8] ∧
          t.rgBit Reg.flagPoolWait (s.ctx r.ctx).homeNode = true ∧ t.sync.waiters = s.sync.waiters)) ∧
    (syncKind r = 5 → relayDenied (s.slotRing (syncObj r)) (some (portDom s r)) = false → (s.slotRing (syncObj r)).standing = [] →
      slotWaiters s (syncObj r) (syncSide r) = [] →
      ((s.slotRing (syncObj r)).avail (syncSide r) = true → (s.slotRing (syncObj r)).open s.clk.tc (syncSide r) = true →
        ∃ t j z, exec (.slotAcq q) s = .next t ∧
          (j, z) = slotTake (s.slotRing (syncObj r)) s.clk.tc (syncSide r) (holdEng r.port r.ctx) ∧
          t.slotRing (syncObj r) = z ∧ Answers u t r 0 .ok (toBytes 6 ((s.slotRing (syncObj r)).cvaOf j)) ∧
          SameMem s t) ∧
      ((s.slotRing (syncObj r)).avail (syncSide r) = true → (s.slotRing (syncObj r)).open s.clk.tc (syncSide r) = false →
        ∃ t w, exec (.slotAcq q) s = .next t ∧ (t.slotRing (syncObj r)).standing = [w] ∧
          w.who = .acquire r (syncSide r) ∧ t = { u with float := t.float }) ∧
      ((s.slotRing (syncObj r)).avail (syncSide r) = false →
        ∃ t, exec (.slotAcq q) s = .next t ∧ Answers u t r 3 .ok [1#8] ∧
          (s.ctx r.ctx).homeNode ∈ (if syncSide r = 0 then (t.slotRing (syncObj r)).engP
            else (t.slotRing (syncObj r)).engC))) ∧
    (∀ j : Nat, syncKind r = 6 → relayDenied (s.slotRing (syncObj r)) (some (portDom s r)) = false →
      (s.slotRing (syncObj r)).oldest (syncSide r) (holdEng r.port r.ctx) = some j →
      (syncSide r = 1 ∨ PortReleases u r (s.slotRing (syncObj r)).scope) → HomesUp s →
      ∃ t, exec (.slotRel q) s = .next t ∧ (t.slotRing (syncObj r)).holders =
          (s.slotRing (syncObj r)).holders.erase (holdEng r.port r.ctx, syncSide r, j) ∧
        Answers u t r 1 .ok [] ∧ SameMem s t) ∧
    (syncKind r = 7 → (s.queue (syncObj r)).denied (some (portDom s r)) = false → (s.queue (syncObj r)).standing = [] →
      queueWaiters s (syncObj r) false = [] →
      (∀ (c e : Nat) (l : List (Nat × Nat)), (s.queue (syncObj r)).cheques = (c, e) :: l →
        (s.queue (syncObj r)).takeTc ≠ some s.clk.tc → chqCurrent s c = true →
        (s.pool (chqPool c)).permits (portDom s r) = true → HomesUp s →
        ∃ t, exec (.chqTake q) s = .next t ∧ (t.queue (syncObj r)).cheques = l ∧
          Answers u t r 0 .ok (toBytes 4 c ++ toBytes 6 (chqCva s c)) ∧ SameMem s t) ∧
      ((s.queue (syncObj r)).cheques = [] →
        ∃ t, exec (.chqTake q) s = .next t ∧ Answers u t r 3 .ok [1#8] ∧
          (s.ctx r.ctx).homeNode ∈ (t.queue (syncObj r)).engT)) ∧
    (syncKind r = 8 → PortReleases u r (s.queue (syncObj r)).scope →
      (s.queue (syncObj r)).denied (some (portDom s r)) = false → chqCurrent s r.val.toNat = true →
      recalled s r.val.toNat = false →
      ((s.queue (syncObj r)).cheques.length < (s.queue (syncObj r)).depth → (s.queue (syncObj r)).standing = [] →
        queueWaiters s (syncObj r) true = [] → (s.queue (syncObj r)).putTc ≠ some s.clk.tc → HomesUp s →
        ∃ t, exec (.chqPut q) s = .next t ∧
          (t.queue (syncObj r)).cheques.length = (s.queue (syncObj r)).cheques.length + 1 ∧ Answers u t r 1 .ok [] ∧
          SameMem s t) ∧
      ((s.queue (syncObj r)).depth ≤ (s.queue (syncObj r)).cheques.length →
        ∃ t, exec (.chqPut q) s = .next t ∧ (t.queue (syncObj r)).cheques = (s.queue (syncObj r)).cheques ∧
          Answers u t r 3 .ok [1#8] ∧ (s.ctx r.ctx).homeNode ∈ (t.queue (syncObj r)).engP)) ∧
    (syncKind r = 9 → syncObj r < 32 → barEn s (syncObj r) = true →
      releaseReady u (u.src r.port) r.scope = true → (r.scope = 0 ∨ dirtyRecord u r.port = []) → poolUsed s < 4096 →
      (s.bar (syncObj r)).arrived < barCount s (syncObj r) →
      ∃ t, exec (.portBarrier q) s = .next t ∧ (t.bar (syncObj r)).arrived = (s.bar (syncObj r)).arrived + 1 ∧
        (t.port r.port).acquires = (u.port r.port).acquires ++ [(freeToken s, r.ctx, (u.port r.port).count)] ∧
        Answers u t r 2 .ok (toBytes 2 (freeToken s)) ∧ SameMem s t)

/-- The sessions of escrow (R401, R402, R407): a BEGIN of a free session opens it with its owner and empties it, one
of another session only sets BUSY; a word staged with the owner is the next write, the 257th sets OVERFLOW and makes
validation refuse, one of another owner or session state sets OWNER or STATE; an ABORT with the owner discards an OPEN
or PENDING session's writes and makes it IDLE; one in CHECKING goes to IDLE as validation ends, whatever validation
would have found, and its commit never comes. -/
def Obligations.EscrowSessions : Prop :=
  (∀ (s : State) (v : Word), frozen s = false →
    (((s.sess (v.toNat % 4)).state = .idle ∨ (s.sess (v.toNat % 4)).state = .done ∨
        (s.sess (v.toNat % 4)).state = .refused) →
      ∃ t x, exec (.escrowBegin v) s = .next t ∧ t.sess (v.toNat % 4) = x ∧ x.state = .opened ∧
        x.owner = bits v.toNat 24 8 ∧ x.writes = [] ∧ x.cause = 0 ∧ x.result = 0 ∧ x.badIndex = 0 ∧
        (∀ j, j ≠ v.toNat % 4 → t.sess j = s.sess j) ∧ t = { s with sessions := t.sessions }) ∧
    (((s.sess (v.toNat % 4)).state = .opened ∨ (s.sess (v.toNat % 4)).state = .checking ∨
        (s.sess (v.toNat % 4)).state = .pending ∨ (s.sess (v.toNat % 4)).state = .draining) →
      ∃ t, exec (.escrowBegin v) s = .next t ∧ t.rgBit Reg.escrowErr 1 = true ∧
        (∀ i, i ≠ 1 → t.rgBit Reg.escrowErr i = s.rgBit Reg.escrowErr i) ∧ OnlyRegs 0 [Reg.escrowErr] s t)) ∧
  (∀ (s : State) (k : Nat) (v : Word), frozen s = false → k < 4 →
    ((s.sess k).state = .opened → s.rgField (Reg.escrowStageAddr k) 24 8 = (s.sess k).owner →
      ((s.sess k).writes.length < 256 → ∃ t, exec (.escrowStageData k v) s = .next t ∧
        t.sess k = { s.sess k with writes := (s.sess k).writes ++ [(s.rgField (Reg.escrowStageAddr k) 0 24, v)] } ∧
        (∀ j, j ≠ k → t.sess j = s.sess j) ∧ t = { s with sessions := t.sessions }) ∧
      (256 ≤ (s.sess k).writes.length → ∃ t, exec (.escrowStageData k v) s = .next t ∧
        t.sess k = { s.sess k with overflow := true, cause := 1 } ∧
        (∀ j, j ≠ k → t.sess j = s.sess j) ∧ t = { s with sessions := t.sessions })) ∧
    ((s.sess k).state ≠ .opened → ∃ t, exec (.escrowStageData k v) s = .next t ∧ t.rgBit Reg.escrowErr 3 = true ∧
      (∀ i, i ≠ 3 → t.rgBit Reg.escrowErr i = s.rgBit Reg.escrowErr i) ∧ OnlyRegs 0 [Reg.escrowErr] s t) ∧
    ((s.sess k).state = .opened → s.rgField (Reg.escrowStageAddr k) 24 8 ≠ (s.sess k).owner →
      ∃ t, exec (.escrowStageData k v) s = .next t ∧ t.rgBit Reg.escrowErr 2 = true ∧
        (∀ i, i ≠ 2 → t.rgBit Reg.escrowErr i = s.rgBit Reg.escrowErr i) ∧ OnlyRegs 0 [Reg.escrowErr] s t) ∧
    ((s.sess k).overflow = true → validate s k = some (1, 0))) ∧
  ((∀ (s : State) (v : Word), frozen s = false → bits v.toNat 24 8 = (s.sess (v.toNat % 4)).owner →
    (((s.sess (v.toNat % 4)).state = .opened ∨ (s.sess (v.toNat % 4)).state = .pending) →
      ∃ t, exec (.escrowAbort v) s = .next t ∧ (t.sess (v.toNat % 4)).state = .idle ∧
        (t.sess (v.toNat % 4)).writes = [] ∧ (∀ j, j ≠ v.toNat % 4 → t.sess j = s.sess j) ∧
        t = { s with sessions := t.sessions }) ∧
    ((s.sess (v.toNat % 4)).state = .checking →
      ∃ t u, exec (.escrowAbort v) s = .next t ∧ (t.sess (v.toNat % 4)).state = .checking ∧
        exec (.escrowValidationEnd (v.toNat % 4)) t = .next u ∧ (u.sess (v.toNat % 4)).state = .idle ∧
        (u.sess (v.toNat % 4)).writes = [] ∧ (∀ j, j ≠ v.toNat % 4 → u.sess j = s.sess j) ∧
        u = { s with sessions := u.sessions })))

/-- The commit of an escrow session (R404 to R406, R409): COMMIT with the owner starts the checks, without it sets OWNER or
STATE; the end of validation makes the session PENDING with its time, or REFUSED with the cause and the stamp; the
time makes one staged write of a register without a rule of its own, in which the hardware set nothing in that tc, take effect,
with ES fields, and no WO, W1C or W1S field; a change of SLC_SEL drains first; an abort then is late; the drain's end refuses or commits. -/
def Obligations.EscrowCommit : Prop :=
  (∀ (s : State) (v : Word), frozen s = false → (s.sess (v.toNat % 4)).state = .opened →
    (bits v.toNat 24 8 = (s.sess (v.toNat % 4)).owner → ∃ t, exec (.escrowCommit v) s = .next t ∧
      t.sess (v.toNat % 4) = { s.sess (v.toNat % 4) with state := .checking, timed := bit v.toNat 16 } ∧
      (∀ j, j ≠ v.toNat % 4 → t.sess j = s.sess j) ∧ t = { s with sessions := t.sessions }) ∧
    (bits v.toNat 24 8 ≠ (s.sess (v.toNat % 4)).owner → ∃ t, exec (.escrowCommit v) s = .next t ∧
      t.rgBit Reg.escrowErr 2 = true ∧ OnlyRegs 0 [Reg.escrowErr] s t)) ∧
  (∀ (s : State) (v : Word), frozen s = false → (s.sess (v.toNat % 4)).state ≠ .opened →
    ∃ t, exec (.escrowCommit v) s = .next t ∧ t.rgBit Reg.escrowErr 3 = true ∧ OnlyRegs 0 [Reg.escrowErr] s t) ∧
  (∀ (s : State) (k : Nat), frozen s = false → k < 4 → (s.sess k).state = .checking → (s.sess k).abort = false →
    (validate s k = none → ∃ t, exec (.escrowValidationEnd k) s = .next t ∧ (t.sess k).state = .pending ∧
      (t.sess k).writes = (s.sess k).writes ∧ (t.sess k).time = (if (s.sess k).timed = true then
        max (s.rg64 (Reg.escrowAtLo k) (Reg.escrowAtHi k)) s.now else s.now) ∧
      (∀ j, j ≠ k → t.sess j = s.sess j) ∧ t = { s with sessions := t.sessions }) ∧
    (∀ c i, validate s k = some (c, i) → ∃ t, exec (.escrowValidationEnd k) s = .next t ∧
      (t.sess k).state = .refused ∧ (t.sess k).cause = c ∧ (t.sess k).badIndex = i ∧
      (t.sess k).result = (if c = 4 then 0x41 else 0x11) ∧
      t.rg64 (Reg.escrowDoneLo k) (Reg.escrowDoneHi k) = s.now ∧ (∀ j, j ≠ k → t.sess j = s.sess j) ∧
      RegsBut [Reg.escrowDoneLo k, Reg.escrowDoneHi k] s t ∧
      t = { s with sessions := t.sessions, regs := t.regs })) ∧
  (∀ (s : State) (k : Nat), Live s dFAB → k < 4 → (s.sess k).state = .pending → (s.sess k).time ≤ s.now →
    escBehind s k = false →
    (∀ (o : Nat) (v : Word) (r : RegRow), slcChanges s k = false → validate s k = none → (s.sess k).writes = [(o, v)] →
      PlainReg o → regRow o = some r → s.driven o = 0 → s.counted o = 0 → isSlc o = false → isRsv o = false → retrainWord o = none →
      s.rgBit Reg.evlCtl 0 = false → ∃ t, exec (.escrowCommitTime k) s = .next t ∧ (t.sess k).state = .done ∧
        (t.sess k).result = 0 ∧ t.rg64 (Reg.escrowDoneLo k) (Reg.escrowDoneHi k) = s.now ∧
        (∀ i, i < 32 → t.rgBit o i = if bit r.rw i || bit r.es i || (bit r.bt i && !isSealedDie s) then bit v.toNat i
          else s.rgBit o i) ∧
        RegsBut [o, Reg.escrowDoneLo k, Reg.escrowDoneHi k] s t ∧ committed t o = true ∧
        t = { s with sessions := t.sessions, regs := t.regs, hw := t.hw }) ∧
    (∀ c i, slcChanges s k = false → validate s k = some (c, i) → ∃ t, exec (.escrowCommitTime k) s = .next t ∧
      (t.sess k).state = .refused ∧ (t.sess k).cause = c ∧
      RegsBut [Reg.escrowDoneLo k, Reg.escrowDoneHi k] s t ∧ t = { s with sessions := t.sessions, regs := t.regs }) ∧
    (slcChanges s k = true → slcBanks s ≠ 0 → ∃ t, exec (.escrowCommitTime k) s = .next t ∧
      (t.sess k).state = .draining ∧ t.slc = { s.slc with draining := true } ∧
      t = { s with sessions := t.sessions, slc := t.slc })) ∧
  (∀ (s : State) (v : Word), frozen s = false → (s.sess (v.toNat % 4)).state = .draining →
    bits v.toNat 24 8 = (s.sess (v.toNat % 4)).owner → ∃ t, exec (.escrowAbort v) s = .next t ∧
      t.rgBit Reg.escrowErr 4 = true ∧ OnlyRegs 0 [Reg.escrowErr] s t) ∧
  (∀ (s : State) (k : Nat) (u : State), Live s dFAB → k < 4 → (s.sess k).state = .draining →
    (∃ w, w = slcEmpty s ∧ u = { w with slc := { w.slc with draining := false } }) →
    (∀ c i, validate u k = some (c, i) → ∃ t, exec (.escrowDrainDone k) s = .next t ∧ (t.sess k).state = .refused ∧
      (t.sess k).cause = c ∧ t.slc = u.slc ∧ RegsBut [Reg.escrowDoneLo k, Reg.escrowDoneHi k] u t) ∧
    (validate u k = none → ∃ t, exec (.escrowDrainDone k) s = .next t ∧ (t.sess k).state = .done ∧
      (t.sess k).result = 0))

/-- A direct write of REGISTERS space (R11, R396, Table 0.3), where the hardware set nothing in the register in that tc: a
register without a rule of its own takes the RW bits of the word, its BT bits until the seal, clears W1C and sets W1S bits
written 1, and keeps the rest; a write to an ES field changes no field and sets ESCROW_ERR.DIRECT; a word that a commit of the
same tc wrote keeps what the commit gave it but for those two kinds of bits (Table 17.9); a word of a block that names no register
ignores it; a misaligned offset ends in FAULT_ALIGN, one in no block in FAULT_PROT. -/
def Obligations.RegisterWrites : Prop :=
  (∀ (s : State) (o : Nat) (v : Word) (src : Nat) (r : RegRow), Live s (regDom o) → o % 4 = 0 →
    (regBlock o).isSome = true → PlainReg o → regRow o = some r → r.es = 0 →
    s.driven o = 0 → s.counted o = 0 → committed s o = false →
    ∃ t, exec (.registerWrite o v src) s = .next t ∧ t.out = s.out ++ [.reply .ok 0#64] ∧
      (∀ i, i < 32 → t.rgBit o i = if bit r.w1s i && bit v.toNat i then true
        else if bit r.w1c i && bit v.toNat i then false
        else if bit r.rw i || (bit r.bt i && !isSealedDie s) then bit v.toNat i else s.rgBit o i) ∧
      RegsBut [o] s t ∧ t = { touch s (regDom o) with regs := t.regs, out := t.out }) ∧
  (∀ (s : State) (o : Nat) (v : Word) (src : Nat) (r : RegRow), Live s (regDom o) → o % 4 = 0 →
    (regBlock o).isSome = true → PlainReg o → regRow o = some r → r.es ≠ 0 → r.rw = 0 → r.bt = 0 →
    r.w1c = 0 → r.w1s = 0 → s.driven o = 0 → s.counted o = 0 → committed s o = false →
    ∃ t, exec (.registerWrite o v src) s = .next t ∧ t.out = s.out ++ [.reply .ok 0#64] ∧
      t.rgBit Reg.escrowErr 0 = true ∧ RegsBut [Reg.escrowErr] s t ∧
      t = { touch s (regDom o) with regs := t.regs, hw := t.hw, out := t.out }) ∧
  (∀ (s : State) (o : Nat) (v : Word) (src : Nat) (r : RegRow), Live s (regDom o) → o % 4 = 0 →
    (regBlock o).isSome = true → PlainReg o → regRow o = some r → s.driven o = 0 → s.counted o = 0 →
    committed s o = true →
    ∃ t, exec (.registerWrite o v src) s = .next t ∧ t.out = s.out ++ [.reply .ok 0#64] ∧
      (∀ i, i < 32 → t.rgBit o i = if bit r.w1s i && bit v.toNat i then true
        else if bit r.w1c i && bit v.toNat i then false else s.rgBit o i) ∧
      RegsBut [o] s t ∧ t = { touch s (regDom o) with regs := t.regs, out := t.out }) ∧
  (∀ (s : State) (o : Nat) (v : Word) (src : Nat), Live s (regDom o) → o % 4 = 0 → (regBlock o).isSome = true →
    o ≠ Reg.stopCtl → o < 0x50000 → (o < 0xD000 ∨ 0xE000 ≤ o) → regRow o = none →
    exec (.registerWrite o v src) s = .next ((touch s (regDom o)).emit (.reply .ok 0#64))) ∧
  (∀ (s : State) (o : Nat) (v : Word) (src : Nat), Live s (regDom o) → o % 4 ≠ 0 →
    exec (.registerWrite o v src) s = .next ((touch s (regDom o)).emit (.reply .faultAlign 0#64))) ∧
  (∀ (s : State) (o : Nat) (v : Word) (src : Nat), Live s (regDom o) → o % 4 = 0 → regBlock o = none →
    exec (.registerWrite o v src) s = .next ((touch s (regDom o)).emit (.reply .faultProt 0#64)))
end

