-- ==== Sys2Proof/Laws/Gates.lean ====
section
/-! SUPPORT. What a gate answers: the effect of the command where its domain serves, and nothing else. -/

namespace Sys2Proof.Machine

/-- A domain that serves is up on a die that no reset and no stop holds. -/
theorem Live.up {s : State} {d : Nat} (h : Live s d) : isUp s d = true := h.2.2

theorem Live.awake {s : State} {d : Nat} (h : Live s d) : frozen s = false := by
  simp [frozen, h.1, h.2.1]

theorem gate_live {s : State} {d : Nat} (h : Live s d) (k src : Nat) (c : Instr) (eff : State → State) :
    gate d k src c s eff = .next (eff (touch s d)) := by
  simp [gate, h.1, h.2.1, h.2.2]

theorem gateIn_live {s : State} {d : Nat} (h : Live s d) (eff : State → State) : gateIn d s eff = .next (eff s) := by
  simp [gateIn, h.awake, h.2.2]

theorem gateAO_awake {s : State} (h : frozen s = false) (eff : State → State) : gateAO s eff = .next (eff s) := by
  simp [gateAO, h]

theorem gateRun_runs {s : State} (h : s.pwr.asserted = false) (eff : State → State) :
    gateRun s eff = .next (eff s) := by
  simp [gateRun, h]

/-- Every answer of a gate is a next state: the effect, the wait at the edge, or nothing. -/
theorem gate_cases (d k src : Nat) (c : Instr) (s : State) (eff : State → State) :
    gate d k src c s eff = .next s ∨ gate d k src c s eff = .next (eff (touch s d)) ∨
    gate d k src c s eff = .next (edgeWait s d none c) ∨
    gate d k src c s eff = .next (edgeWait (wakeDom s d k src) d none c) := by
  unfold gate
  split
  · exact .inl rfl
  · split
    · exact .inr (.inr (.inl rfl))
    · split
      · exact .inr (.inl rfl)
      · split
        · exact .inr (.inr (.inr rfl))
        · exact .inl rfl

theorem gate_goes (d k src : Nat) (c : Instr) (s : State) (eff : State → State) :
    ∃ t, gate d k src c s eff = .next t := by
  rcases gate_cases d k src c s eff with h | h | h | h <;> exact ⟨_, h⟩

theorem gateIn_goes (d : Nat) (s : State) (eff : State → State) : ∃ t, gateIn d s eff = .next t := by
  unfold gateIn; split <;> exact ⟨_, rfl⟩

theorem gateAO_goes (s : State) (eff : State → State) : ∃ t, gateAO s eff = .next t := by
  unfold gateAO; split <;> exact ⟨_, rfl⟩

theorem gateRun_goes (s : State) (eff : State → State) : ∃ t, gateRun s eff = .next t := by
  unfold gateRun; split <;> exact ⟨_, rfl⟩

/-- Under a reset no gate lets anything happen (R353). -/
theorem gate_asserted {s : State} (h : s.pwr.asserted = true) (d k src : Nat) (c : Instr) (eff : State → State) :
    gate d k src c s eff = .next s := by simp [gate, h]

theorem gateIn_asserted {s : State} (h : s.pwr.asserted = true) (d : Nat) (eff : State → State) :
    gateIn d s eff = .next s := by simp [gateIn, frozen, h]

theorem gateAO_asserted {s : State} (h : s.pwr.asserted = true) (eff : State → State) : gateAO s eff = .next s := by
  simp [gateAO, frozen, h]

theorem gateRun_asserted {s : State} (h : s.pwr.asserted = true) (eff : State → State) : gateRun s eff = .next s := by
  simp [gateRun, h]

end Sys2Proof.Machine
end

