-- ==== Sys2Proof/Laws/Memory.lean ====
section
/-! SUPPORT. Tables and memories: what a read gives after a write, and that every memory operation keeps the canonical
form. -/

namespace Sys2Proof.Machine

variable {α : Type}

/-! ## Tables -/

theorem tget_tput_same (d : α) (t : Table α) (k : Nat) (v : α) : tget d (tput t k v) k = v := by
  induction t with
  | nil => simp [tput, tget]
  | cons e r ih =>
    obtain ⟨k', w⟩ := e
    unfold tput
    split
    · simp [tget]
    · split
      · simp [tget]
      · rw [tget, if_neg (by omega), ih]

theorem tget_tput_other (d : α) (t : Table α) (k j : Nat) (v : α) (h : j ≠ k) :
    tget d (tput t k v) j = tget d t j := by
  induction t with
  | nil => simp [tput, tget, Ne.symm h]
  | cons e r ih =>
    obtain ⟨k', w⟩ := e
    unfold tput
    split
    · rw [tget, if_neg (Ne.symm h)]
    · split
      · subst k; simp [tget, Ne.symm h]
      · rw [tget, tget, ih]

theorem tget_terase_same (d : α) (t : Table α) (k : Nat) : tget d (terase t k) k = d := by
  induction t with
  | nil => rfl
  | cons e r ih =>
    obtain ⟨k', w⟩ := e
    unfold terase
    split
    · exact ih
    · rename_i h; rw [tget, if_neg h, ih]

theorem tget_terase_other (d : α) (t : Table α) (k j : Nat) (h : j ≠ k) : tget d (terase t k) j = tget d t j := by
  induction t with
  | nil => rfl
  | cons e r ih =>
    obtain ⟨k', w⟩ := e
    unfold terase
    split
    · rename_i h'; rw [ih, tget, if_neg (by omega)]
    · rw [tget, tget, ih]

/-- The entry just set is the entry read. -/
theorem tget_tset_same [DecidableEq α] (d : α) (t : Table α) (k : Nat) (v : α) : tget d (tset d t k v) k = v := by
  unfold tset
  split
  · rename_i h; rw [tget_terase_same, h]
  · exact tget_tput_same d t k v

/-- Setting an entry leaves every other entry. -/
theorem tget_tset_other [DecidableEq α] (d e : α) (t : Table α) (k j : Nat) (v : α) (h : j ≠ k) :
    tget e (tset d t k v) j = tget e t j := by
  unfold tset
  split
  · exact tget_terase_other e t k j h
  · exact tget_tput_other e t k j v h

/-! ## Rising keys -/

/-- Every key of a table is above a bound. -/
def above (t : Table α) (k : Nat) : Prop := ∀ e ∈ t, k < e.1

theorem tsorted_cons (k : Nat) (v : α) (r : Table α) : tsorted ((k, v) :: r) = true ↔ above r k ∧ tsorted r = true := by
  induction r generalizing k v with
  | nil => simp [tsorted, above]
  | cons e r ih =>
    obtain ⟨k', w⟩ := e
    rw [tsorted, Bool.and_eq_true, decide_eq_true_eq]
    constructor
    · rintro ⟨h, hs⟩
      refine ⟨?_, hs⟩
      intro x hx
      rcases List.mem_cons.mp hx with rfl | hx
      · exact h
      · exact lt_trans h ((ih k' w).mp hs |>.1 x hx)
    · rintro ⟨h, hs⟩
      exact ⟨h (k', w) (List.mem_cons_self ..), hs⟩

theorem tsorted_filter (p : Nat × α → Bool) (t : Table α) (h : tsorted t = true) : tsorted (t.filter p) = true := by
  induction t with
  | nil => rfl
  | cons e r ih =>
    obtain ⟨k, v⟩ := e
    obtain ⟨ha, hs⟩ := (tsorted_cons k v r).mp h
    rw [List.filter_cons]
    split
    · exact (tsorted_cons ..).mpr ⟨fun x hx => ha x (List.mem_filter.mp hx).1, ih hs⟩
    · exact ih hs

theorem terase_eq_filter (t : Table α) (k : Nat) : terase t k = t.filter (fun e => e.1 != k) := by
  induction t with
  | nil => rfl
  | cons e r ih =>
    obtain ⟨k', v⟩ := e
    unfold terase
    by_cases h : k' = k <;> simp [h, ih]

theorem mem_tput {t : Table α} {k : Nat} {v : α} {e : Nat × α} (h : e ∈ tput t k v) : e = (k, v) ∨ e ∈ t := by
  induction t with
  | nil => simpa [tput] using h
  | cons x r ih =>
    obtain ⟨k', w⟩ := x
    unfold tput at h
    split at h
    · rcases List.mem_cons.mp h with h | h
      · exact .inl h
      · exact .inr h
    · split at h
      · rcases List.mem_cons.mp h with h | h
        · exact .inl h
        · exact .inr (List.mem_cons_of_mem _ h)
      · rcases List.mem_cons.mp h with h | h
        · exact .inr (h ▸ List.mem_cons_self ..)
        · rcases ih h with h | h
          · exact .inl h
          · exact .inr (List.mem_cons_of_mem _ h)

theorem tsorted_tput (t : Table α) (k : Nat) (v : α) (h : tsorted t = true) : tsorted (tput t k v) = true := by
  induction t with
  | nil => rfl
  | cons e r ih =>
    obtain ⟨k', w⟩ := e
    obtain ⟨ha, hs⟩ := (tsorted_cons k' w r).mp h
    unfold tput
    split
    · rename_i hk
      refine (tsorted_cons ..).mpr ⟨?_, h⟩
      intro x hx
      rcases List.mem_cons.mp hx with rfl | hx
      · exact hk
      · exact lt_trans hk (ha x hx)
    · split
      · rename_i hk; subst hk; exact (tsorted_cons ..).mpr ⟨ha, hs⟩
      · refine (tsorted_cons ..).mpr ⟨?_, ih hs⟩
        intro x hx
        rcases mem_tput hx with rfl | hx
        · show k' < k; omega
        · exact ha x hx

/-! ## Undefined ranges -/

theorem undefAt_append (l m : List (Nat × Nat × Nat)) (a : Nat) (h : undefAt l a = none) :
    undefAt (l ++ m) a = undefAt m a := by
  induction l with
  | nil => rfl
  | cons r l ih =>
    obtain ⟨lo, hi, e⟩ := r
    unfold undefAt at h
    split at h
    · cases h
    · rename_i hn
      rw [List.cons_append, undefAt, if_neg hn]
      exact ih h

/-- No undefined range is left inside the cut. -/
theorem undefAt_cut_in (l : List (Nat × Nat × Nat)) (lo hi a : Nat) (h : lo ≤ a) (h' : a < hi) :
    undefAt (cutRange l lo hi) a = none := by
  induction l with
  | nil => rfl
  | cons r l ih =>
    obtain ⟨x, y, e⟩ := r
    show undefAt ((_ ++ _) ++ cutRange l lo hi) a = none
    rw [undefAt_append]
    · exact ih
    · rw [undefAt_append]
      · split
        · simp only [undefAt]; rw [if_neg]; omega
        · rfl
      · split
        · simp only [undefAt]; rw [if_neg]; omega
        · rfl

/-- Outside the cut nothing becomes undefined. -/
theorem undefAt_cut_none (l : List (Nat × Nat × Nat)) (lo hi a : Nat) (h : undefAt l a = none) :
    undefAt (cutRange l lo hi) a = none := by
  induction l with
  | nil => rfl
  | cons r l ih =>
    obtain ⟨x, y, e⟩ := r
    unfold undefAt at h
    split at h
    · cases h
    · rename_i hn
      show undefAt ((_ ++ _) ++ cutRange l lo hi) a = none
      rw [undefAt_append]
      · exact ih h
      · rw [undefAt_append]
        · split
          · simp only [undefAt]; rw [if_neg]; omega
          · rfl
        · split
          · simp only [undefAt]; rw [if_neg]; omega
          · rfl

/-- Outside the cut the contents stay as undefined as they were. -/
theorem undefAt_cut_out (l : List (Nat × Nat × Nat)) (lo hi a : Nat) (hl : lo ≤ hi) (h : a < lo ∨ hi ≤ a) :
    undefAt (cutRange l lo hi) a = undefAt l a := by
  induction l with
  | nil => rfl
  | cons r l ih =>
    obtain ⟨x, y, e⟩ := r
    show undefAt ((_ ++ _) ++ cutRange l lo hi) a = _
    by_cases hc : x ≤ a ∧ a < y
    · rw [undefAt, if_pos hc, List.append_assoc]
      rcases h with h | h
      · rw [if_pos (show x < min y lo by omega), List.singleton_append, undefAt, if_pos (by omega)]
      · rw [undefAt_append _ _ _ (by split <;> simp only [undefAt]; rw [if_neg (by omega)]),
          if_pos (show max x hi < y by omega), List.singleton_append, undefAt, if_pos (by omega)]
    · rw [undefAt, if_neg hc, undefAt_append _ _ _ ?_, ih]
      rw [undefAt_append] <;> split <;> simp only [undefAt] <;> rw [if_neg (by omega)]

theorem undefAt_put_out (l : List (Nat × Nat × Nat)) (lo hi e a : Nat) (h : a < lo ∨ hi ≤ a) :
    undefAt (putRange l lo hi e) a = undefAt l a := by
  induction l with
  | nil => simp only [putRange, undefAt]; rw [if_neg (by omega)]
  | cons r l ih =>
    obtain ⟨x, y, f⟩ := r
    unfold putRange
    split
    · rw [undefAt, if_neg (by omega)]
    · rw [undefAt, undefAt, ih]

/-! ## Memories (R7) -/

/-- A byte just written is the byte read. -/
theorem read_write_same (m : Memory) (a : Nat) (b : Byte) : (m.write a b).read a = b := by
  unfold Memory.read Memory.write unlisted
  dsimp only
  rw [undefAt_cut_in _ _ _ _ (le_refl a) (Nat.lt_succ_self a)]
  exact tget_tset_same 0#8 m.cells a b

/-- A write leaves every other byte. -/
theorem read_write_other (m : Memory) (a x : Nat) (b : Byte) (h : x ≠ a) : (m.write a b).read x = m.read x := by
  unfold Memory.read Memory.write
  dsimp only
  rw [tget_tset_other _ _ _ _ _ _ h]
  unfold unlisted
  dsimp only
  rw [undefAt_cut_out _ _ _ _ (by omega) (by omega)]

/-- The canonical form, as a statement about every cell. -/
theorem wf_iff (m : Memory) :
    m.wf = true ↔ tsorted m.cells = true ∧ ∀ c ∈ m.cells, c.2 ≠ 0#8 ∧ undefAt m.undef c.1 = none := by
  simp [Memory.wf, Option.isNone_iff_eq_none]

theorem wf_empty : Memory.empty.wf = true := rfl

theorem wf_write (m : Memory) (a : Nat) (b : Byte) (h : m.wf = true) : (m.write a b).wf = true := by
  rw [wf_iff] at h ⊢
  obtain ⟨hs, hc⟩ := h
  unfold Memory.write tset
  dsimp only
  split
  · rw [terase_eq_filter]
    refine ⟨tsorted_filter _ _ hs, fun c hm => ?_⟩
    obtain ⟨hm, _⟩ := List.mem_filter.mp hm
    exact ⟨(hc c hm).1, undefAt_cut_none _ _ _ _ (hc c hm).2⟩
  · rename_i hb
    refine ⟨tsorted_tput _ _ _ hs, fun c hm => ?_⟩
    rcases mem_tput hm with rfl | hm
    · exact ⟨hb, undefAt_cut_in _ _ _ _ (le_refl a) (Nat.lt_succ_self a)⟩
    · exact ⟨(hc c hm).1, undefAt_cut_none _ _ _ _ (hc c hm).2⟩

theorem wf_clear (m : Memory) (lo hi : Nat) (h : m.wf = true) : (m.clear lo hi).wf = true := by
  rw [wf_iff] at h ⊢
  obtain ⟨hs, hc⟩ := h
  refine ⟨tsorted_filter _ _ hs, fun c hm => ?_⟩
  obtain ⟨hm, _⟩ := List.mem_filter.mp hm
  exact ⟨(hc c hm).1, undefAt_cut_none _ _ _ _ (hc c hm).2⟩

theorem wf_markUndef (m : Memory) (lo hi e : Nat) (h : m.wf = true) : (m.markUndef lo hi e).wf = true := by
  unfold Memory.markUndef
  split
  · rw [wf_iff] at h ⊢
    obtain ⟨hs, hc⟩ := h
    refine ⟨tsorted_filter _ _ hs, fun c hm => ?_⟩
    obtain ⟨hm, hp⟩ := List.mem_filter.mp hm
    refine ⟨(hc c hm).1, ?_⟩
    have hp : c.1 < lo ∨ hi ≤ c.1 := by simpa using hp
    show undefAt (putRange _ lo hi e) c.1 = none
    rw [undefAt_put_out _ _ _ _ _ hp]
    exact undefAt_cut_none _ _ _ _ (hc c hm).2
  · exact h

theorem wf_writeN (m : Memory) (a : Nat) (l : List Byte) (h : m.wf = true) : (m.writeN a l).wf = true := by
  induction l generalizing m a with
  | nil => exact h
  | cons b r ih => exact ih _ _ (wf_write m a b h)

theorem wf_writeE (m : Memory) (a : Nat) (l : List WByte) (h : m.wf = true) : (m.writeE a l).wf = true := by
  induction l generalizing m a with
  | nil => exact h
  | cons b r ih =>
    obtain ⟨b, e⟩ := b
    unfold Memory.writeE
    split
    · exact ih _ _ (wf_write m a b h)
    · exact ih _ _ h

theorem wf_copyFrom (m src : Memory) (lo n dst : Nat) (h : m.wf = true) : (m.copyFrom src lo n dst).wf = true := by
  unfold Memory.copyFrom
  dsimp only
  have h1 : ∀ (l : List (Nat × Nat × Nat)) (t : Memory), t.wf = true →
      (l.foldl (fun t r => t.markUndef r.1 r.2.1 r.2.2) t).wf = true := by
    intro l
    induction l with
    | nil => exact fun _ h => h
    | cons r l ih => exact fun t ht => ih _ (wf_markUndef t _ _ _ ht)
  have h2 : ∀ (l : List Host.Cell) (t : Memory), t.wf = true →
      (l.foldl (fun t c => t.write (c.1 - lo + dst) c.2) t).wf = true := by
    intro l
    induction l with
    | nil => exact fun _ h => h
    | cons c l ih => exact fun t ht => ih _ (wf_write t _ _ ht)
  exact h2 _ _ (h1 _ _ (wf_clear m _ _ h))

/-- Bytes outside a run that is written read as before. -/
theorem read_writeE_other (m : Memory) (a x : Nat) (l : List WByte) (h : x < a ∨ a + l.length ≤ x) :
    (m.writeE a l).read x = m.read x := by
  induction l generalizing m a with
  | nil => rfl
  | cons b r ih =>
    obtain ⟨b, e⟩ := b
    simp only [List.length_cons] at h
    unfold Memory.writeE
    rw [ih _ _ (by omega)]
    split
    · exact read_write_other m a x b (by omega)
    · rfl

end Sys2Proof.Machine
end

