-- ==== Sys2Proof/Laws/State.lean ====
section
/-! SUPPORT. What each named update of State leaves as it was, field by field. -/

namespace Sys2Proof.Machine

@[simp] theorem emit_pending (s : State) (o : Out) : (s.emit o).pending = s.pending := rfl
@[simp] theorem emit_waits (s : State) (o : Out) : (s.emit o).waits = s.waits := rfl
@[simp] theorem emit_build (s : State) (o : Out) : (s.emit o).build = s.build := rfl
@[simp] theorem emit_regs (s : State) (o : Out) : (s.emit o).regs = s.regs := rfl
@[simp] theorem emit_hiLatch (s : State) (o : Out) : (s.emit o).hiLatch = s.hiLatch := rfl
@[simp] theorem emit_hw (s : State) (o : Out) : (s.emit o).hw = s.hw := rfl
@[simp] theorem emit_accesses (s : State) (o : Out) : (s.emit o).accesses = s.accesses := rfl
@[simp] theorem emit_taking (s : State) (o : Out) : (s.emit o).taking = s.taking := rfl
@[simp] theorem emit_freeCtr (s : State) (o : Out) : (s.emit o).freeCtr = s.freeCtr := rfl
@[simp] theorem emit_pt (s : State) (o : Out) : (s.emit o).pt = s.pt := rfl
@[simp] theorem emit_clk (s : State) (o : Out) : (s.emit o).clk = s.clk := rfl
@[simp] theorem emit_evl (s : State) (o : Out) : (s.emit o).evl = s.evl := rfl
@[simp] theorem emit_ctxs (s : State) (o : Out) : (s.emit o).ctxs = s.ctxs := rfl
@[simp] theorem emit_xl (s : State) (o : Out) : (s.emit o).xl = s.xl := rfl
@[simp] theorem emit_bankMem (s : State) (o : Out) : (s.emit o).bankMem = s.bankMem := rfl
@[simp] theorem emit_bankMark (s : State) (o : Out) : (s.emit o).bankMark = s.bankMark := rfl
@[simp] theorem emit_tableMark (s : State) (o : Out) : (s.emit o).tableMark = s.tableMark := rfl
@[simp] theorem emit_stackMem (s : State) (o : Out) : (s.emit o).stackMem = s.stackMem := rfl
@[simp] theorem emit_extMem (s : State) (o : Out) : (s.emit o).extMem = s.extMem := rfl
@[simp] theorem emit_clerkMem (s : State) (o : Out) : (s.emit o).clerkMem = s.clerkMem := rfl
@[simp] theorem emit_mesh (s : State) (o : Out) : (s.emit o).mesh = s.mesh := rfl
@[simp] theorem emit_regu (s : State) (o : Out) : (s.emit o).regu = s.regu := rfl
@[simp] theorem emit_work (s : State) (o : Out) : (s.emit o).work = s.work := rfl
@[simp] theorem emit_sync (s : State) (o : Out) : (s.emit o).sync = s.sync := rfl
@[simp] theorem emit_float (s : State) (o : Out) : (s.emit o).float = s.float := rfl
@[simp] theorem emit_slc (s : State) (o : Out) : (s.emit o).slc = s.slc := rfl
@[simp] theorem emit_edge (s : State) (o : Out) : (s.emit o).edge = s.edge := rfl
@[simp] theorem emit_ras (s : State) (o : Out) : (s.emit o).ras = s.ras := rfl
@[simp] theorem emit_pwr (s : State) (o : Out) : (s.emit o).pwr = s.pwr := rfl
@[simp] theorem emit_obs (s : State) (o : Out) : (s.emit o).obs = s.obs := rfl
@[simp] theorem emit_sessions (s : State) (o : Out) : (s.emit o).sessions = s.sessions := rfl
@[simp] theorem emit_ports (s : State) (o : Out) : (s.emit o).ports = s.ports := rfl

@[simp] theorem setRg_pending (s : State) (o v : Nat) : (s.setRg o v).pending = s.pending := rfl
@[simp] theorem setRg_waits (s : State) (o v : Nat) : (s.setRg o v).waits = s.waits := rfl
@[simp] theorem setRg_build (s : State) (o v : Nat) : (s.setRg o v).build = s.build := rfl
@[simp] theorem setRg_hiLatch (s : State) (o v : Nat) : (s.setRg o v).hiLatch = s.hiLatch := rfl
@[simp] theorem setRg_hw (s : State) (o v : Nat) : (s.setRg o v).hw = s.hw := rfl
@[simp] theorem setRg_accesses (s : State) (o v : Nat) : (s.setRg o v).accesses = s.accesses := rfl
@[simp] theorem setRg_taking (s : State) (o v : Nat) : (s.setRg o v).taking = s.taking := rfl
@[simp] theorem setRg_freeCtr (s : State) (o v : Nat) : (s.setRg o v).freeCtr = s.freeCtr := rfl
@[simp] theorem setRg_pt (s : State) (o v : Nat) : (s.setRg o v).pt = s.pt := rfl
@[simp] theorem setRg_clk (s : State) (o v : Nat) : (s.setRg o v).clk = s.clk := rfl
@[simp] theorem setRg_evl (s : State) (o v : Nat) : (s.setRg o v).evl = s.evl := rfl
@[simp] theorem setRg_ctxs (s : State) (o v : Nat) : (s.setRg o v).ctxs = s.ctxs := rfl
@[simp] theorem setRg_xl (s : State) (o v : Nat) : (s.setRg o v).xl = s.xl := rfl
@[simp] theorem setRg_bankMem (s : State) (o v : Nat) : (s.setRg o v).bankMem = s.bankMem := rfl
@[simp] theorem setRg_bankMark (s : State) (o v : Nat) : (s.setRg o v).bankMark = s.bankMark := rfl
@[simp] theorem setRg_tableMark (s : State) (o v : Nat) : (s.setRg o v).tableMark = s.tableMark := rfl
@[simp] theorem setRg_stackMem (s : State) (o v : Nat) : (s.setRg o v).stackMem = s.stackMem := rfl
@[simp] theorem setRg_extMem (s : State) (o v : Nat) : (s.setRg o v).extMem = s.extMem := rfl
@[simp] theorem setRg_clerkMem (s : State) (o v : Nat) : (s.setRg o v).clerkMem = s.clerkMem := rfl
@[simp] theorem setRg_mesh (s : State) (o v : Nat) : (s.setRg o v).mesh = s.mesh := rfl
@[simp] theorem setRg_regu (s : State) (o v : Nat) : (s.setRg o v).regu = s.regu := rfl
@[simp] theorem setRg_work (s : State) (o v : Nat) : (s.setRg o v).work = s.work := rfl
@[simp] theorem setRg_sync (s : State) (o v : Nat) : (s.setRg o v).sync = s.sync := rfl
@[simp] theorem setRg_float (s : State) (o v : Nat) : (s.setRg o v).float = s.float := rfl
@[simp] theorem setRg_slc (s : State) (o v : Nat) : (s.setRg o v).slc = s.slc := rfl
@[simp] theorem setRg_edge (s : State) (o v : Nat) : (s.setRg o v).edge = s.edge := rfl
@[simp] theorem setRg_ras (s : State) (o v : Nat) : (s.setRg o v).ras = s.ras := rfl
@[simp] theorem setRg_pwr (s : State) (o v : Nat) : (s.setRg o v).pwr = s.pwr := rfl
@[simp] theorem setRg_obs (s : State) (o v : Nat) : (s.setRg o v).obs = s.obs := rfl
@[simp] theorem setRg_sessions (s : State) (o v : Nat) : (s.setRg o v).sessions = s.sessions := rfl
@[simp] theorem setRg_ports (s : State) (o v : Nat) : (s.setRg o v).ports = s.ports := rfl
@[simp] theorem setRg_out (s : State) (o v : Nat) : (s.setRg o v).out = s.out := rfl

@[simp] theorem setRgBit_pending (s : State) (o i : Nat) (b : Bool) : (s.setRgBit o i b).pending = s.pending := rfl
@[simp] theorem setRgBit_waits (s : State) (o i : Nat) (b : Bool) : (s.setRgBit o i b).waits = s.waits := rfl
@[simp] theorem setRgBit_build (s : State) (o i : Nat) (b : Bool) : (s.setRgBit o i b).build = s.build := rfl
@[simp] theorem setRgBit_hiLatch (s : State) (o i : Nat) (b : Bool) : (s.setRgBit o i b).hiLatch = s.hiLatch := rfl
@[simp] theorem setRgBit_accesses (s : State) (o i : Nat) (b : Bool) : (s.setRgBit o i b).accesses = s.accesses := rfl
@[simp] theorem setRgBit_taking (s : State) (o i : Nat) (b : Bool) : (s.setRgBit o i b).taking = s.taking := rfl
@[simp] theorem setRgBit_freeCtr (s : State) (o i : Nat) (b : Bool) : (s.setRgBit o i b).freeCtr = s.freeCtr := rfl
@[simp] theorem setRgBit_pt (s : State) (o i : Nat) (b : Bool) : (s.setRgBit o i b).pt = s.pt := rfl
@[simp] theorem setRgBit_clk (s : State) (o i : Nat) (b : Bool) : (s.setRgBit o i b).clk = s.clk := rfl
@[simp] theorem setRgBit_evl (s : State) (o i : Nat) (b : Bool) : (s.setRgBit o i b).evl = s.evl := rfl
@[simp] theorem setRgBit_ctxs (s : State) (o i : Nat) (b : Bool) : (s.setRgBit o i b).ctxs = s.ctxs := rfl
@[simp] theorem setRgBit_xl (s : State) (o i : Nat) (b : Bool) : (s.setRgBit o i b).xl = s.xl := rfl
@[simp] theorem setRgBit_bankMem (s : State) (o i : Nat) (b : Bool) : (s.setRgBit o i b).bankMem = s.bankMem := rfl
@[simp] theorem setRgBit_bankMark (s : State) (o i : Nat) (b : Bool) : (s.setRgBit o i b).bankMark = s.bankMark := rfl
@[simp] theorem setRgBit_tableMark (s : State) (o i : Nat) (b : Bool) : (s.setRgBit o i b).tableMark = s.tableMark := rfl
@[simp] theorem setRgBit_stackMem (s : State) (o i : Nat) (b : Bool) : (s.setRgBit o i b).stackMem = s.stackMem := rfl
@[simp] theorem setRgBit_extMem (s : State) (o i : Nat) (b : Bool) : (s.setRgBit o i b).extMem = s.extMem := rfl
@[simp] theorem setRgBit_clerkMem (s : State) (o i : Nat) (b : Bool) : (s.setRgBit o i b).clerkMem = s.clerkMem := rfl
@[simp] theorem setRgBit_mesh (s : State) (o i : Nat) (b : Bool) : (s.setRgBit o i b).mesh = s.mesh := rfl
@[simp] theorem setRgBit_regu (s : State) (o i : Nat) (b : Bool) : (s.setRgBit o i b).regu = s.regu := rfl
@[simp] theorem setRgBit_work (s : State) (o i : Nat) (b : Bool) : (s.setRgBit o i b).work = s.work := rfl
@[simp] theorem setRgBit_sync (s : State) (o i : Nat) (b : Bool) : (s.setRgBit o i b).sync = s.sync := rfl
@[simp] theorem setRgBit_float (s : State) (o i : Nat) (b : Bool) : (s.setRgBit o i b).float = s.float := rfl
@[simp] theorem setRgBit_slc (s : State) (o i : Nat) (b : Bool) : (s.setRgBit o i b).slc = s.slc := rfl
@[simp] theorem setRgBit_edge (s : State) (o i : Nat) (b : Bool) : (s.setRgBit o i b).edge = s.edge := rfl
@[simp] theorem setRgBit_ras (s : State) (o i : Nat) (b : Bool) : (s.setRgBit o i b).ras = s.ras := rfl
@[simp] theorem setRgBit_pwr (s : State) (o i : Nat) (b : Bool) : (s.setRgBit o i b).pwr = s.pwr := rfl
@[simp] theorem setRgBit_obs (s : State) (o i : Nat) (b : Bool) : (s.setRgBit o i b).obs = s.obs := rfl
@[simp] theorem setRgBit_sessions (s : State) (o i : Nat) (b : Bool) : (s.setRgBit o i b).sessions = s.sessions := rfl
@[simp] theorem setRgBit_ports (s : State) (o i : Nat) (b : Bool) : (s.setRgBit o i b).ports = s.ports := rfl
@[simp] theorem setRgBit_out (s : State) (o i : Nat) (b : Bool) : (s.setRgBit o i b).out = s.out := rfl

@[simp] theorem driveField_pending (s : State) (o lo w v : Nat) : (s.driveField o lo w v).pending = s.pending := rfl
@[simp] theorem driveField_waits (s : State) (o lo w v : Nat) : (s.driveField o lo w v).waits = s.waits := rfl
@[simp] theorem driveField_build (s : State) (o lo w v : Nat) : (s.driveField o lo w v).build = s.build := rfl
@[simp] theorem driveField_hiLatch (s : State) (o lo w v : Nat) : (s.driveField o lo w v).hiLatch = s.hiLatch := rfl
@[simp] theorem driveField_accesses (s : State) (o lo w v : Nat) : (s.driveField o lo w v).accesses = s.accesses := rfl
@[simp] theorem driveField_taking (s : State) (o lo w v : Nat) : (s.driveField o lo w v).taking = s.taking := rfl
@[simp] theorem driveField_freeCtr (s : State) (o lo w v : Nat) : (s.driveField o lo w v).freeCtr = s.freeCtr := rfl
@[simp] theorem driveField_pt (s : State) (o lo w v : Nat) : (s.driveField o lo w v).pt = s.pt := rfl
@[simp] theorem driveField_clk (s : State) (o lo w v : Nat) : (s.driveField o lo w v).clk = s.clk := rfl
@[simp] theorem driveField_evl (s : State) (o lo w v : Nat) : (s.driveField o lo w v).evl = s.evl := rfl
@[simp] theorem driveField_ctxs (s : State) (o lo w v : Nat) : (s.driveField o lo w v).ctxs = s.ctxs := rfl
@[simp] theorem driveField_xl (s : State) (o lo w v : Nat) : (s.driveField o lo w v).xl = s.xl := rfl
@[simp] theorem driveField_bankMem (s : State) (o lo w v : Nat) : (s.driveField o lo w v).bankMem = s.bankMem := rfl
@[simp] theorem driveField_bankMark (s : State) (o lo w v : Nat) : (s.driveField o lo w v).bankMark = s.bankMark := rfl
@[simp] theorem driveField_tableMark (s : State) (o lo w v : Nat) : (s.driveField o lo w v).tableMark = s.tableMark := rfl
@[simp] theorem driveField_stackMem (s : State) (o lo w v : Nat) : (s.driveField o lo w v).stackMem = s.stackMem := rfl
@[simp] theorem driveField_extMem (s : State) (o lo w v : Nat) : (s.driveField o lo w v).extMem = s.extMem := rfl
@[simp] theorem driveField_clerkMem (s : State) (o lo w v : Nat) : (s.driveField o lo w v).clerkMem = s.clerkMem := rfl
@[simp] theorem driveField_mesh (s : State) (o lo w v : Nat) : (s.driveField o lo w v).mesh = s.mesh := rfl
@[simp] theorem driveField_regu (s : State) (o lo w v : Nat) : (s.driveField o lo w v).regu = s.regu := rfl
@[simp] theorem driveField_work (s : State) (o lo w v : Nat) : (s.driveField o lo w v).work = s.work := rfl
@[simp] theorem driveField_sync (s : State) (o lo w v : Nat) : (s.driveField o lo w v).sync = s.sync := rfl
@[simp] theorem driveField_float (s : State) (o lo w v : Nat) : (s.driveField o lo w v).float = s.float := rfl
@[simp] theorem driveField_slc (s : State) (o lo w v : Nat) : (s.driveField o lo w v).slc = s.slc := rfl
@[simp] theorem driveField_edge (s : State) (o lo w v : Nat) : (s.driveField o lo w v).edge = s.edge := rfl
@[simp] theorem driveField_ras (s : State) (o lo w v : Nat) : (s.driveField o lo w v).ras = s.ras := rfl
@[simp] theorem driveField_pwr (s : State) (o lo w v : Nat) : (s.driveField o lo w v).pwr = s.pwr := rfl
@[simp] theorem driveField_obs (s : State) (o lo w v : Nat) : (s.driveField o lo w v).obs = s.obs := rfl
@[simp] theorem driveField_sessions (s : State) (o lo w v : Nat) : (s.driveField o lo w v).sessions = s.sessions := rfl
@[simp] theorem driveField_ports (s : State) (o lo w v : Nat) : (s.driveField o lo w v).ports = s.ports := rfl
@[simp] theorem driveField_out (s : State) (o lo w v : Nat) : (s.driveField o lo w v).out = s.out := rfl

@[simp] theorem setRgField_pending (s : State) (o lo w v : Nat) : (s.setRgField o lo w v).pending = s.pending := rfl
@[simp] theorem setRgField_waits (s : State) (o lo w v : Nat) : (s.setRgField o lo w v).waits = s.waits := rfl
@[simp] theorem setRgField_build (s : State) (o lo w v : Nat) : (s.setRgField o lo w v).build = s.build := rfl
@[simp] theorem setRgField_hiLatch (s : State) (o lo w v : Nat) : (s.setRgField o lo w v).hiLatch = s.hiLatch := rfl
@[simp] theorem setRgField_hw (s : State) (o lo w v : Nat) : (s.setRgField o lo w v).hw = s.hw := rfl
@[simp] theorem setRgField_accesses (s : State) (o lo w v : Nat) : (s.setRgField o lo w v).accesses = s.accesses := rfl
@[simp] theorem setRgField_taking (s : State) (o lo w v : Nat) : (s.setRgField o lo w v).taking = s.taking := rfl
@[simp] theorem setRgField_freeCtr (s : State) (o lo w v : Nat) : (s.setRgField o lo w v).freeCtr = s.freeCtr := rfl
@[simp] theorem setRgField_pt (s : State) (o lo w v : Nat) : (s.setRgField o lo w v).pt = s.pt := rfl
@[simp] theorem setRgField_clk (s : State) (o lo w v : Nat) : (s.setRgField o lo w v).clk = s.clk := rfl
@[simp] theorem setRgField_evl (s : State) (o lo w v : Nat) : (s.setRgField o lo w v).evl = s.evl := rfl
@[simp] theorem setRgField_ctxs (s : State) (o lo w v : Nat) : (s.setRgField o lo w v).ctxs = s.ctxs := rfl
@[simp] theorem setRgField_xl (s : State) (o lo w v : Nat) : (s.setRgField o lo w v).xl = s.xl := rfl
@[simp] theorem setRgField_bankMem (s : State) (o lo w v : Nat) : (s.setRgField o lo w v).bankMem = s.bankMem := rfl
@[simp] theorem setRgField_bankMark (s : State) (o lo w v : Nat) : (s.setRgField o lo w v).bankMark = s.bankMark := rfl
@[simp] theorem setRgField_tableMark (s : State) (o lo w v : Nat) : (s.setRgField o lo w v).tableMark = s.tableMark := rfl
@[simp] theorem setRgField_stackMem (s : State) (o lo w v : Nat) : (s.setRgField o lo w v).stackMem = s.stackMem := rfl
@[simp] theorem setRgField_extMem (s : State) (o lo w v : Nat) : (s.setRgField o lo w v).extMem = s.extMem := rfl
@[simp] theorem setRgField_clerkMem (s : State) (o lo w v : Nat) : (s.setRgField o lo w v).clerkMem = s.clerkMem := rfl
@[simp] theorem setRgField_mesh (s : State) (o lo w v : Nat) : (s.setRgField o lo w v).mesh = s.mesh := rfl
@[simp] theorem setRgField_regu (s : State) (o lo w v : Nat) : (s.setRgField o lo w v).regu = s.regu := rfl
@[simp] theorem setRgField_work (s : State) (o lo w v : Nat) : (s.setRgField o lo w v).work = s.work := rfl
@[simp] theorem setRgField_sync (s : State) (o lo w v : Nat) : (s.setRgField o lo w v).sync = s.sync := rfl
@[simp] theorem setRgField_float (s : State) (o lo w v : Nat) : (s.setRgField o lo w v).float = s.float := rfl
@[simp] theorem setRgField_slc (s : State) (o lo w v : Nat) : (s.setRgField o lo w v).slc = s.slc := rfl
@[simp] theorem setRgField_edge (s : State) (o lo w v : Nat) : (s.setRgField o lo w v).edge = s.edge := rfl
@[simp] theorem setRgField_ras (s : State) (o lo w v : Nat) : (s.setRgField o lo w v).ras = s.ras := rfl
@[simp] theorem setRgField_pwr (s : State) (o lo w v : Nat) : (s.setRgField o lo w v).pwr = s.pwr := rfl
@[simp] theorem setRgField_obs (s : State) (o lo w v : Nat) : (s.setRgField o lo w v).obs = s.obs := rfl
@[simp] theorem setRgField_sessions (s : State) (o lo w v : Nat) : (s.setRgField o lo w v).sessions = s.sessions := rfl
@[simp] theorem setRgField_ports (s : State) (o lo w v : Nat) : (s.setRgField o lo w v).ports = s.ports := rfl
@[simp] theorem setRgField_out (s : State) (o lo w v : Nat) : (s.setRgField o lo w v).out = s.out := rfl

@[simp] theorem countRg_pending (s : State) (o n : Nat) : (s.countRg o n).pending = s.pending := rfl
@[simp] theorem countRg_waits (s : State) (o n : Nat) : (s.countRg o n).waits = s.waits := rfl
@[simp] theorem countRg_build (s : State) (o n : Nat) : (s.countRg o n).build = s.build := rfl
@[simp] theorem countRg_hiLatch (s : State) (o n : Nat) : (s.countRg o n).hiLatch = s.hiLatch := rfl
@[simp] theorem countRg_accesses (s : State) (o n : Nat) : (s.countRg o n).accesses = s.accesses := rfl
@[simp] theorem countRg_taking (s : State) (o n : Nat) : (s.countRg o n).taking = s.taking := rfl
@[simp] theorem countRg_freeCtr (s : State) (o n : Nat) : (s.countRg o n).freeCtr = s.freeCtr := rfl
@[simp] theorem countRg_pt (s : State) (o n : Nat) : (s.countRg o n).pt = s.pt := rfl
@[simp] theorem countRg_clk (s : State) (o n : Nat) : (s.countRg o n).clk = s.clk := rfl
@[simp] theorem countRg_evl (s : State) (o n : Nat) : (s.countRg o n).evl = s.evl := rfl
@[simp] theorem countRg_ctxs (s : State) (o n : Nat) : (s.countRg o n).ctxs = s.ctxs := rfl
@[simp] theorem countRg_xl (s : State) (o n : Nat) : (s.countRg o n).xl = s.xl := rfl
@[simp] theorem countRg_bankMem (s : State) (o n : Nat) : (s.countRg o n).bankMem = s.bankMem := rfl
@[simp] theorem countRg_bankMark (s : State) (o n : Nat) : (s.countRg o n).bankMark = s.bankMark := rfl
@[simp] theorem countRg_tableMark (s : State) (o n : Nat) : (s.countRg o n).tableMark = s.tableMark := rfl
@[simp] theorem countRg_stackMem (s : State) (o n : Nat) : (s.countRg o n).stackMem = s.stackMem := rfl
@[simp] theorem countRg_extMem (s : State) (o n : Nat) : (s.countRg o n).extMem = s.extMem := rfl
@[simp] theorem countRg_clerkMem (s : State) (o n : Nat) : (s.countRg o n).clerkMem = s.clerkMem := rfl
@[simp] theorem countRg_mesh (s : State) (o n : Nat) : (s.countRg o n).mesh = s.mesh := rfl
@[simp] theorem countRg_regu (s : State) (o n : Nat) : (s.countRg o n).regu = s.regu := rfl
@[simp] theorem countRg_work (s : State) (o n : Nat) : (s.countRg o n).work = s.work := rfl
@[simp] theorem countRg_sync (s : State) (o n : Nat) : (s.countRg o n).sync = s.sync := rfl
@[simp] theorem countRg_float (s : State) (o n : Nat) : (s.countRg o n).float = s.float := rfl
@[simp] theorem countRg_slc (s : State) (o n : Nat) : (s.countRg o n).slc = s.slc := rfl
@[simp] theorem countRg_edge (s : State) (o n : Nat) : (s.countRg o n).edge = s.edge := rfl
@[simp] theorem countRg_ras (s : State) (o n : Nat) : (s.countRg o n).ras = s.ras := rfl
@[simp] theorem countRg_pwr (s : State) (o n : Nat) : (s.countRg o n).pwr = s.pwr := rfl
@[simp] theorem countRg_obs (s : State) (o n : Nat) : (s.countRg o n).obs = s.obs := rfl
@[simp] theorem countRg_sessions (s : State) (o n : Nat) : (s.countRg o n).sessions = s.sessions := rfl
@[simp] theorem countRg_ports (s : State) (o n : Nat) : (s.countRg o n).ports = s.ports := rfl
@[simp] theorem countRg_out (s : State) (o n : Nat) : (s.countRg o n).out = s.out := rfl

@[simp] theorem setRg64_pending (s : State) (lo hi v : Nat) : (s.setRg64 lo hi v).pending = s.pending := rfl
@[simp] theorem setRg64_waits (s : State) (lo hi v : Nat) : (s.setRg64 lo hi v).waits = s.waits := rfl
@[simp] theorem setRg64_build (s : State) (lo hi v : Nat) : (s.setRg64 lo hi v).build = s.build := rfl
@[simp] theorem setRg64_hiLatch (s : State) (lo hi v : Nat) : (s.setRg64 lo hi v).hiLatch = s.hiLatch := rfl
@[simp] theorem setRg64_hw (s : State) (lo hi v : Nat) : (s.setRg64 lo hi v).hw = s.hw := rfl
@[simp] theorem setRg64_accesses (s : State) (lo hi v : Nat) : (s.setRg64 lo hi v).accesses = s.accesses := rfl
@[simp] theorem setRg64_taking (s : State) (lo hi v : Nat) : (s.setRg64 lo hi v).taking = s.taking := rfl
@[simp] theorem setRg64_freeCtr (s : State) (lo hi v : Nat) : (s.setRg64 lo hi v).freeCtr = s.freeCtr := rfl
@[simp] theorem setRg64_pt (s : State) (lo hi v : Nat) : (s.setRg64 lo hi v).pt = s.pt := rfl
@[simp] theorem setRg64_clk (s : State) (lo hi v : Nat) : (s.setRg64 lo hi v).clk = s.clk := rfl
@[simp] theorem setRg64_evl (s : State) (lo hi v : Nat) : (s.setRg64 lo hi v).evl = s.evl := rfl
@[simp] theorem setRg64_ctxs (s : State) (lo hi v : Nat) : (s.setRg64 lo hi v).ctxs = s.ctxs := rfl
@[simp] theorem setRg64_xl (s : State) (lo hi v : Nat) : (s.setRg64 lo hi v).xl = s.xl := rfl
@[simp] theorem setRg64_bankMem (s : State) (lo hi v : Nat) : (s.setRg64 lo hi v).bankMem = s.bankMem := rfl
@[simp] theorem setRg64_bankMark (s : State) (lo hi v : Nat) : (s.setRg64 lo hi v).bankMark = s.bankMark := rfl
@[simp] theorem setRg64_tableMark (s : State) (lo hi v : Nat) : (s.setRg64 lo hi v).tableMark = s.tableMark := rfl
@[simp] theorem setRg64_stackMem (s : State) (lo hi v : Nat) : (s.setRg64 lo hi v).stackMem = s.stackMem := rfl
@[simp] theorem setRg64_extMem (s : State) (lo hi v : Nat) : (s.setRg64 lo hi v).extMem = s.extMem := rfl
@[simp] theorem setRg64_clerkMem (s : State) (lo hi v : Nat) : (s.setRg64 lo hi v).clerkMem = s.clerkMem := rfl
@[simp] theorem setRg64_mesh (s : State) (lo hi v : Nat) : (s.setRg64 lo hi v).mesh = s.mesh := rfl
@[simp] theorem setRg64_regu (s : State) (lo hi v : Nat) : (s.setRg64 lo hi v).regu = s.regu := rfl
@[simp] theorem setRg64_work (s : State) (lo hi v : Nat) : (s.setRg64 lo hi v).work = s.work := rfl
@[simp] theorem setRg64_sync (s : State) (lo hi v : Nat) : (s.setRg64 lo hi v).sync = s.sync := rfl
@[simp] theorem setRg64_float (s : State) (lo hi v : Nat) : (s.setRg64 lo hi v).float = s.float := rfl
@[simp] theorem setRg64_slc (s : State) (lo hi v : Nat) : (s.setRg64 lo hi v).slc = s.slc := rfl
@[simp] theorem setRg64_edge (s : State) (lo hi v : Nat) : (s.setRg64 lo hi v).edge = s.edge := rfl
@[simp] theorem setRg64_ras (s : State) (lo hi v : Nat) : (s.setRg64 lo hi v).ras = s.ras := rfl
@[simp] theorem setRg64_pwr (s : State) (lo hi v : Nat) : (s.setRg64 lo hi v).pwr = s.pwr := rfl
@[simp] theorem setRg64_obs (s : State) (lo hi v : Nat) : (s.setRg64 lo hi v).obs = s.obs := rfl
@[simp] theorem setRg64_sessions (s : State) (lo hi v : Nat) : (s.setRg64 lo hi v).sessions = s.sessions := rfl
@[simp] theorem setRg64_ports (s : State) (lo hi v : Nat) : (s.setRg64 lo hi v).ports = s.ports := rfl
@[simp] theorem setRg64_out (s : State) (lo hi v : Nat) : (s.setRg64 lo hi v).out = s.out := rfl

@[simp] theorem setDom_pending (s : State) (d : Nat) (x : Dom) : (s.setDom d x).pending = s.pending := rfl
@[simp] theorem setDom_waits (s : State) (d : Nat) (x : Dom) : (s.setDom d x).waits = s.waits := rfl
@[simp] theorem setDom_build (s : State) (d : Nat) (x : Dom) : (s.setDom d x).build = s.build := rfl
@[simp] theorem setDom_regs (s : State) (d : Nat) (x : Dom) : (s.setDom d x).regs = s.regs := rfl
@[simp] theorem setDom_hiLatch (s : State) (d : Nat) (x : Dom) : (s.setDom d x).hiLatch = s.hiLatch := rfl
@[simp] theorem setDom_hw (s : State) (d : Nat) (x : Dom) : (s.setDom d x).hw = s.hw := rfl
@[simp] theorem setDom_accesses (s : State) (d : Nat) (x : Dom) : (s.setDom d x).accesses = s.accesses := rfl
@[simp] theorem setDom_taking (s : State) (d : Nat) (x : Dom) : (s.setDom d x).taking = s.taking := rfl
@[simp] theorem setDom_freeCtr (s : State) (d : Nat) (x : Dom) : (s.setDom d x).freeCtr = s.freeCtr := rfl
@[simp] theorem setDom_pt (s : State) (d : Nat) (x : Dom) : (s.setDom d x).pt = s.pt := rfl
@[simp] theorem setDom_clk (s : State) (d : Nat) (x : Dom) : (s.setDom d x).clk = s.clk := rfl
@[simp] theorem setDom_evl (s : State) (d : Nat) (x : Dom) : (s.setDom d x).evl = s.evl := rfl
@[simp] theorem setDom_ctxs (s : State) (d : Nat) (x : Dom) : (s.setDom d x).ctxs = s.ctxs := rfl
@[simp] theorem setDom_xl (s : State) (d : Nat) (x : Dom) : (s.setDom d x).xl = s.xl := rfl
@[simp] theorem setDom_bankMem (s : State) (d : Nat) (x : Dom) : (s.setDom d x).bankMem = s.bankMem := rfl
@[simp] theorem setDom_bankMark (s : State) (d : Nat) (x : Dom) : (s.setDom d x).bankMark = s.bankMark := rfl
@[simp] theorem setDom_tableMark (s : State) (d : Nat) (x : Dom) : (s.setDom d x).tableMark = s.tableMark := rfl
@[simp] theorem setDom_stackMem (s : State) (d : Nat) (x : Dom) : (s.setDom d x).stackMem = s.stackMem := rfl
@[simp] theorem setDom_extMem (s : State) (d : Nat) (x : Dom) : (s.setDom d x).extMem = s.extMem := rfl
@[simp] theorem setDom_clerkMem (s : State) (d : Nat) (x : Dom) : (s.setDom d x).clerkMem = s.clerkMem := rfl
@[simp] theorem setDom_mesh (s : State) (d : Nat) (x : Dom) : (s.setDom d x).mesh = s.mesh := rfl
@[simp] theorem setDom_regu (s : State) (d : Nat) (x : Dom) : (s.setDom d x).regu = s.regu := rfl
@[simp] theorem setDom_work (s : State) (d : Nat) (x : Dom) : (s.setDom d x).work = s.work := rfl
@[simp] theorem setDom_sync (s : State) (d : Nat) (x : Dom) : (s.setDom d x).sync = s.sync := rfl
@[simp] theorem setDom_float (s : State) (d : Nat) (x : Dom) : (s.setDom d x).float = s.float := rfl
@[simp] theorem setDom_slc (s : State) (d : Nat) (x : Dom) : (s.setDom d x).slc = s.slc := rfl
@[simp] theorem setDom_edge (s : State) (d : Nat) (x : Dom) : (s.setDom d x).edge = s.edge := rfl
@[simp] theorem setDom_ras (s : State) (d : Nat) (x : Dom) : (s.setDom d x).ras = s.ras := rfl
@[simp] theorem setDom_obs (s : State) (d : Nat) (x : Dom) : (s.setDom d x).obs = s.obs := rfl
@[simp] theorem setDom_sessions (s : State) (d : Nat) (x : Dom) : (s.setDom d x).sessions = s.sessions := rfl
@[simp] theorem setDom_ports (s : State) (d : Nat) (x : Dom) : (s.setDom d x).ports = s.ports := rfl
@[simp] theorem setDom_out (s : State) (d : Nat) (x : Dom) : (s.setDom d x).out = s.out := rfl

@[simp] theorem setFrame_pending (s : State) (f : Nat) (x : Frame) : (s.setFrame f x).pending = s.pending := rfl
@[simp] theorem setFrame_waits (s : State) (f : Nat) (x : Frame) : (s.setFrame f x).waits = s.waits := rfl
@[simp] theorem setFrame_build (s : State) (f : Nat) (x : Frame) : (s.setFrame f x).build = s.build := rfl
@[simp] theorem setFrame_regs (s : State) (f : Nat) (x : Frame) : (s.setFrame f x).regs = s.regs := rfl
@[simp] theorem setFrame_hiLatch (s : State) (f : Nat) (x : Frame) : (s.setFrame f x).hiLatch = s.hiLatch := rfl
@[simp] theorem setFrame_hw (s : State) (f : Nat) (x : Frame) : (s.setFrame f x).hw = s.hw := rfl
@[simp] theorem setFrame_accesses (s : State) (f : Nat) (x : Frame) : (s.setFrame f x).accesses = s.accesses := rfl
@[simp] theorem setFrame_taking (s : State) (f : Nat) (x : Frame) : (s.setFrame f x).taking = s.taking := rfl
@[simp] theorem setFrame_freeCtr (s : State) (f : Nat) (x : Frame) : (s.setFrame f x).freeCtr = s.freeCtr := rfl
@[simp] theorem setFrame_pt (s : State) (f : Nat) (x : Frame) : (s.setFrame f x).pt = s.pt := rfl
@[simp] theorem setFrame_clk (s : State) (f : Nat) (x : Frame) : (s.setFrame f x).clk = s.clk := rfl
@[simp] theorem setFrame_evl (s : State) (f : Nat) (x : Frame) : (s.setFrame f x).evl = s.evl := rfl
@[simp] theorem setFrame_ctxs (s : State) (f : Nat) (x : Frame) : (s.setFrame f x).ctxs = s.ctxs := rfl
@[simp] theorem setFrame_bankMem (s : State) (f : Nat) (x : Frame) : (s.setFrame f x).bankMem = s.bankMem := rfl
@[simp] theorem setFrame_bankMark (s : State) (f : Nat) (x : Frame) : (s.setFrame f x).bankMark = s.bankMark := rfl
@[simp] theorem setFrame_tableMark (s : State) (f : Nat) (x : Frame) : (s.setFrame f x).tableMark = s.tableMark := rfl
@[simp] theorem setFrame_stackMem (s : State) (f : Nat) (x : Frame) : (s.setFrame f x).stackMem = s.stackMem := rfl
@[simp] theorem setFrame_extMem (s : State) (f : Nat) (x : Frame) : (s.setFrame f x).extMem = s.extMem := rfl
@[simp] theorem setFrame_clerkMem (s : State) (f : Nat) (x : Frame) : (s.setFrame f x).clerkMem = s.clerkMem := rfl
@[simp] theorem setFrame_mesh (s : State) (f : Nat) (x : Frame) : (s.setFrame f x).mesh = s.mesh := rfl
@[simp] theorem setFrame_regu (s : State) (f : Nat) (x : Frame) : (s.setFrame f x).regu = s.regu := rfl
@[simp] theorem setFrame_work (s : State) (f : Nat) (x : Frame) : (s.setFrame f x).work = s.work := rfl
@[simp] theorem setFrame_sync (s : State) (f : Nat) (x : Frame) : (s.setFrame f x).sync = s.sync := rfl
@[simp] theorem setFrame_float (s : State) (f : Nat) (x : Frame) : (s.setFrame f x).float = s.float := rfl
@[simp] theorem setFrame_slc (s : State) (f : Nat) (x : Frame) : (s.setFrame f x).slc = s.slc := rfl
@[simp] theorem setFrame_edge (s : State) (f : Nat) (x : Frame) : (s.setFrame f x).edge = s.edge := rfl
@[simp] theorem setFrame_ras (s : State) (f : Nat) (x : Frame) : (s.setFrame f x).ras = s.ras := rfl
@[simp] theorem setFrame_pwr (s : State) (f : Nat) (x : Frame) : (s.setFrame f x).pwr = s.pwr := rfl
@[simp] theorem setFrame_obs (s : State) (f : Nat) (x : Frame) : (s.setFrame f x).obs = s.obs := rfl
@[simp] theorem setFrame_sessions (s : State) (f : Nat) (x : Frame) : (s.setFrame f x).sessions = s.sessions := rfl
@[simp] theorem setFrame_ports (s : State) (f : Nat) (x : Frame) : (s.setFrame f x).ports = s.ports := rfl
@[simp] theorem setFrame_out (s : State) (f : Nat) (x : Frame) : (s.setFrame f x).out = s.out := rfl

@[simp] theorem setCtx_pending (s : State) (c : Nat) (x : Ctx) : (s.setCtx c x).pending = s.pending := rfl
@[simp] theorem setCtx_waits (s : State) (c : Nat) (x : Ctx) : (s.setCtx c x).waits = s.waits := rfl
@[simp] theorem setCtx_build (s : State) (c : Nat) (x : Ctx) : (s.setCtx c x).build = s.build := rfl
@[simp] theorem setCtx_regs (s : State) (c : Nat) (x : Ctx) : (s.setCtx c x).regs = s.regs := rfl
@[simp] theorem setCtx_hiLatch (s : State) (c : Nat) (x : Ctx) : (s.setCtx c x).hiLatch = s.hiLatch := rfl
@[simp] theorem setCtx_hw (s : State) (c : Nat) (x : Ctx) : (s.setCtx c x).hw = s.hw := rfl
@[simp] theorem setCtx_accesses (s : State) (c : Nat) (x : Ctx) : (s.setCtx c x).accesses = s.accesses := rfl
@[simp] theorem setCtx_taking (s : State) (c : Nat) (x : Ctx) : (s.setCtx c x).taking = s.taking := rfl
@[simp] theorem setCtx_freeCtr (s : State) (c : Nat) (x : Ctx) : (s.setCtx c x).freeCtr = s.freeCtr := rfl
@[simp] theorem setCtx_pt (s : State) (c : Nat) (x : Ctx) : (s.setCtx c x).pt = s.pt := rfl
@[simp] theorem setCtx_clk (s : State) (c : Nat) (x : Ctx) : (s.setCtx c x).clk = s.clk := rfl
@[simp] theorem setCtx_evl (s : State) (c : Nat) (x : Ctx) : (s.setCtx c x).evl = s.evl := rfl
@[simp] theorem setCtx_xl (s : State) (c : Nat) (x : Ctx) : (s.setCtx c x).xl = s.xl := rfl
@[simp] theorem setCtx_bankMem (s : State) (c : Nat) (x : Ctx) : (s.setCtx c x).bankMem = s.bankMem := rfl
@[simp] theorem setCtx_bankMark (s : State) (c : Nat) (x : Ctx) : (s.setCtx c x).bankMark = s.bankMark := rfl
@[simp] theorem setCtx_tableMark (s : State) (c : Nat) (x : Ctx) : (s.setCtx c x).tableMark = s.tableMark := rfl
@[simp] theorem setCtx_stackMem (s : State) (c : Nat) (x : Ctx) : (s.setCtx c x).stackMem = s.stackMem := rfl
@[simp] theorem setCtx_extMem (s : State) (c : Nat) (x : Ctx) : (s.setCtx c x).extMem = s.extMem := rfl
@[simp] theorem setCtx_clerkMem (s : State) (c : Nat) (x : Ctx) : (s.setCtx c x).clerkMem = s.clerkMem := rfl
@[simp] theorem setCtx_mesh (s : State) (c : Nat) (x : Ctx) : (s.setCtx c x).mesh = s.mesh := rfl
@[simp] theorem setCtx_regu (s : State) (c : Nat) (x : Ctx) : (s.setCtx c x).regu = s.regu := rfl
@[simp] theorem setCtx_work (s : State) (c : Nat) (x : Ctx) : (s.setCtx c x).work = s.work := rfl
@[simp] theorem setCtx_sync (s : State) (c : Nat) (x : Ctx) : (s.setCtx c x).sync = s.sync := rfl
@[simp] theorem setCtx_float (s : State) (c : Nat) (x : Ctx) : (s.setCtx c x).float = s.float := rfl
@[simp] theorem setCtx_slc (s : State) (c : Nat) (x : Ctx) : (s.setCtx c x).slc = s.slc := rfl
@[simp] theorem setCtx_edge (s : State) (c : Nat) (x : Ctx) : (s.setCtx c x).edge = s.edge := rfl
@[simp] theorem setCtx_ras (s : State) (c : Nat) (x : Ctx) : (s.setCtx c x).ras = s.ras := rfl
@[simp] theorem setCtx_pwr (s : State) (c : Nat) (x : Ctx) : (s.setCtx c x).pwr = s.pwr := rfl
@[simp] theorem setCtx_obs (s : State) (c : Nat) (x : Ctx) : (s.setCtx c x).obs = s.obs := rfl
@[simp] theorem setCtx_sessions (s : State) (c : Nat) (x : Ctx) : (s.setCtx c x).sessions = s.sessions := rfl
@[simp] theorem setCtx_ports (s : State) (c : Nat) (x : Ctx) : (s.setCtx c x).ports = s.ports := rfl
@[simp] theorem setCtx_out (s : State) (c : Nat) (x : Ctx) : (s.setCtx c x).out = s.out := rfl

@[simp] theorem setTeller_pending (s : State) (b : Nat) (x : Teller) : (s.setTeller b x).pending = s.pending := rfl
@[simp] theorem setTeller_waits (s : State) (b : Nat) (x : Teller) : (s.setTeller b x).waits = s.waits := rfl
@[simp] theorem setTeller_build (s : State) (b : Nat) (x : Teller) : (s.setTeller b x).build = s.build := rfl
@[simp] theorem setTeller_regs (s : State) (b : Nat) (x : Teller) : (s.setTeller b x).regs = s.regs := rfl
@[simp] theorem setTeller_hiLatch (s : State) (b : Nat) (x : Teller) : (s.setTeller b x).hiLatch = s.hiLatch := rfl
@[simp] theorem setTeller_hw (s : State) (b : Nat) (x : Teller) : (s.setTeller b x).hw = s.hw := rfl
@[simp] theorem setTeller_accesses (s : State) (b : Nat) (x : Teller) : (s.setTeller b x).accesses = s.accesses := rfl
@[simp] theorem setTeller_taking (s : State) (b : Nat) (x : Teller) : (s.setTeller b x).taking = s.taking := rfl
@[simp] theorem setTeller_freeCtr (s : State) (b : Nat) (x : Teller) : (s.setTeller b x).freeCtr = s.freeCtr := rfl
@[simp] theorem setTeller_pt (s : State) (b : Nat) (x : Teller) : (s.setTeller b x).pt = s.pt := rfl
@[simp] theorem setTeller_clk (s : State) (b : Nat) (x : Teller) : (s.setTeller b x).clk = s.clk := rfl
@[simp] theorem setTeller_evl (s : State) (b : Nat) (x : Teller) : (s.setTeller b x).evl = s.evl := rfl
@[simp] theorem setTeller_ctxs (s : State) (b : Nat) (x : Teller) : (s.setTeller b x).ctxs = s.ctxs := rfl
@[simp] theorem setTeller_xl (s : State) (b : Nat) (x : Teller) : (s.setTeller b x).xl = s.xl := rfl
@[simp] theorem setTeller_bankMem (s : State) (b : Nat) (x : Teller) : (s.setTeller b x).bankMem = s.bankMem := rfl
@[simp] theorem setTeller_bankMark (s : State) (b : Nat) (x : Teller) : (s.setTeller b x).bankMark = s.bankMark := rfl
@[simp] theorem setTeller_tableMark (s : State) (b : Nat) (x : Teller) : (s.setTeller b x).tableMark = s.tableMark := rfl
@[simp] theorem setTeller_stackMem (s : State) (b : Nat) (x : Teller) : (s.setTeller b x).stackMem = s.stackMem := rfl
@[simp] theorem setTeller_extMem (s : State) (b : Nat) (x : Teller) : (s.setTeller b x).extMem = s.extMem := rfl
@[simp] theorem setTeller_clerkMem (s : State) (b : Nat) (x : Teller) : (s.setTeller b x).clerkMem = s.clerkMem := rfl
@[simp] theorem setTeller_regu (s : State) (b : Nat) (x : Teller) : (s.setTeller b x).regu = s.regu := rfl
@[simp] theorem setTeller_work (s : State) (b : Nat) (x : Teller) : (s.setTeller b x).work = s.work := rfl
@[simp] theorem setTeller_sync (s : State) (b : Nat) (x : Teller) : (s.setTeller b x).sync = s.sync := rfl
@[simp] theorem setTeller_float (s : State) (b : Nat) (x : Teller) : (s.setTeller b x).float = s.float := rfl
@[simp] theorem setTeller_slc (s : State) (b : Nat) (x : Teller) : (s.setTeller b x).slc = s.slc := rfl
@[simp] theorem setTeller_edge (s : State) (b : Nat) (x : Teller) : (s.setTeller b x).edge = s.edge := rfl
@[simp] theorem setTeller_ras (s : State) (b : Nat) (x : Teller) : (s.setTeller b x).ras = s.ras := rfl
@[simp] theorem setTeller_pwr (s : State) (b : Nat) (x : Teller) : (s.setTeller b x).pwr = s.pwr := rfl
@[simp] theorem setTeller_obs (s : State) (b : Nat) (x : Teller) : (s.setTeller b x).obs = s.obs := rfl
@[simp] theorem setTeller_sessions (s : State) (b : Nat) (x : Teller) : (s.setTeller b x).sessions = s.sessions := rfl
@[simp] theorem setTeller_ports (s : State) (b : Nat) (x : Teller) : (s.setTeller b x).ports = s.ports := rfl
@[simp] theorem setTeller_out (s : State) (b : Nat) (x : Teller) : (s.setTeller b x).out = s.out := rfl

@[simp] theorem setFlight_pending (s : State) (id : Nat) (x : Flight) : (s.setFlight id x).pending = s.pending := rfl
@[simp] theorem setFlight_waits (s : State) (id : Nat) (x : Flight) : (s.setFlight id x).waits = s.waits := rfl
@[simp] theorem setFlight_build (s : State) (id : Nat) (x : Flight) : (s.setFlight id x).build = s.build := rfl
@[simp] theorem setFlight_regs (s : State) (id : Nat) (x : Flight) : (s.setFlight id x).regs = s.regs := rfl
@[simp] theorem setFlight_hiLatch (s : State) (id : Nat) (x : Flight) : (s.setFlight id x).hiLatch = s.hiLatch := rfl
@[simp] theorem setFlight_hw (s : State) (id : Nat) (x : Flight) : (s.setFlight id x).hw = s.hw := rfl
@[simp] theorem setFlight_accesses (s : State) (id : Nat) (x : Flight) : (s.setFlight id x).accesses = s.accesses := rfl
@[simp] theorem setFlight_taking (s : State) (id : Nat) (x : Flight) : (s.setFlight id x).taking = s.taking := rfl
@[simp] theorem setFlight_freeCtr (s : State) (id : Nat) (x : Flight) : (s.setFlight id x).freeCtr = s.freeCtr := rfl
@[simp] theorem setFlight_pt (s : State) (id : Nat) (x : Flight) : (s.setFlight id x).pt = s.pt := rfl
@[simp] theorem setFlight_clk (s : State) (id : Nat) (x : Flight) : (s.setFlight id x).clk = s.clk := rfl
@[simp] theorem setFlight_evl (s : State) (id : Nat) (x : Flight) : (s.setFlight id x).evl = s.evl := rfl
@[simp] theorem setFlight_ctxs (s : State) (id : Nat) (x : Flight) : (s.setFlight id x).ctxs = s.ctxs := rfl
@[simp] theorem setFlight_xl (s : State) (id : Nat) (x : Flight) : (s.setFlight id x).xl = s.xl := rfl
@[simp] theorem setFlight_bankMem (s : State) (id : Nat) (x : Flight) : (s.setFlight id x).bankMem = s.bankMem := rfl
@[simp] theorem setFlight_bankMark (s : State) (id : Nat) (x : Flight) : (s.setFlight id x).bankMark = s.bankMark := rfl
@[simp] theorem setFlight_tableMark (s : State) (id : Nat) (x : Flight) : (s.setFlight id x).tableMark = s.tableMark := rfl
@[simp] theorem setFlight_stackMem (s : State) (id : Nat) (x : Flight) : (s.setFlight id x).stackMem = s.stackMem := rfl
@[simp] theorem setFlight_extMem (s : State) (id : Nat) (x : Flight) : (s.setFlight id x).extMem = s.extMem := rfl
@[simp] theorem setFlight_clerkMem (s : State) (id : Nat) (x : Flight) : (s.setFlight id x).clerkMem = s.clerkMem := rfl
@[simp] theorem setFlight_regu (s : State) (id : Nat) (x : Flight) : (s.setFlight id x).regu = s.regu := rfl
@[simp] theorem setFlight_work (s : State) (id : Nat) (x : Flight) : (s.setFlight id x).work = s.work := rfl
@[simp] theorem setFlight_sync (s : State) (id : Nat) (x : Flight) : (s.setFlight id x).sync = s.sync := rfl
@[simp] theorem setFlight_float (s : State) (id : Nat) (x : Flight) : (s.setFlight id x).float = s.float := rfl
@[simp] theorem setFlight_slc (s : State) (id : Nat) (x : Flight) : (s.setFlight id x).slc = s.slc := rfl
@[simp] theorem setFlight_edge (s : State) (id : Nat) (x : Flight) : (s.setFlight id x).edge = s.edge := rfl
@[simp] theorem setFlight_ras (s : State) (id : Nat) (x : Flight) : (s.setFlight id x).ras = s.ras := rfl
@[simp] theorem setFlight_pwr (s : State) (id : Nat) (x : Flight) : (s.setFlight id x).pwr = s.pwr := rfl
@[simp] theorem setFlight_obs (s : State) (id : Nat) (x : Flight) : (s.setFlight id x).obs = s.obs := rfl
@[simp] theorem setFlight_sessions (s : State) (id : Nat) (x : Flight) : (s.setFlight id x).sessions = s.sessions := rfl
@[simp] theorem setFlight_ports (s : State) (id : Nat) (x : Flight) : (s.setFlight id x).ports = s.ports := rfl
@[simp] theorem setFlight_out (s : State) (id : Nat) (x : Flight) : (s.setFlight id x).out = s.out := rfl

@[simp] theorem setChan_pending (s : State) (st c : Nat) (x : Chan) : (s.setChan st c x).pending = s.pending := rfl
@[simp] theorem setChan_waits (s : State) (st c : Nat) (x : Chan) : (s.setChan st c x).waits = s.waits := rfl
@[simp] theorem setChan_build (s : State) (st c : Nat) (x : Chan) : (s.setChan st c x).build = s.build := rfl
@[simp] theorem setChan_regs (s : State) (st c : Nat) (x : Chan) : (s.setChan st c x).regs = s.regs := rfl
@[simp] theorem setChan_hiLatch (s : State) (st c : Nat) (x : Chan) : (s.setChan st c x).hiLatch = s.hiLatch := rfl
@[simp] theorem setChan_hw (s : State) (st c : Nat) (x : Chan) : (s.setChan st c x).hw = s.hw := rfl
@[simp] theorem setChan_accesses (s : State) (st c : Nat) (x : Chan) : (s.setChan st c x).accesses = s.accesses := rfl
@[simp] theorem setChan_taking (s : State) (st c : Nat) (x : Chan) : (s.setChan st c x).taking = s.taking := rfl
@[simp] theorem setChan_freeCtr (s : State) (st c : Nat) (x : Chan) : (s.setChan st c x).freeCtr = s.freeCtr := rfl
@[simp] theorem setChan_pt (s : State) (st c : Nat) (x : Chan) : (s.setChan st c x).pt = s.pt := rfl
@[simp] theorem setChan_clk (s : State) (st c : Nat) (x : Chan) : (s.setChan st c x).clk = s.clk := rfl
@[simp] theorem setChan_evl (s : State) (st c : Nat) (x : Chan) : (s.setChan st c x).evl = s.evl := rfl
@[simp] theorem setChan_ctxs (s : State) (st c : Nat) (x : Chan) : (s.setChan st c x).ctxs = s.ctxs := rfl
@[simp] theorem setChan_xl (s : State) (st c : Nat) (x : Chan) : (s.setChan st c x).xl = s.xl := rfl
@[simp] theorem setChan_bankMem (s : State) (st c : Nat) (x : Chan) : (s.setChan st c x).bankMem = s.bankMem := rfl
@[simp] theorem setChan_bankMark (s : State) (st c : Nat) (x : Chan) : (s.setChan st c x).bankMark = s.bankMark := rfl
@[simp] theorem setChan_tableMark (s : State) (st c : Nat) (x : Chan) : (s.setChan st c x).tableMark = s.tableMark := rfl
@[simp] theorem setChan_stackMem (s : State) (st c : Nat) (x : Chan) : (s.setChan st c x).stackMem = s.stackMem := rfl
@[simp] theorem setChan_extMem (s : State) (st c : Nat) (x : Chan) : (s.setChan st c x).extMem = s.extMem := rfl
@[simp] theorem setChan_clerkMem (s : State) (st c : Nat) (x : Chan) : (s.setChan st c x).clerkMem = s.clerkMem := rfl
@[simp] theorem setChan_mesh (s : State) (st c : Nat) (x : Chan) : (s.setChan st c x).mesh = s.mesh := rfl
@[simp] theorem setChan_regu (s : State) (st c : Nat) (x : Chan) : (s.setChan st c x).regu = s.regu := rfl
@[simp] theorem setChan_work (s : State) (st c : Nat) (x : Chan) : (s.setChan st c x).work = s.work := rfl
@[simp] theorem setChan_sync (s : State) (st c : Nat) (x : Chan) : (s.setChan st c x).sync = s.sync := rfl
@[simp] theorem setChan_float (s : State) (st c : Nat) (x : Chan) : (s.setChan st c x).float = s.float := rfl
@[simp] theorem setChan_slc (s : State) (st c : Nat) (x : Chan) : (s.setChan st c x).slc = s.slc := rfl
@[simp] theorem setChan_ras (s : State) (st c : Nat) (x : Chan) : (s.setChan st c x).ras = s.ras := rfl
@[simp] theorem setChan_pwr (s : State) (st c : Nat) (x : Chan) : (s.setChan st c x).pwr = s.pwr := rfl
@[simp] theorem setChan_obs (s : State) (st c : Nat) (x : Chan) : (s.setChan st c x).obs = s.obs := rfl
@[simp] theorem setChan_sessions (s : State) (st c : Nat) (x : Chan) : (s.setChan st c x).sessions = s.sessions := rfl
@[simp] theorem setChan_ports (s : State) (st c : Nat) (x : Chan) : (s.setChan st c x).ports = s.ports := rfl
@[simp] theorem setChan_out (s : State) (st c : Nat) (x : Chan) : (s.setChan st c x).out = s.out := rfl

@[simp] theorem setRepair_pending (s : State) (st : Nat) (x : Repair) : (s.setRepair st x).pending = s.pending := rfl
@[simp] theorem setRepair_waits (s : State) (st : Nat) (x : Repair) : (s.setRepair st x).waits = s.waits := rfl
@[simp] theorem setRepair_build (s : State) (st : Nat) (x : Repair) : (s.setRepair st x).build = s.build := rfl
@[simp] theorem setRepair_regs (s : State) (st : Nat) (x : Repair) : (s.setRepair st x).regs = s.regs := rfl
@[simp] theorem setRepair_hiLatch (s : State) (st : Nat) (x : Repair) : (s.setRepair st x).hiLatch = s.hiLatch := rfl
@[simp] theorem setRepair_hw (s : State) (st : Nat) (x : Repair) : (s.setRepair st x).hw = s.hw := rfl
@[simp] theorem setRepair_accesses (s : State) (st : Nat) (x : Repair) : (s.setRepair st x).accesses = s.accesses := rfl
@[simp] theorem setRepair_taking (s : State) (st : Nat) (x : Repair) : (s.setRepair st x).taking = s.taking := rfl
@[simp] theorem setRepair_freeCtr (s : State) (st : Nat) (x : Repair) : (s.setRepair st x).freeCtr = s.freeCtr := rfl
@[simp] theorem setRepair_pt (s : State) (st : Nat) (x : Repair) : (s.setRepair st x).pt = s.pt := rfl
@[simp] theorem setRepair_clk (s : State) (st : Nat) (x : Repair) : (s.setRepair st x).clk = s.clk := rfl
@[simp] theorem setRepair_evl (s : State) (st : Nat) (x : Repair) : (s.setRepair st x).evl = s.evl := rfl
@[simp] theorem setRepair_ctxs (s : State) (st : Nat) (x : Repair) : (s.setRepair st x).ctxs = s.ctxs := rfl
@[simp] theorem setRepair_xl (s : State) (st : Nat) (x : Repair) : (s.setRepair st x).xl = s.xl := rfl
@[simp] theorem setRepair_bankMem (s : State) (st : Nat) (x : Repair) : (s.setRepair st x).bankMem = s.bankMem := rfl
@[simp] theorem setRepair_bankMark (s : State) (st : Nat) (x : Repair) : (s.setRepair st x).bankMark = s.bankMark := rfl
@[simp] theorem setRepair_tableMark (s : State) (st : Nat) (x : Repair) : (s.setRepair st x).tableMark = s.tableMark := rfl
@[simp] theorem setRepair_stackMem (s : State) (st : Nat) (x : Repair) : (s.setRepair st x).stackMem = s.stackMem := rfl
@[simp] theorem setRepair_extMem (s : State) (st : Nat) (x : Repair) : (s.setRepair st x).extMem = s.extMem := rfl
@[simp] theorem setRepair_clerkMem (s : State) (st : Nat) (x : Repair) : (s.setRepair st x).clerkMem = s.clerkMem := rfl
@[simp] theorem setRepair_mesh (s : State) (st : Nat) (x : Repair) : (s.setRepair st x).mesh = s.mesh := rfl
@[simp] theorem setRepair_regu (s : State) (st : Nat) (x : Repair) : (s.setRepair st x).regu = s.regu := rfl
@[simp] theorem setRepair_work (s : State) (st : Nat) (x : Repair) : (s.setRepair st x).work = s.work := rfl
@[simp] theorem setRepair_sync (s : State) (st : Nat) (x : Repair) : (s.setRepair st x).sync = s.sync := rfl
@[simp] theorem setRepair_float (s : State) (st : Nat) (x : Repair) : (s.setRepair st x).float = s.float := rfl
@[simp] theorem setRepair_slc (s : State) (st : Nat) (x : Repair) : (s.setRepair st x).slc = s.slc := rfl
@[simp] theorem setRepair_ras (s : State) (st : Nat) (x : Repair) : (s.setRepair st x).ras = s.ras := rfl
@[simp] theorem setRepair_pwr (s : State) (st : Nat) (x : Repair) : (s.setRepair st x).pwr = s.pwr := rfl
@[simp] theorem setRepair_obs (s : State) (st : Nat) (x : Repair) : (s.setRepair st x).obs = s.obs := rfl
@[simp] theorem setRepair_sessions (s : State) (st : Nat) (x : Repair) : (s.setRepair st x).sessions = s.sessions := rfl
@[simp] theorem setRepair_ports (s : State) (st : Nat) (x : Repair) : (s.setRepair st x).ports = s.ports := rfl
@[simp] theorem setRepair_out (s : State) (st : Nat) (x : Repair) : (s.setRepair st x).out = s.out := rfl

@[simp] theorem setLink_pending (s : State) (p : Nat) (x : Link) : (s.setLink p x).pending = s.pending := rfl
@[simp] theorem setLink_waits (s : State) (p : Nat) (x : Link) : (s.setLink p x).waits = s.waits := rfl
@[simp] theorem setLink_build (s : State) (p : Nat) (x : Link) : (s.setLink p x).build = s.build := rfl
@[simp] theorem setLink_regs (s : State) (p : Nat) (x : Link) : (s.setLink p x).regs = s.regs := rfl
@[simp] theorem setLink_hiLatch (s : State) (p : Nat) (x : Link) : (s.setLink p x).hiLatch = s.hiLatch := rfl
@[simp] theorem setLink_hw (s : State) (p : Nat) (x : Link) : (s.setLink p x).hw = s.hw := rfl
@[simp] theorem setLink_accesses (s : State) (p : Nat) (x : Link) : (s.setLink p x).accesses = s.accesses := rfl
@[simp] theorem setLink_taking (s : State) (p : Nat) (x : Link) : (s.setLink p x).taking = s.taking := rfl
@[simp] theorem setLink_freeCtr (s : State) (p : Nat) (x : Link) : (s.setLink p x).freeCtr = s.freeCtr := rfl
@[simp] theorem setLink_pt (s : State) (p : Nat) (x : Link) : (s.setLink p x).pt = s.pt := rfl
@[simp] theorem setLink_clk (s : State) (p : Nat) (x : Link) : (s.setLink p x).clk = s.clk := rfl
@[simp] theorem setLink_evl (s : State) (p : Nat) (x : Link) : (s.setLink p x).evl = s.evl := rfl
@[simp] theorem setLink_ctxs (s : State) (p : Nat) (x : Link) : (s.setLink p x).ctxs = s.ctxs := rfl
@[simp] theorem setLink_xl (s : State) (p : Nat) (x : Link) : (s.setLink p x).xl = s.xl := rfl
@[simp] theorem setLink_bankMem (s : State) (p : Nat) (x : Link) : (s.setLink p x).bankMem = s.bankMem := rfl
@[simp] theorem setLink_bankMark (s : State) (p : Nat) (x : Link) : (s.setLink p x).bankMark = s.bankMark := rfl
@[simp] theorem setLink_tableMark (s : State) (p : Nat) (x : Link) : (s.setLink p x).tableMark = s.tableMark := rfl
@[simp] theorem setLink_stackMem (s : State) (p : Nat) (x : Link) : (s.setLink p x).stackMem = s.stackMem := rfl
@[simp] theorem setLink_extMem (s : State) (p : Nat) (x : Link) : (s.setLink p x).extMem = s.extMem := rfl
@[simp] theorem setLink_clerkMem (s : State) (p : Nat) (x : Link) : (s.setLink p x).clerkMem = s.clerkMem := rfl
@[simp] theorem setLink_mesh (s : State) (p : Nat) (x : Link) : (s.setLink p x).mesh = s.mesh := rfl
@[simp] theorem setLink_regu (s : State) (p : Nat) (x : Link) : (s.setLink p x).regu = s.regu := rfl
@[simp] theorem setLink_work (s : State) (p : Nat) (x : Link) : (s.setLink p x).work = s.work := rfl
@[simp] theorem setLink_sync (s : State) (p : Nat) (x : Link) : (s.setLink p x).sync = s.sync := rfl
@[simp] theorem setLink_float (s : State) (p : Nat) (x : Link) : (s.setLink p x).float = s.float := rfl
@[simp] theorem setLink_slc (s : State) (p : Nat) (x : Link) : (s.setLink p x).slc = s.slc := rfl
@[simp] theorem setLink_ras (s : State) (p : Nat) (x : Link) : (s.setLink p x).ras = s.ras := rfl
@[simp] theorem setLink_pwr (s : State) (p : Nat) (x : Link) : (s.setLink p x).pwr = s.pwr := rfl
@[simp] theorem setLink_obs (s : State) (p : Nat) (x : Link) : (s.setLink p x).obs = s.obs := rfl
@[simp] theorem setLink_sessions (s : State) (p : Nat) (x : Link) : (s.setLink p x).sessions = s.sessions := rfl
@[simp] theorem setLink_ports (s : State) (p : Nat) (x : Link) : (s.setLink p x).ports = s.ports := rfl
@[simp] theorem setLink_out (s : State) (p : Nat) (x : Link) : (s.setLink p x).out = s.out := rfl

@[simp] theorem setRing_pending (s : State) (r : Nat) (x : Ring) : (s.setRing r x).pending = s.pending := rfl
@[simp] theorem setRing_waits (s : State) (r : Nat) (x : Ring) : (s.setRing r x).waits = s.waits := rfl
@[simp] theorem setRing_build (s : State) (r : Nat) (x : Ring) : (s.setRing r x).build = s.build := rfl
@[simp] theorem setRing_regs (s : State) (r : Nat) (x : Ring) : (s.setRing r x).regs = s.regs := rfl
@[simp] theorem setRing_hiLatch (s : State) (r : Nat) (x : Ring) : (s.setRing r x).hiLatch = s.hiLatch := rfl
@[simp] theorem setRing_hw (s : State) (r : Nat) (x : Ring) : (s.setRing r x).hw = s.hw := rfl
@[simp] theorem setRing_accesses (s : State) (r : Nat) (x : Ring) : (s.setRing r x).accesses = s.accesses := rfl
@[simp] theorem setRing_taking (s : State) (r : Nat) (x : Ring) : (s.setRing r x).taking = s.taking := rfl
@[simp] theorem setRing_freeCtr (s : State) (r : Nat) (x : Ring) : (s.setRing r x).freeCtr = s.freeCtr := rfl
@[simp] theorem setRing_pt (s : State) (r : Nat) (x : Ring) : (s.setRing r x).pt = s.pt := rfl
@[simp] theorem setRing_clk (s : State) (r : Nat) (x : Ring) : (s.setRing r x).clk = s.clk := rfl
@[simp] theorem setRing_evl (s : State) (r : Nat) (x : Ring) : (s.setRing r x).evl = s.evl := rfl
@[simp] theorem setRing_ctxs (s : State) (r : Nat) (x : Ring) : (s.setRing r x).ctxs = s.ctxs := rfl
@[simp] theorem setRing_xl (s : State) (r : Nat) (x : Ring) : (s.setRing r x).xl = s.xl := rfl
@[simp] theorem setRing_bankMem (s : State) (r : Nat) (x : Ring) : (s.setRing r x).bankMem = s.bankMem := rfl
@[simp] theorem setRing_bankMark (s : State) (r : Nat) (x : Ring) : (s.setRing r x).bankMark = s.bankMark := rfl
@[simp] theorem setRing_tableMark (s : State) (r : Nat) (x : Ring) : (s.setRing r x).tableMark = s.tableMark := rfl
@[simp] theorem setRing_stackMem (s : State) (r : Nat) (x : Ring) : (s.setRing r x).stackMem = s.stackMem := rfl
@[simp] theorem setRing_extMem (s : State) (r : Nat) (x : Ring) : (s.setRing r x).extMem = s.extMem := rfl
@[simp] theorem setRing_clerkMem (s : State) (r : Nat) (x : Ring) : (s.setRing r x).clerkMem = s.clerkMem := rfl
@[simp] theorem setRing_mesh (s : State) (r : Nat) (x : Ring) : (s.setRing r x).mesh = s.mesh := rfl
@[simp] theorem setRing_regu (s : State) (r : Nat) (x : Ring) : (s.setRing r x).regu = s.regu := rfl
@[simp] theorem setRing_sync (s : State) (r : Nat) (x : Ring) : (s.setRing r x).sync = s.sync := rfl
@[simp] theorem setRing_float (s : State) (r : Nat) (x : Ring) : (s.setRing r x).float = s.float := rfl
@[simp] theorem setRing_slc (s : State) (r : Nat) (x : Ring) : (s.setRing r x).slc = s.slc := rfl
@[simp] theorem setRing_edge (s : State) (r : Nat) (x : Ring) : (s.setRing r x).edge = s.edge := rfl
@[simp] theorem setRing_ras (s : State) (r : Nat) (x : Ring) : (s.setRing r x).ras = s.ras := rfl
@[simp] theorem setRing_pwr (s : State) (r : Nat) (x : Ring) : (s.setRing r x).pwr = s.pwr := rfl
@[simp] theorem setRing_obs (s : State) (r : Nat) (x : Ring) : (s.setRing r x).obs = s.obs := rfl
@[simp] theorem setRing_sessions (s : State) (r : Nat) (x : Ring) : (s.setRing r x).sessions = s.sessions := rfl
@[simp] theorem setRing_ports (s : State) (r : Nat) (x : Ring) : (s.setRing r x).ports = s.ports := rfl
@[simp] theorem setRing_out (s : State) (r : Nat) (x : Ring) : (s.setRing r x).out = s.out := rfl

@[simp] theorem setIrq_pending (s : State) (evr : Bool) (c : Nat) (x : RingIrq) : (s.setIrq evr c x).pending = s.pending := by unfold State.setIrq; split <;> rfl
@[simp] theorem setIrq_waits (s : State) (evr : Bool) (c : Nat) (x : RingIrq) : (s.setIrq evr c x).waits = s.waits := by unfold State.setIrq; split <;> rfl
@[simp] theorem setIrq_build (s : State) (evr : Bool) (c : Nat) (x : RingIrq) : (s.setIrq evr c x).build = s.build := by unfold State.setIrq; split <;> rfl
@[simp] theorem setIrq_regs (s : State) (evr : Bool) (c : Nat) (x : RingIrq) : (s.setIrq evr c x).regs = s.regs := by unfold State.setIrq; split <;> rfl
@[simp] theorem setIrq_hiLatch (s : State) (evr : Bool) (c : Nat) (x : RingIrq) : (s.setIrq evr c x).hiLatch = s.hiLatch := by unfold State.setIrq; split <;> rfl
@[simp] theorem setIrq_hw (s : State) (evr : Bool) (c : Nat) (x : RingIrq) : (s.setIrq evr c x).hw = s.hw := by unfold State.setIrq; split <;> rfl
@[simp] theorem setIrq_accesses (s : State) (evr : Bool) (c : Nat) (x : RingIrq) : (s.setIrq evr c x).accesses = s.accesses := by unfold State.setIrq; split <;> rfl
@[simp] theorem setIrq_taking (s : State) (evr : Bool) (c : Nat) (x : RingIrq) : (s.setIrq evr c x).taking = s.taking := by unfold State.setIrq; split <;> rfl
@[simp] theorem setIrq_freeCtr (s : State) (evr : Bool) (c : Nat) (x : RingIrq) : (s.setIrq evr c x).freeCtr = s.freeCtr := by unfold State.setIrq; split <;> rfl
@[simp] theorem setIrq_pt (s : State) (evr : Bool) (c : Nat) (x : RingIrq) : (s.setIrq evr c x).pt = s.pt := by unfold State.setIrq; split <;> rfl
@[simp] theorem setIrq_clk (s : State) (evr : Bool) (c : Nat) (x : RingIrq) : (s.setIrq evr c x).clk = s.clk := by unfold State.setIrq; split <;> rfl
@[simp] theorem setIrq_evl (s : State) (evr : Bool) (c : Nat) (x : RingIrq) : (s.setIrq evr c x).evl = s.evl := by unfold State.setIrq; split <;> rfl
@[simp] theorem setIrq_ctxs (s : State) (evr : Bool) (c : Nat) (x : RingIrq) : (s.setIrq evr c x).ctxs = s.ctxs := by unfold State.setIrq; split <;> rfl
@[simp] theorem setIrq_xl (s : State) (evr : Bool) (c : Nat) (x : RingIrq) : (s.setIrq evr c x).xl = s.xl := by unfold State.setIrq; split <;> rfl
@[simp] theorem setIrq_bankMem (s : State) (evr : Bool) (c : Nat) (x : RingIrq) : (s.setIrq evr c x).bankMem = s.bankMem := by unfold State.setIrq; split <;> rfl
@[simp] theorem setIrq_bankMark (s : State) (evr : Bool) (c : Nat) (x : RingIrq) : (s.setIrq evr c x).bankMark = s.bankMark := by unfold State.setIrq; split <;> rfl
@[simp] theorem setIrq_tableMark (s : State) (evr : Bool) (c : Nat) (x : RingIrq) : (s.setIrq evr c x).tableMark = s.tableMark := by unfold State.setIrq; split <;> rfl
@[simp] theorem setIrq_stackMem (s : State) (evr : Bool) (c : Nat) (x : RingIrq) : (s.setIrq evr c x).stackMem = s.stackMem := by unfold State.setIrq; split <;> rfl
@[simp] theorem setIrq_extMem (s : State) (evr : Bool) (c : Nat) (x : RingIrq) : (s.setIrq evr c x).extMem = s.extMem := by unfold State.setIrq; split <;> rfl
@[simp] theorem setIrq_clerkMem (s : State) (evr : Bool) (c : Nat) (x : RingIrq) : (s.setIrq evr c x).clerkMem = s.clerkMem := by unfold State.setIrq; split <;> rfl
@[simp] theorem setIrq_mesh (s : State) (evr : Bool) (c : Nat) (x : RingIrq) : (s.setIrq evr c x).mesh = s.mesh := by unfold State.setIrq; split <;> rfl
@[simp] theorem setIrq_regu (s : State) (evr : Bool) (c : Nat) (x : RingIrq) : (s.setIrq evr c x).regu = s.regu := by unfold State.setIrq; split <;> rfl
@[simp] theorem setIrq_sync (s : State) (evr : Bool) (c : Nat) (x : RingIrq) : (s.setIrq evr c x).sync = s.sync := by unfold State.setIrq; split <;> rfl
@[simp] theorem setIrq_float (s : State) (evr : Bool) (c : Nat) (x : RingIrq) : (s.setIrq evr c x).float = s.float := by unfold State.setIrq; split <;> rfl
@[simp] theorem setIrq_slc (s : State) (evr : Bool) (c : Nat) (x : RingIrq) : (s.setIrq evr c x).slc = s.slc := by unfold State.setIrq; split <;> rfl
@[simp] theorem setIrq_edge (s : State) (evr : Bool) (c : Nat) (x : RingIrq) : (s.setIrq evr c x).edge = s.edge := by unfold State.setIrq; split <;> rfl
@[simp] theorem setIrq_ras (s : State) (evr : Bool) (c : Nat) (x : RingIrq) : (s.setIrq evr c x).ras = s.ras := by unfold State.setIrq; split <;> rfl
@[simp] theorem setIrq_pwr (s : State) (evr : Bool) (c : Nat) (x : RingIrq) : (s.setIrq evr c x).pwr = s.pwr := by unfold State.setIrq; split <;> rfl
@[simp] theorem setIrq_obs (s : State) (evr : Bool) (c : Nat) (x : RingIrq) : (s.setIrq evr c x).obs = s.obs := by unfold State.setIrq; split <;> rfl
@[simp] theorem setIrq_sessions (s : State) (evr : Bool) (c : Nat) (x : RingIrq) : (s.setIrq evr c x).sessions = s.sessions := by unfold State.setIrq; split <;> rfl
@[simp] theorem setIrq_ports (s : State) (evr : Bool) (c : Nat) (x : RingIrq) : (s.setIrq evr c x).ports = s.ports := by unfold State.setIrq; split <;> rfl
@[simp] theorem setIrq_out (s : State) (evr : Bool) (c : Nat) (x : RingIrq) : (s.setIrq evr c x).out = s.out := by unfold State.setIrq; split <;> rfl

@[simp] theorem setPctx_pending (s : State) (k : Nat) (x : PCtx) : (s.setPctx k x).pending = s.pending := rfl
@[simp] theorem setPctx_waits (s : State) (k : Nat) (x : PCtx) : (s.setPctx k x).waits = s.waits := rfl
@[simp] theorem setPctx_build (s : State) (k : Nat) (x : PCtx) : (s.setPctx k x).build = s.build := rfl
@[simp] theorem setPctx_regs (s : State) (k : Nat) (x : PCtx) : (s.setPctx k x).regs = s.regs := rfl
@[simp] theorem setPctx_hiLatch (s : State) (k : Nat) (x : PCtx) : (s.setPctx k x).hiLatch = s.hiLatch := rfl
@[simp] theorem setPctx_hw (s : State) (k : Nat) (x : PCtx) : (s.setPctx k x).hw = s.hw := rfl
@[simp] theorem setPctx_accesses (s : State) (k : Nat) (x : PCtx) : (s.setPctx k x).accesses = s.accesses := rfl
@[simp] theorem setPctx_taking (s : State) (k : Nat) (x : PCtx) : (s.setPctx k x).taking = s.taking := rfl
@[simp] theorem setPctx_freeCtr (s : State) (k : Nat) (x : PCtx) : (s.setPctx k x).freeCtr = s.freeCtr := rfl
@[simp] theorem setPctx_pt (s : State) (k : Nat) (x : PCtx) : (s.setPctx k x).pt = s.pt := rfl
@[simp] theorem setPctx_clk (s : State) (k : Nat) (x : PCtx) : (s.setPctx k x).clk = s.clk := rfl
@[simp] theorem setPctx_evl (s : State) (k : Nat) (x : PCtx) : (s.setPctx k x).evl = s.evl := rfl
@[simp] theorem setPctx_ctxs (s : State) (k : Nat) (x : PCtx) : (s.setPctx k x).ctxs = s.ctxs := rfl
@[simp] theorem setPctx_xl (s : State) (k : Nat) (x : PCtx) : (s.setPctx k x).xl = s.xl := rfl
@[simp] theorem setPctx_bankMem (s : State) (k : Nat) (x : PCtx) : (s.setPctx k x).bankMem = s.bankMem := rfl
@[simp] theorem setPctx_bankMark (s : State) (k : Nat) (x : PCtx) : (s.setPctx k x).bankMark = s.bankMark := rfl
@[simp] theorem setPctx_tableMark (s : State) (k : Nat) (x : PCtx) : (s.setPctx k x).tableMark = s.tableMark := rfl
@[simp] theorem setPctx_stackMem (s : State) (k : Nat) (x : PCtx) : (s.setPctx k x).stackMem = s.stackMem := rfl
@[simp] theorem setPctx_extMem (s : State) (k : Nat) (x : PCtx) : (s.setPctx k x).extMem = s.extMem := rfl
@[simp] theorem setPctx_clerkMem (s : State) (k : Nat) (x : PCtx) : (s.setPctx k x).clerkMem = s.clerkMem := rfl
@[simp] theorem setPctx_mesh (s : State) (k : Nat) (x : PCtx) : (s.setPctx k x).mesh = s.mesh := rfl
@[simp] theorem setPctx_regu (s : State) (k : Nat) (x : PCtx) : (s.setPctx k x).regu = s.regu := rfl
@[simp] theorem setPctx_sync (s : State) (k : Nat) (x : PCtx) : (s.setPctx k x).sync = s.sync := rfl
@[simp] theorem setPctx_float (s : State) (k : Nat) (x : PCtx) : (s.setPctx k x).float = s.float := rfl
@[simp] theorem setPctx_slc (s : State) (k : Nat) (x : PCtx) : (s.setPctx k x).slc = s.slc := rfl
@[simp] theorem setPctx_edge (s : State) (k : Nat) (x : PCtx) : (s.setPctx k x).edge = s.edge := rfl
@[simp] theorem setPctx_ras (s : State) (k : Nat) (x : PCtx) : (s.setPctx k x).ras = s.ras := rfl
@[simp] theorem setPctx_pwr (s : State) (k : Nat) (x : PCtx) : (s.setPctx k x).pwr = s.pwr := rfl
@[simp] theorem setPctx_obs (s : State) (k : Nat) (x : PCtx) : (s.setPctx k x).obs = s.obs := rfl
@[simp] theorem setPctx_sessions (s : State) (k : Nat) (x : PCtx) : (s.setPctx k x).sessions = s.sessions := rfl
@[simp] theorem setPctx_ports (s : State) (k : Nat) (x : PCtx) : (s.setPctx k x).ports = s.ports := rfl
@[simp] theorem setPctx_out (s : State) (k : Nat) (x : PCtx) : (s.setPctx k x).out = s.out := rfl

@[simp] theorem setDigest_pending (s : State) (m d : Nat) (x : Digest) : (s.setDigest m d x).pending = s.pending := rfl
@[simp] theorem setDigest_waits (s : State) (m d : Nat) (x : Digest) : (s.setDigest m d x).waits = s.waits := rfl
@[simp] theorem setDigest_build (s : State) (m d : Nat) (x : Digest) : (s.setDigest m d x).build = s.build := rfl
@[simp] theorem setDigest_regs (s : State) (m d : Nat) (x : Digest) : (s.setDigest m d x).regs = s.regs := rfl
@[simp] theorem setDigest_hiLatch (s : State) (m d : Nat) (x : Digest) : (s.setDigest m d x).hiLatch = s.hiLatch := rfl
@[simp] theorem setDigest_hw (s : State) (m d : Nat) (x : Digest) : (s.setDigest m d x).hw = s.hw := rfl
@[simp] theorem setDigest_accesses (s : State) (m d : Nat) (x : Digest) : (s.setDigest m d x).accesses = s.accesses := rfl
@[simp] theorem setDigest_taking (s : State) (m d : Nat) (x : Digest) : (s.setDigest m d x).taking = s.taking := rfl
@[simp] theorem setDigest_freeCtr (s : State) (m d : Nat) (x : Digest) : (s.setDigest m d x).freeCtr = s.freeCtr := rfl
@[simp] theorem setDigest_pt (s : State) (m d : Nat) (x : Digest) : (s.setDigest m d x).pt = s.pt := rfl
@[simp] theorem setDigest_clk (s : State) (m d : Nat) (x : Digest) : (s.setDigest m d x).clk = s.clk := rfl
@[simp] theorem setDigest_evl (s : State) (m d : Nat) (x : Digest) : (s.setDigest m d x).evl = s.evl := rfl
@[simp] theorem setDigest_ctxs (s : State) (m d : Nat) (x : Digest) : (s.setDigest m d x).ctxs = s.ctxs := rfl
@[simp] theorem setDigest_xl (s : State) (m d : Nat) (x : Digest) : (s.setDigest m d x).xl = s.xl := rfl
@[simp] theorem setDigest_bankMem (s : State) (m d : Nat) (x : Digest) : (s.setDigest m d x).bankMem = s.bankMem := rfl
@[simp] theorem setDigest_bankMark (s : State) (m d : Nat) (x : Digest) : (s.setDigest m d x).bankMark = s.bankMark := rfl
@[simp] theorem setDigest_tableMark (s : State) (m d : Nat) (x : Digest) : (s.setDigest m d x).tableMark = s.tableMark := rfl
@[simp] theorem setDigest_stackMem (s : State) (m d : Nat) (x : Digest) : (s.setDigest m d x).stackMem = s.stackMem := rfl
@[simp] theorem setDigest_extMem (s : State) (m d : Nat) (x : Digest) : (s.setDigest m d x).extMem = s.extMem := rfl
@[simp] theorem setDigest_clerkMem (s : State) (m d : Nat) (x : Digest) : (s.setDigest m d x).clerkMem = s.clerkMem := rfl
@[simp] theorem setDigest_mesh (s : State) (m d : Nat) (x : Digest) : (s.setDigest m d x).mesh = s.mesh := rfl
@[simp] theorem setDigest_regu (s : State) (m d : Nat) (x : Digest) : (s.setDigest m d x).regu = s.regu := rfl
@[simp] theorem setDigest_sync (s : State) (m d : Nat) (x : Digest) : (s.setDigest m d x).sync = s.sync := rfl
@[simp] theorem setDigest_float (s : State) (m d : Nat) (x : Digest) : (s.setDigest m d x).float = s.float := rfl
@[simp] theorem setDigest_slc (s : State) (m d : Nat) (x : Digest) : (s.setDigest m d x).slc = s.slc := rfl
@[simp] theorem setDigest_edge (s : State) (m d : Nat) (x : Digest) : (s.setDigest m d x).edge = s.edge := rfl
@[simp] theorem setDigest_ras (s : State) (m d : Nat) (x : Digest) : (s.setDigest m d x).ras = s.ras := rfl
@[simp] theorem setDigest_pwr (s : State) (m d : Nat) (x : Digest) : (s.setDigest m d x).pwr = s.pwr := rfl
@[simp] theorem setDigest_work (s : State) (m d : Nat) (x : Digest) : (s.setDigest m d x).work = s.work := rfl
@[simp] theorem setDigest_sessions (s : State) (m d : Nat) (x : Digest) : (s.setDigest m d x).sessions = s.sessions := rfl
@[simp] theorem setDigest_ports (s : State) (m d : Nat) (x : Digest) : (s.setDigest m d x).ports = s.ports := rfl
@[simp] theorem setDigest_out (s : State) (m d : Nat) (x : Digest) : (s.setDigest m d x).out = s.out := rfl

@[simp] theorem setPort_pending (s : State) (u : Nat) (x : Port) : (s.setPort u x).pending = s.pending := rfl
@[simp] theorem setPort_waits (s : State) (u : Nat) (x : Port) : (s.setPort u x).waits = s.waits := rfl
@[simp] theorem setPort_build (s : State) (u : Nat) (x : Port) : (s.setPort u x).build = s.build := rfl
@[simp] theorem setPort_regs (s : State) (u : Nat) (x : Port) : (s.setPort u x).regs = s.regs := rfl
@[simp] theorem setPort_hiLatch (s : State) (u : Nat) (x : Port) : (s.setPort u x).hiLatch = s.hiLatch := rfl
@[simp] theorem setPort_hw (s : State) (u : Nat) (x : Port) : (s.setPort u x).hw = s.hw := rfl
@[simp] theorem setPort_accesses (s : State) (u : Nat) (x : Port) : (s.setPort u x).accesses = s.accesses := rfl
@[simp] theorem setPort_taking (s : State) (u : Nat) (x : Port) : (s.setPort u x).taking = s.taking := rfl
@[simp] theorem setPort_freeCtr (s : State) (u : Nat) (x : Port) : (s.setPort u x).freeCtr = s.freeCtr := rfl
@[simp] theorem setPort_pt (s : State) (u : Nat) (x : Port) : (s.setPort u x).pt = s.pt := rfl
@[simp] theorem setPort_clk (s : State) (u : Nat) (x : Port) : (s.setPort u x).clk = s.clk := rfl
@[simp] theorem setPort_evl (s : State) (u : Nat) (x : Port) : (s.setPort u x).evl = s.evl := rfl
@[simp] theorem setPort_ctxs (s : State) (u : Nat) (x : Port) : (s.setPort u x).ctxs = s.ctxs := rfl
@[simp] theorem setPort_xl (s : State) (u : Nat) (x : Port) : (s.setPort u x).xl = s.xl := rfl
@[simp] theorem setPort_bankMem (s : State) (u : Nat) (x : Port) : (s.setPort u x).bankMem = s.bankMem := rfl
@[simp] theorem setPort_bankMark (s : State) (u : Nat) (x : Port) : (s.setPort u x).bankMark = s.bankMark := rfl
@[simp] theorem setPort_tableMark (s : State) (u : Nat) (x : Port) : (s.setPort u x).tableMark = s.tableMark := rfl
@[simp] theorem setPort_stackMem (s : State) (u : Nat) (x : Port) : (s.setPort u x).stackMem = s.stackMem := rfl
@[simp] theorem setPort_extMem (s : State) (u : Nat) (x : Port) : (s.setPort u x).extMem = s.extMem := rfl
@[simp] theorem setPort_clerkMem (s : State) (u : Nat) (x : Port) : (s.setPort u x).clerkMem = s.clerkMem := rfl
@[simp] theorem setPort_mesh (s : State) (u : Nat) (x : Port) : (s.setPort u x).mesh = s.mesh := rfl
@[simp] theorem setPort_regu (s : State) (u : Nat) (x : Port) : (s.setPort u x).regu = s.regu := rfl
@[simp] theorem setPort_work (s : State) (u : Nat) (x : Port) : (s.setPort u x).work = s.work := rfl
@[simp] theorem setPort_sync (s : State) (u : Nat) (x : Port) : (s.setPort u x).sync = s.sync := rfl
@[simp] theorem setPort_float (s : State) (u : Nat) (x : Port) : (s.setPort u x).float = s.float := rfl
@[simp] theorem setPort_slc (s : State) (u : Nat) (x : Port) : (s.setPort u x).slc = s.slc := rfl
@[simp] theorem setPort_edge (s : State) (u : Nat) (x : Port) : (s.setPort u x).edge = s.edge := rfl
@[simp] theorem setPort_ras (s : State) (u : Nat) (x : Port) : (s.setPort u x).ras = s.ras := rfl
@[simp] theorem setPort_pwr (s : State) (u : Nat) (x : Port) : (s.setPort u x).pwr = s.pwr := rfl
@[simp] theorem setPort_obs (s : State) (u : Nat) (x : Port) : (s.setPort u x).obs = s.obs := rfl
@[simp] theorem setPort_sessions (s : State) (u : Nat) (x : Port) : (s.setPort u x).sessions = s.sessions := rfl
@[simp] theorem setPort_out (s : State) (u : Nat) (x : Port) : (s.setPort u x).out = s.out := rfl

@[simp] theorem setSlotRing_pending (s : State) (r : Nat) (x : Slots) : (s.setSlotRing r x).pending = s.pending := rfl
@[simp] theorem setSlotRing_waits (s : State) (r : Nat) (x : Slots) : (s.setSlotRing r x).waits = s.waits := rfl
@[simp] theorem setSlotRing_build (s : State) (r : Nat) (x : Slots) : (s.setSlotRing r x).build = s.build := rfl
@[simp] theorem setSlotRing_regs (s : State) (r : Nat) (x : Slots) : (s.setSlotRing r x).regs = s.regs := rfl
@[simp] theorem setSlotRing_hiLatch (s : State) (r : Nat) (x : Slots) : (s.setSlotRing r x).hiLatch = s.hiLatch := rfl
@[simp] theorem setSlotRing_hw (s : State) (r : Nat) (x : Slots) : (s.setSlotRing r x).hw = s.hw := rfl
@[simp] theorem setSlotRing_accesses (s : State) (r : Nat) (x : Slots) : (s.setSlotRing r x).accesses = s.accesses := rfl
@[simp] theorem setSlotRing_taking (s : State) (r : Nat) (x : Slots) : (s.setSlotRing r x).taking = s.taking := rfl
@[simp] theorem setSlotRing_freeCtr (s : State) (r : Nat) (x : Slots) : (s.setSlotRing r x).freeCtr = s.freeCtr := rfl
@[simp] theorem setSlotRing_pt (s : State) (r : Nat) (x : Slots) : (s.setSlotRing r x).pt = s.pt := rfl
@[simp] theorem setSlotRing_clk (s : State) (r : Nat) (x : Slots) : (s.setSlotRing r x).clk = s.clk := rfl
@[simp] theorem setSlotRing_evl (s : State) (r : Nat) (x : Slots) : (s.setSlotRing r x).evl = s.evl := rfl
@[simp] theorem setSlotRing_ctxs (s : State) (r : Nat) (x : Slots) : (s.setSlotRing r x).ctxs = s.ctxs := rfl
@[simp] theorem setSlotRing_xl (s : State) (r : Nat) (x : Slots) : (s.setSlotRing r x).xl = s.xl := rfl
@[simp] theorem setSlotRing_bankMem (s : State) (r : Nat) (x : Slots) : (s.setSlotRing r x).bankMem = s.bankMem := rfl
@[simp] theorem setSlotRing_bankMark (s : State) (r : Nat) (x : Slots) : (s.setSlotRing r x).bankMark = s.bankMark := rfl
@[simp] theorem setSlotRing_tableMark (s : State) (r : Nat) (x : Slots) : (s.setSlotRing r x).tableMark = s.tableMark := rfl
@[simp] theorem setSlotRing_stackMem (s : State) (r : Nat) (x : Slots) : (s.setSlotRing r x).stackMem = s.stackMem := rfl
@[simp] theorem setSlotRing_extMem (s : State) (r : Nat) (x : Slots) : (s.setSlotRing r x).extMem = s.extMem := rfl
@[simp] theorem setSlotRing_clerkMem (s : State) (r : Nat) (x : Slots) : (s.setSlotRing r x).clerkMem = s.clerkMem := rfl
@[simp] theorem setSlotRing_mesh (s : State) (r : Nat) (x : Slots) : (s.setSlotRing r x).mesh = s.mesh := rfl
@[simp] theorem setSlotRing_regu (s : State) (r : Nat) (x : Slots) : (s.setSlotRing r x).regu = s.regu := rfl
@[simp] theorem setSlotRing_work (s : State) (r : Nat) (x : Slots) : (s.setSlotRing r x).work = s.work := rfl
@[simp] theorem setSlotRing_sync (s : State) (r : Nat) (x : Slots) : (s.setSlotRing r x).sync = s.sync := rfl
@[simp] theorem setSlotRing_slc (s : State) (r : Nat) (x : Slots) : (s.setSlotRing r x).slc = s.slc := rfl
@[simp] theorem setSlotRing_edge (s : State) (r : Nat) (x : Slots) : (s.setSlotRing r x).edge = s.edge := rfl
@[simp] theorem setSlotRing_ras (s : State) (r : Nat) (x : Slots) : (s.setSlotRing r x).ras = s.ras := rfl
@[simp] theorem setSlotRing_pwr (s : State) (r : Nat) (x : Slots) : (s.setSlotRing r x).pwr = s.pwr := rfl
@[simp] theorem setSlotRing_obs (s : State) (r : Nat) (x : Slots) : (s.setSlotRing r x).obs = s.obs := rfl
@[simp] theorem setSlotRing_sessions (s : State) (r : Nat) (x : Slots) : (s.setSlotRing r x).sessions = s.sessions := rfl
@[simp] theorem setSlotRing_ports (s : State) (r : Nat) (x : Slots) : (s.setSlotRing r x).ports = s.ports := rfl
@[simp] theorem setSlotRing_out (s : State) (r : Nat) (x : Slots) : (s.setSlotRing r x).out = s.out := rfl

@[simp] theorem setPool_pending (s : State) (p : Nat) (x : Pool) : (s.setPool p x).pending = s.pending := rfl
@[simp] theorem setPool_waits (s : State) (p : Nat) (x : Pool) : (s.setPool p x).waits = s.waits := rfl
@[simp] theorem setPool_build (s : State) (p : Nat) (x : Pool) : (s.setPool p x).build = s.build := rfl
@[simp] theorem setPool_regs (s : State) (p : Nat) (x : Pool) : (s.setPool p x).regs = s.regs := rfl
@[simp] theorem setPool_hiLatch (s : State) (p : Nat) (x : Pool) : (s.setPool p x).hiLatch = s.hiLatch := rfl
@[simp] theorem setPool_hw (s : State) (p : Nat) (x : Pool) : (s.setPool p x).hw = s.hw := rfl
@[simp] theorem setPool_accesses (s : State) (p : Nat) (x : Pool) : (s.setPool p x).accesses = s.accesses := rfl
@[simp] theorem setPool_taking (s : State) (p : Nat) (x : Pool) : (s.setPool p x).taking = s.taking := rfl
@[simp] theorem setPool_freeCtr (s : State) (p : Nat) (x : Pool) : (s.setPool p x).freeCtr = s.freeCtr := rfl
@[simp] theorem setPool_pt (s : State) (p : Nat) (x : Pool) : (s.setPool p x).pt = s.pt := rfl
@[simp] theorem setPool_clk (s : State) (p : Nat) (x : Pool) : (s.setPool p x).clk = s.clk := rfl
@[simp] theorem setPool_evl (s : State) (p : Nat) (x : Pool) : (s.setPool p x).evl = s.evl := rfl
@[simp] theorem setPool_ctxs (s : State) (p : Nat) (x : Pool) : (s.setPool p x).ctxs = s.ctxs := rfl
@[simp] theorem setPool_xl (s : State) (p : Nat) (x : Pool) : (s.setPool p x).xl = s.xl := rfl
@[simp] theorem setPool_bankMem (s : State) (p : Nat) (x : Pool) : (s.setPool p x).bankMem = s.bankMem := rfl
@[simp] theorem setPool_bankMark (s : State) (p : Nat) (x : Pool) : (s.setPool p x).bankMark = s.bankMark := rfl
@[simp] theorem setPool_tableMark (s : State) (p : Nat) (x : Pool) : (s.setPool p x).tableMark = s.tableMark := rfl
@[simp] theorem setPool_stackMem (s : State) (p : Nat) (x : Pool) : (s.setPool p x).stackMem = s.stackMem := rfl
@[simp] theorem setPool_extMem (s : State) (p : Nat) (x : Pool) : (s.setPool p x).extMem = s.extMem := rfl
@[simp] theorem setPool_clerkMem (s : State) (p : Nat) (x : Pool) : (s.setPool p x).clerkMem = s.clerkMem := rfl
@[simp] theorem setPool_mesh (s : State) (p : Nat) (x : Pool) : (s.setPool p x).mesh = s.mesh := rfl
@[simp] theorem setPool_regu (s : State) (p : Nat) (x : Pool) : (s.setPool p x).regu = s.regu := rfl
@[simp] theorem setPool_work (s : State) (p : Nat) (x : Pool) : (s.setPool p x).work = s.work := rfl
@[simp] theorem setPool_sync (s : State) (p : Nat) (x : Pool) : (s.setPool p x).sync = s.sync := rfl
@[simp] theorem setPool_slc (s : State) (p : Nat) (x : Pool) : (s.setPool p x).slc = s.slc := rfl
@[simp] theorem setPool_edge (s : State) (p : Nat) (x : Pool) : (s.setPool p x).edge = s.edge := rfl
@[simp] theorem setPool_ras (s : State) (p : Nat) (x : Pool) : (s.setPool p x).ras = s.ras := rfl
@[simp] theorem setPool_pwr (s : State) (p : Nat) (x : Pool) : (s.setPool p x).pwr = s.pwr := rfl
@[simp] theorem setPool_obs (s : State) (p : Nat) (x : Pool) : (s.setPool p x).obs = s.obs := rfl
@[simp] theorem setPool_sessions (s : State) (p : Nat) (x : Pool) : (s.setPool p x).sessions = s.sessions := rfl
@[simp] theorem setPool_ports (s : State) (p : Nat) (x : Pool) : (s.setPool p x).ports = s.ports := rfl
@[simp] theorem setPool_out (s : State) (p : Nat) (x : Pool) : (s.setPool p x).out = s.out := rfl

@[simp] theorem setGen_pending (s : State) (e g : Nat) : (s.setGen e g).pending = s.pending := rfl
@[simp] theorem setGen_waits (s : State) (e g : Nat) : (s.setGen e g).waits = s.waits := rfl
@[simp] theorem setGen_build (s : State) (e g : Nat) : (s.setGen e g).build = s.build := rfl
@[simp] theorem setGen_regs (s : State) (e g : Nat) : (s.setGen e g).regs = s.regs := rfl
@[simp] theorem setGen_hiLatch (s : State) (e g : Nat) : (s.setGen e g).hiLatch = s.hiLatch := rfl
@[simp] theorem setGen_hw (s : State) (e g : Nat) : (s.setGen e g).hw = s.hw := rfl
@[simp] theorem setGen_accesses (s : State) (e g : Nat) : (s.setGen e g).accesses = s.accesses := rfl
@[simp] theorem setGen_taking (s : State) (e g : Nat) : (s.setGen e g).taking = s.taking := rfl
@[simp] theorem setGen_freeCtr (s : State) (e g : Nat) : (s.setGen e g).freeCtr = s.freeCtr := rfl
@[simp] theorem setGen_pt (s : State) (e g : Nat) : (s.setGen e g).pt = s.pt := rfl
@[simp] theorem setGen_clk (s : State) (e g : Nat) : (s.setGen e g).clk = s.clk := rfl
@[simp] theorem setGen_evl (s : State) (e g : Nat) : (s.setGen e g).evl = s.evl := rfl
@[simp] theorem setGen_ctxs (s : State) (e g : Nat) : (s.setGen e g).ctxs = s.ctxs := rfl
@[simp] theorem setGen_xl (s : State) (e g : Nat) : (s.setGen e g).xl = s.xl := rfl
@[simp] theorem setGen_bankMem (s : State) (e g : Nat) : (s.setGen e g).bankMem = s.bankMem := rfl
@[simp] theorem setGen_bankMark (s : State) (e g : Nat) : (s.setGen e g).bankMark = s.bankMark := rfl
@[simp] theorem setGen_tableMark (s : State) (e g : Nat) : (s.setGen e g).tableMark = s.tableMark := rfl
@[simp] theorem setGen_stackMem (s : State) (e g : Nat) : (s.setGen e g).stackMem = s.stackMem := rfl
@[simp] theorem setGen_extMem (s : State) (e g : Nat) : (s.setGen e g).extMem = s.extMem := rfl
@[simp] theorem setGen_clerkMem (s : State) (e g : Nat) : (s.setGen e g).clerkMem = s.clerkMem := rfl
@[simp] theorem setGen_mesh (s : State) (e g : Nat) : (s.setGen e g).mesh = s.mesh := rfl
@[simp] theorem setGen_regu (s : State) (e g : Nat) : (s.setGen e g).regu = s.regu := rfl
@[simp] theorem setGen_work (s : State) (e g : Nat) : (s.setGen e g).work = s.work := rfl
@[simp] theorem setGen_sync (s : State) (e g : Nat) : (s.setGen e g).sync = s.sync := rfl
@[simp] theorem setGen_slc (s : State) (e g : Nat) : (s.setGen e g).slc = s.slc := rfl
@[simp] theorem setGen_edge (s : State) (e g : Nat) : (s.setGen e g).edge = s.edge := rfl
@[simp] theorem setGen_ras (s : State) (e g : Nat) : (s.setGen e g).ras = s.ras := rfl
@[simp] theorem setGen_pwr (s : State) (e g : Nat) : (s.setGen e g).pwr = s.pwr := rfl
@[simp] theorem setGen_obs (s : State) (e g : Nat) : (s.setGen e g).obs = s.obs := rfl
@[simp] theorem setGen_sessions (s : State) (e g : Nat) : (s.setGen e g).sessions = s.sessions := rfl
@[simp] theorem setGen_ports (s : State) (e g : Nat) : (s.setGen e g).ports = s.ports := rfl
@[simp] theorem setGen_out (s : State) (e g : Nat) : (s.setGen e g).out = s.out := rfl

@[simp] theorem setQueue_pending (s : State) (q : Nat) (x : Queue) : (s.setQueue q x).pending = s.pending := rfl
@[simp] theorem setQueue_waits (s : State) (q : Nat) (x : Queue) : (s.setQueue q x).waits = s.waits := rfl
@[simp] theorem setQueue_build (s : State) (q : Nat) (x : Queue) : (s.setQueue q x).build = s.build := rfl
@[simp] theorem setQueue_regs (s : State) (q : Nat) (x : Queue) : (s.setQueue q x).regs = s.regs := rfl
@[simp] theorem setQueue_hiLatch (s : State) (q : Nat) (x : Queue) : (s.setQueue q x).hiLatch = s.hiLatch := rfl
@[simp] theorem setQueue_hw (s : State) (q : Nat) (x : Queue) : (s.setQueue q x).hw = s.hw := rfl
@[simp] theorem setQueue_accesses (s : State) (q : Nat) (x : Queue) : (s.setQueue q x).accesses = s.accesses := rfl
@[simp] theorem setQueue_taking (s : State) (q : Nat) (x : Queue) : (s.setQueue q x).taking = s.taking := rfl
@[simp] theorem setQueue_freeCtr (s : State) (q : Nat) (x : Queue) : (s.setQueue q x).freeCtr = s.freeCtr := rfl
@[simp] theorem setQueue_pt (s : State) (q : Nat) (x : Queue) : (s.setQueue q x).pt = s.pt := rfl
@[simp] theorem setQueue_clk (s : State) (q : Nat) (x : Queue) : (s.setQueue q x).clk = s.clk := rfl
@[simp] theorem setQueue_evl (s : State) (q : Nat) (x : Queue) : (s.setQueue q x).evl = s.evl := rfl
@[simp] theorem setQueue_ctxs (s : State) (q : Nat) (x : Queue) : (s.setQueue q x).ctxs = s.ctxs := rfl
@[simp] theorem setQueue_xl (s : State) (q : Nat) (x : Queue) : (s.setQueue q x).xl = s.xl := rfl
@[simp] theorem setQueue_bankMem (s : State) (q : Nat) (x : Queue) : (s.setQueue q x).bankMem = s.bankMem := rfl
@[simp] theorem setQueue_bankMark (s : State) (q : Nat) (x : Queue) : (s.setQueue q x).bankMark = s.bankMark := rfl
@[simp] theorem setQueue_tableMark (s : State) (q : Nat) (x : Queue) : (s.setQueue q x).tableMark = s.tableMark := rfl
@[simp] theorem setQueue_stackMem (s : State) (q : Nat) (x : Queue) : (s.setQueue q x).stackMem = s.stackMem := rfl
@[simp] theorem setQueue_extMem (s : State) (q : Nat) (x : Queue) : (s.setQueue q x).extMem = s.extMem := rfl
@[simp] theorem setQueue_clerkMem (s : State) (q : Nat) (x : Queue) : (s.setQueue q x).clerkMem = s.clerkMem := rfl
@[simp] theorem setQueue_mesh (s : State) (q : Nat) (x : Queue) : (s.setQueue q x).mesh = s.mesh := rfl
@[simp] theorem setQueue_regu (s : State) (q : Nat) (x : Queue) : (s.setQueue q x).regu = s.regu := rfl
@[simp] theorem setQueue_work (s : State) (q : Nat) (x : Queue) : (s.setQueue q x).work = s.work := rfl
@[simp] theorem setQueue_sync (s : State) (q : Nat) (x : Queue) : (s.setQueue q x).sync = s.sync := rfl
@[simp] theorem setQueue_slc (s : State) (q : Nat) (x : Queue) : (s.setQueue q x).slc = s.slc := rfl
@[simp] theorem setQueue_edge (s : State) (q : Nat) (x : Queue) : (s.setQueue q x).edge = s.edge := rfl
@[simp] theorem setQueue_ras (s : State) (q : Nat) (x : Queue) : (s.setQueue q x).ras = s.ras := rfl
@[simp] theorem setQueue_pwr (s : State) (q : Nat) (x : Queue) : (s.setQueue q x).pwr = s.pwr := rfl
@[simp] theorem setQueue_obs (s : State) (q : Nat) (x : Queue) : (s.setQueue q x).obs = s.obs := rfl
@[simp] theorem setQueue_sessions (s : State) (q : Nat) (x : Queue) : (s.setQueue q x).sessions = s.sessions := rfl
@[simp] theorem setQueue_ports (s : State) (q : Nat) (x : Queue) : (s.setQueue q x).ports = s.ports := rfl
@[simp] theorem setQueue_out (s : State) (q : Nat) (x : Queue) : (s.setQueue q x).out = s.out := rfl

@[simp] theorem setBar_pending (s : State) (c : Nat) (x : Bar) : (s.setBar c x).pending = s.pending := rfl
@[simp] theorem setBar_waits (s : State) (c : Nat) (x : Bar) : (s.setBar c x).waits = s.waits := rfl
@[simp] theorem setBar_build (s : State) (c : Nat) (x : Bar) : (s.setBar c x).build = s.build := rfl
@[simp] theorem setBar_regs (s : State) (c : Nat) (x : Bar) : (s.setBar c x).regs = s.regs := rfl
@[simp] theorem setBar_hiLatch (s : State) (c : Nat) (x : Bar) : (s.setBar c x).hiLatch = s.hiLatch := rfl
@[simp] theorem setBar_hw (s : State) (c : Nat) (x : Bar) : (s.setBar c x).hw = s.hw := rfl
@[simp] theorem setBar_accesses (s : State) (c : Nat) (x : Bar) : (s.setBar c x).accesses = s.accesses := rfl
@[simp] theorem setBar_taking (s : State) (c : Nat) (x : Bar) : (s.setBar c x).taking = s.taking := rfl
@[simp] theorem setBar_freeCtr (s : State) (c : Nat) (x : Bar) : (s.setBar c x).freeCtr = s.freeCtr := rfl
@[simp] theorem setBar_pt (s : State) (c : Nat) (x : Bar) : (s.setBar c x).pt = s.pt := rfl
@[simp] theorem setBar_clk (s : State) (c : Nat) (x : Bar) : (s.setBar c x).clk = s.clk := rfl
@[simp] theorem setBar_evl (s : State) (c : Nat) (x : Bar) : (s.setBar c x).evl = s.evl := rfl
@[simp] theorem setBar_ctxs (s : State) (c : Nat) (x : Bar) : (s.setBar c x).ctxs = s.ctxs := rfl
@[simp] theorem setBar_xl (s : State) (c : Nat) (x : Bar) : (s.setBar c x).xl = s.xl := rfl
@[simp] theorem setBar_bankMem (s : State) (c : Nat) (x : Bar) : (s.setBar c x).bankMem = s.bankMem := rfl
@[simp] theorem setBar_bankMark (s : State) (c : Nat) (x : Bar) : (s.setBar c x).bankMark = s.bankMark := rfl
@[simp] theorem setBar_tableMark (s : State) (c : Nat) (x : Bar) : (s.setBar c x).tableMark = s.tableMark := rfl
@[simp] theorem setBar_stackMem (s : State) (c : Nat) (x : Bar) : (s.setBar c x).stackMem = s.stackMem := rfl
@[simp] theorem setBar_extMem (s : State) (c : Nat) (x : Bar) : (s.setBar c x).extMem = s.extMem := rfl
@[simp] theorem setBar_clerkMem (s : State) (c : Nat) (x : Bar) : (s.setBar c x).clerkMem = s.clerkMem := rfl
@[simp] theorem setBar_mesh (s : State) (c : Nat) (x : Bar) : (s.setBar c x).mesh = s.mesh := rfl
@[simp] theorem setBar_regu (s : State) (c : Nat) (x : Bar) : (s.setBar c x).regu = s.regu := rfl
@[simp] theorem setBar_work (s : State) (c : Nat) (x : Bar) : (s.setBar c x).work = s.work := rfl
@[simp] theorem setBar_float (s : State) (c : Nat) (x : Bar) : (s.setBar c x).float = s.float := rfl
@[simp] theorem setBar_slc (s : State) (c : Nat) (x : Bar) : (s.setBar c x).slc = s.slc := rfl
@[simp] theorem setBar_edge (s : State) (c : Nat) (x : Bar) : (s.setBar c x).edge = s.edge := rfl
@[simp] theorem setBar_ras (s : State) (c : Nat) (x : Bar) : (s.setBar c x).ras = s.ras := rfl
@[simp] theorem setBar_pwr (s : State) (c : Nat) (x : Bar) : (s.setBar c x).pwr = s.pwr := rfl
@[simp] theorem setBar_obs (s : State) (c : Nat) (x : Bar) : (s.setBar c x).obs = s.obs := rfl
@[simp] theorem setBar_sessions (s : State) (c : Nat) (x : Bar) : (s.setBar c x).sessions = s.sessions := rfl
@[simp] theorem setBar_ports (s : State) (c : Nat) (x : Bar) : (s.setBar c x).ports = s.ports := rfl
@[simp] theorem setBar_out (s : State) (c : Nat) (x : Bar) : (s.setBar c x).out = s.out := rfl

@[simp] theorem setLine_pending (s : State) (k : Nat) (l : Line) : (s.setLine k l).pending = s.pending := rfl
@[simp] theorem setLine_waits (s : State) (k : Nat) (l : Line) : (s.setLine k l).waits = s.waits := rfl
@[simp] theorem setLine_build (s : State) (k : Nat) (l : Line) : (s.setLine k l).build = s.build := rfl
@[simp] theorem setLine_regs (s : State) (k : Nat) (l : Line) : (s.setLine k l).regs = s.regs := rfl
@[simp] theorem setLine_hiLatch (s : State) (k : Nat) (l : Line) : (s.setLine k l).hiLatch = s.hiLatch := rfl
@[simp] theorem setLine_hw (s : State) (k : Nat) (l : Line) : (s.setLine k l).hw = s.hw := rfl
@[simp] theorem setLine_accesses (s : State) (k : Nat) (l : Line) : (s.setLine k l).accesses = s.accesses := rfl
@[simp] theorem setLine_taking (s : State) (k : Nat) (l : Line) : (s.setLine k l).taking = s.taking := rfl
@[simp] theorem setLine_freeCtr (s : State) (k : Nat) (l : Line) : (s.setLine k l).freeCtr = s.freeCtr := rfl
@[simp] theorem setLine_pt (s : State) (k : Nat) (l : Line) : (s.setLine k l).pt = s.pt := rfl
@[simp] theorem setLine_clk (s : State) (k : Nat) (l : Line) : (s.setLine k l).clk = s.clk := rfl
@[simp] theorem setLine_evl (s : State) (k : Nat) (l : Line) : (s.setLine k l).evl = s.evl := rfl
@[simp] theorem setLine_ctxs (s : State) (k : Nat) (l : Line) : (s.setLine k l).ctxs = s.ctxs := rfl
@[simp] theorem setLine_xl (s : State) (k : Nat) (l : Line) : (s.setLine k l).xl = s.xl := rfl
@[simp] theorem setLine_bankMem (s : State) (k : Nat) (l : Line) : (s.setLine k l).bankMem = s.bankMem := rfl
@[simp] theorem setLine_bankMark (s : State) (k : Nat) (l : Line) : (s.setLine k l).bankMark = s.bankMark := rfl
@[simp] theorem setLine_tableMark (s : State) (k : Nat) (l : Line) : (s.setLine k l).tableMark = s.tableMark := rfl
@[simp] theorem setLine_stackMem (s : State) (k : Nat) (l : Line) : (s.setLine k l).stackMem = s.stackMem := rfl
@[simp] theorem setLine_extMem (s : State) (k : Nat) (l : Line) : (s.setLine k l).extMem = s.extMem := rfl
@[simp] theorem setLine_clerkMem (s : State) (k : Nat) (l : Line) : (s.setLine k l).clerkMem = s.clerkMem := rfl
@[simp] theorem setLine_mesh (s : State) (k : Nat) (l : Line) : (s.setLine k l).mesh = s.mesh := rfl
@[simp] theorem setLine_regu (s : State) (k : Nat) (l : Line) : (s.setLine k l).regu = s.regu := rfl
@[simp] theorem setLine_work (s : State) (k : Nat) (l : Line) : (s.setLine k l).work = s.work := rfl
@[simp] theorem setLine_sync (s : State) (k : Nat) (l : Line) : (s.setLine k l).sync = s.sync := rfl
@[simp] theorem setLine_float (s : State) (k : Nat) (l : Line) : (s.setLine k l).float = s.float := rfl
@[simp] theorem setLine_edge (s : State) (k : Nat) (l : Line) : (s.setLine k l).edge = s.edge := rfl
@[simp] theorem setLine_ras (s : State) (k : Nat) (l : Line) : (s.setLine k l).ras = s.ras := rfl
@[simp] theorem setLine_pwr (s : State) (k : Nat) (l : Line) : (s.setLine k l).pwr = s.pwr := rfl
@[simp] theorem setLine_obs (s : State) (k : Nat) (l : Line) : (s.setLine k l).obs = s.obs := rfl
@[simp] theorem setLine_sessions (s : State) (k : Nat) (l : Line) : (s.setLine k l).sessions = s.sessions := rfl
@[simp] theorem setLine_ports (s : State) (k : Nat) (l : Line) : (s.setLine k l).ports = s.ports := rfl
@[simp] theorem setLine_out (s : State) (k : Nat) (l : Line) : (s.setLine k l).out = s.out := rfl

@[simp] theorem setSess_pending (s : State) (k : Nat) (x : Session) : (s.setSess k x).pending = s.pending := rfl
@[simp] theorem setSess_waits (s : State) (k : Nat) (x : Session) : (s.setSess k x).waits = s.waits := rfl
@[simp] theorem setSess_build (s : State) (k : Nat) (x : Session) : (s.setSess k x).build = s.build := rfl
@[simp] theorem setSess_regs (s : State) (k : Nat) (x : Session) : (s.setSess k x).regs = s.regs := rfl
@[simp] theorem setSess_hiLatch (s : State) (k : Nat) (x : Session) : (s.setSess k x).hiLatch = s.hiLatch := rfl
@[simp] theorem setSess_hw (s : State) (k : Nat) (x : Session) : (s.setSess k x).hw = s.hw := rfl
@[simp] theorem setSess_accesses (s : State) (k : Nat) (x : Session) : (s.setSess k x).accesses = s.accesses := rfl
@[simp] theorem setSess_taking (s : State) (k : Nat) (x : Session) : (s.setSess k x).taking = s.taking := rfl
@[simp] theorem setSess_freeCtr (s : State) (k : Nat) (x : Session) : (s.setSess k x).freeCtr = s.freeCtr := rfl
@[simp] theorem setSess_pt (s : State) (k : Nat) (x : Session) : (s.setSess k x).pt = s.pt := rfl
@[simp] theorem setSess_clk (s : State) (k : Nat) (x : Session) : (s.setSess k x).clk = s.clk := rfl
@[simp] theorem setSess_evl (s : State) (k : Nat) (x : Session) : (s.setSess k x).evl = s.evl := rfl
@[simp] theorem setSess_ctxs (s : State) (k : Nat) (x : Session) : (s.setSess k x).ctxs = s.ctxs := rfl
@[simp] theorem setSess_xl (s : State) (k : Nat) (x : Session) : (s.setSess k x).xl = s.xl := rfl
@[simp] theorem setSess_bankMem (s : State) (k : Nat) (x : Session) : (s.setSess k x).bankMem = s.bankMem := rfl
@[simp] theorem setSess_bankMark (s : State) (k : Nat) (x : Session) : (s.setSess k x).bankMark = s.bankMark := rfl
@[simp] theorem setSess_tableMark (s : State) (k : Nat) (x : Session) : (s.setSess k x).tableMark = s.tableMark := rfl
@[simp] theorem setSess_stackMem (s : State) (k : Nat) (x : Session) : (s.setSess k x).stackMem = s.stackMem := rfl
@[simp] theorem setSess_extMem (s : State) (k : Nat) (x : Session) : (s.setSess k x).extMem = s.extMem := rfl
@[simp] theorem setSess_clerkMem (s : State) (k : Nat) (x : Session) : (s.setSess k x).clerkMem = s.clerkMem := rfl
@[simp] theorem setSess_mesh (s : State) (k : Nat) (x : Session) : (s.setSess k x).mesh = s.mesh := rfl
@[simp] theorem setSess_regu (s : State) (k : Nat) (x : Session) : (s.setSess k x).regu = s.regu := rfl
@[simp] theorem setSess_work (s : State) (k : Nat) (x : Session) : (s.setSess k x).work = s.work := rfl
@[simp] theorem setSess_sync (s : State) (k : Nat) (x : Session) : (s.setSess k x).sync = s.sync := rfl
@[simp] theorem setSess_float (s : State) (k : Nat) (x : Session) : (s.setSess k x).float = s.float := rfl
@[simp] theorem setSess_slc (s : State) (k : Nat) (x : Session) : (s.setSess k x).slc = s.slc := rfl
@[simp] theorem setSess_edge (s : State) (k : Nat) (x : Session) : (s.setSess k x).edge = s.edge := rfl
@[simp] theorem setSess_ras (s : State) (k : Nat) (x : Session) : (s.setSess k x).ras = s.ras := rfl
@[simp] theorem setSess_pwr (s : State) (k : Nat) (x : Session) : (s.setSess k x).pwr = s.pwr := rfl
@[simp] theorem setSess_obs (s : State) (k : Nat) (x : Session) : (s.setSess k x).obs = s.obs := rfl
@[simp] theorem setSess_ports (s : State) (k : Nat) (x : Session) : (s.setSess k x).ports = s.ports := rfl
@[simp] theorem setSess_out (s : State) (k : Nat) (x : Session) : (s.setSess k x).out = s.out := rfl

@[simp] theorem dropPctx_pending (s : State) (k : Nat) : (s.dropPctx k).pending = s.pending := rfl
@[simp] theorem dropPctx_waits (s : State) (k : Nat) : (s.dropPctx k).waits = s.waits := rfl
@[simp] theorem dropPctx_build (s : State) (k : Nat) : (s.dropPctx k).build = s.build := rfl
@[simp] theorem dropPctx_regs (s : State) (k : Nat) : (s.dropPctx k).regs = s.regs := rfl
@[simp] theorem dropPctx_hiLatch (s : State) (k : Nat) : (s.dropPctx k).hiLatch = s.hiLatch := rfl
@[simp] theorem dropPctx_hw (s : State) (k : Nat) : (s.dropPctx k).hw = s.hw := rfl
@[simp] theorem dropPctx_accesses (s : State) (k : Nat) : (s.dropPctx k).accesses = s.accesses := rfl
@[simp] theorem dropPctx_taking (s : State) (k : Nat) : (s.dropPctx k).taking = s.taking := rfl
@[simp] theorem dropPctx_freeCtr (s : State) (k : Nat) : (s.dropPctx k).freeCtr = s.freeCtr := rfl
@[simp] theorem dropPctx_pt (s : State) (k : Nat) : (s.dropPctx k).pt = s.pt := rfl
@[simp] theorem dropPctx_clk (s : State) (k : Nat) : (s.dropPctx k).clk = s.clk := rfl
@[simp] theorem dropPctx_evl (s : State) (k : Nat) : (s.dropPctx k).evl = s.evl := rfl
@[simp] theorem dropPctx_ctxs (s : State) (k : Nat) : (s.dropPctx k).ctxs = s.ctxs := rfl
@[simp] theorem dropPctx_xl (s : State) (k : Nat) : (s.dropPctx k).xl = s.xl := rfl
@[simp] theorem dropPctx_bankMem (s : State) (k : Nat) : (s.dropPctx k).bankMem = s.bankMem := rfl
@[simp] theorem dropPctx_bankMark (s : State) (k : Nat) : (s.dropPctx k).bankMark = s.bankMark := rfl
@[simp] theorem dropPctx_tableMark (s : State) (k : Nat) : (s.dropPctx k).tableMark = s.tableMark := rfl
@[simp] theorem dropPctx_stackMem (s : State) (k : Nat) : (s.dropPctx k).stackMem = s.stackMem := rfl
@[simp] theorem dropPctx_extMem (s : State) (k : Nat) : (s.dropPctx k).extMem = s.extMem := rfl
@[simp] theorem dropPctx_clerkMem (s : State) (k : Nat) : (s.dropPctx k).clerkMem = s.clerkMem := rfl
@[simp] theorem dropPctx_mesh (s : State) (k : Nat) : (s.dropPctx k).mesh = s.mesh := rfl
@[simp] theorem dropPctx_regu (s : State) (k : Nat) : (s.dropPctx k).regu = s.regu := rfl
@[simp] theorem dropPctx_sync (s : State) (k : Nat) : (s.dropPctx k).sync = s.sync := rfl
@[simp] theorem dropPctx_float (s : State) (k : Nat) : (s.dropPctx k).float = s.float := rfl
@[simp] theorem dropPctx_slc (s : State) (k : Nat) : (s.dropPctx k).slc = s.slc := rfl
@[simp] theorem dropPctx_edge (s : State) (k : Nat) : (s.dropPctx k).edge = s.edge := rfl
@[simp] theorem dropPctx_ras (s : State) (k : Nat) : (s.dropPctx k).ras = s.ras := rfl
@[simp] theorem dropPctx_pwr (s : State) (k : Nat) : (s.dropPctx k).pwr = s.pwr := rfl
@[simp] theorem dropPctx_obs (s : State) (k : Nat) : (s.dropPctx k).obs = s.obs := rfl
@[simp] theorem dropPctx_sessions (s : State) (k : Nat) : (s.dropPctx k).sessions = s.sessions := rfl
@[simp] theorem dropPctx_ports (s : State) (k : Nat) : (s.dropPctx k).ports = s.ports := rfl
@[simp] theorem dropPctx_out (s : State) (k : Nat) : (s.dropPctx k).out = s.out := rfl

@[simp] theorem dropFlight_pending (s : State) (k : Nat) : (s.dropFlight k).pending = s.pending := rfl
@[simp] theorem dropFlight_waits (s : State) (k : Nat) : (s.dropFlight k).waits = s.waits := rfl
@[simp] theorem dropFlight_build (s : State) (k : Nat) : (s.dropFlight k).build = s.build := rfl
@[simp] theorem dropFlight_regs (s : State) (k : Nat) : (s.dropFlight k).regs = s.regs := rfl
@[simp] theorem dropFlight_hiLatch (s : State) (k : Nat) : (s.dropFlight k).hiLatch = s.hiLatch := rfl
@[simp] theorem dropFlight_hw (s : State) (k : Nat) : (s.dropFlight k).hw = s.hw := rfl
@[simp] theorem dropFlight_accesses (s : State) (k : Nat) : (s.dropFlight k).accesses = s.accesses := rfl
@[simp] theorem dropFlight_taking (s : State) (k : Nat) : (s.dropFlight k).taking = s.taking := rfl
@[simp] theorem dropFlight_freeCtr (s : State) (k : Nat) : (s.dropFlight k).freeCtr = s.freeCtr := rfl
@[simp] theorem dropFlight_pt (s : State) (k : Nat) : (s.dropFlight k).pt = s.pt := rfl
@[simp] theorem dropFlight_clk (s : State) (k : Nat) : (s.dropFlight k).clk = s.clk := rfl
@[simp] theorem dropFlight_evl (s : State) (k : Nat) : (s.dropFlight k).evl = s.evl := rfl
@[simp] theorem dropFlight_ctxs (s : State) (k : Nat) : (s.dropFlight k).ctxs = s.ctxs := rfl
@[simp] theorem dropFlight_xl (s : State) (k : Nat) : (s.dropFlight k).xl = s.xl := rfl
@[simp] theorem dropFlight_bankMem (s : State) (k : Nat) : (s.dropFlight k).bankMem = s.bankMem := rfl
@[simp] theorem dropFlight_bankMark (s : State) (k : Nat) : (s.dropFlight k).bankMark = s.bankMark := rfl
@[simp] theorem dropFlight_tableMark (s : State) (k : Nat) : (s.dropFlight k).tableMark = s.tableMark := rfl
@[simp] theorem dropFlight_stackMem (s : State) (k : Nat) : (s.dropFlight k).stackMem = s.stackMem := rfl
@[simp] theorem dropFlight_extMem (s : State) (k : Nat) : (s.dropFlight k).extMem = s.extMem := rfl
@[simp] theorem dropFlight_clerkMem (s : State) (k : Nat) : (s.dropFlight k).clerkMem = s.clerkMem := rfl
@[simp] theorem dropFlight_regu (s : State) (k : Nat) : (s.dropFlight k).regu = s.regu := rfl
@[simp] theorem dropFlight_work (s : State) (k : Nat) : (s.dropFlight k).work = s.work := rfl
@[simp] theorem dropFlight_sync (s : State) (k : Nat) : (s.dropFlight k).sync = s.sync := rfl
@[simp] theorem dropFlight_float (s : State) (k : Nat) : (s.dropFlight k).float = s.float := rfl
@[simp] theorem dropFlight_slc (s : State) (k : Nat) : (s.dropFlight k).slc = s.slc := rfl
@[simp] theorem dropFlight_edge (s : State) (k : Nat) : (s.dropFlight k).edge = s.edge := rfl
@[simp] theorem dropFlight_ras (s : State) (k : Nat) : (s.dropFlight k).ras = s.ras := rfl
@[simp] theorem dropFlight_pwr (s : State) (k : Nat) : (s.dropFlight k).pwr = s.pwr := rfl
@[simp] theorem dropFlight_obs (s : State) (k : Nat) : (s.dropFlight k).obs = s.obs := rfl
@[simp] theorem dropFlight_sessions (s : State) (k : Nat) : (s.dropFlight k).sessions = s.sessions := rfl
@[simp] theorem dropFlight_ports (s : State) (k : Nat) : (s.dropFlight k).ports = s.ports := rfl
@[simp] theorem dropFlight_out (s : State) (k : Nat) : (s.dropFlight k).out = s.out := rfl

@[simp] theorem dropLine_pending (s : State) (k : Nat) : (s.dropLine k).pending = s.pending := rfl
@[simp] theorem dropLine_waits (s : State) (k : Nat) : (s.dropLine k).waits = s.waits := rfl
@[simp] theorem dropLine_build (s : State) (k : Nat) : (s.dropLine k).build = s.build := rfl
@[simp] theorem dropLine_regs (s : State) (k : Nat) : (s.dropLine k).regs = s.regs := rfl
@[simp] theorem dropLine_hiLatch (s : State) (k : Nat) : (s.dropLine k).hiLatch = s.hiLatch := rfl
@[simp] theorem dropLine_hw (s : State) (k : Nat) : (s.dropLine k).hw = s.hw := rfl
@[simp] theorem dropLine_accesses (s : State) (k : Nat) : (s.dropLine k).accesses = s.accesses := rfl
@[simp] theorem dropLine_taking (s : State) (k : Nat) : (s.dropLine k).taking = s.taking := rfl
@[simp] theorem dropLine_freeCtr (s : State) (k : Nat) : (s.dropLine k).freeCtr = s.freeCtr := rfl
@[simp] theorem dropLine_pt (s : State) (k : Nat) : (s.dropLine k).pt = s.pt := rfl
@[simp] theorem dropLine_clk (s : State) (k : Nat) : (s.dropLine k).clk = s.clk := rfl
@[simp] theorem dropLine_evl (s : State) (k : Nat) : (s.dropLine k).evl = s.evl := rfl
@[simp] theorem dropLine_ctxs (s : State) (k : Nat) : (s.dropLine k).ctxs = s.ctxs := rfl
@[simp] theorem dropLine_xl (s : State) (k : Nat) : (s.dropLine k).xl = s.xl := rfl
@[simp] theorem dropLine_bankMem (s : State) (k : Nat) : (s.dropLine k).bankMem = s.bankMem := rfl
@[simp] theorem dropLine_bankMark (s : State) (k : Nat) : (s.dropLine k).bankMark = s.bankMark := rfl
@[simp] theorem dropLine_tableMark (s : State) (k : Nat) : (s.dropLine k).tableMark = s.tableMark := rfl
@[simp] theorem dropLine_stackMem (s : State) (k : Nat) : (s.dropLine k).stackMem = s.stackMem := rfl
@[simp] theorem dropLine_extMem (s : State) (k : Nat) : (s.dropLine k).extMem = s.extMem := rfl
@[simp] theorem dropLine_clerkMem (s : State) (k : Nat) : (s.dropLine k).clerkMem = s.clerkMem := rfl
@[simp] theorem dropLine_mesh (s : State) (k : Nat) : (s.dropLine k).mesh = s.mesh := rfl
@[simp] theorem dropLine_regu (s : State) (k : Nat) : (s.dropLine k).regu = s.regu := rfl
@[simp] theorem dropLine_work (s : State) (k : Nat) : (s.dropLine k).work = s.work := rfl
@[simp] theorem dropLine_sync (s : State) (k : Nat) : (s.dropLine k).sync = s.sync := rfl
@[simp] theorem dropLine_float (s : State) (k : Nat) : (s.dropLine k).float = s.float := rfl
@[simp] theorem dropLine_edge (s : State) (k : Nat) : (s.dropLine k).edge = s.edge := rfl
@[simp] theorem dropLine_ras (s : State) (k : Nat) : (s.dropLine k).ras = s.ras := rfl
@[simp] theorem dropLine_pwr (s : State) (k : Nat) : (s.dropLine k).pwr = s.pwr := rfl
@[simp] theorem dropLine_obs (s : State) (k : Nat) : (s.dropLine k).obs = s.obs := rfl
@[simp] theorem dropLine_sessions (s : State) (k : Nat) : (s.dropLine k).sessions = s.sessions := rfl
@[simp] theorem dropLine_ports (s : State) (k : Nat) : (s.dropLine k).ports = s.ports := rfl
@[simp] theorem dropLine_out (s : State) (k : Nat) : (s.dropLine k).out = s.out := rfl

end Sys2Proof.Machine
end

