-- ==== Sys2Proof/Laws/Regs.lean ====
section
/-! SUPPORT. What a register, a bit and a field read after a write. -/

namespace Sys2Proof.Machine

/-- A register just written reads as the word written. -/
theorem rg_setRg_same (s : State) (o v : Nat) : (s.setRg o v).rg o = v % 2 ^ 32 := by
  unfold State.rg State.setRg
  dsimp only
  rw [tget_tset_same, BitVec.toNat_ofNat]

/-- A write leaves every other register. -/
theorem rg_setRg_other (s : State) (o p v : Nat) (h : p ≠ o) : (s.setRg o v).rg p = s.rg p := by
  unfold State.rg State.setRg
  dsimp only
  rw [tget_tset_other _ _ _ _ _ _ h]

theorem rg_lt (s : State) (o : Nat) : s.rg o < 2 ^ 32 := BitVec.isLt _

/-- The bits of a number with a field replaced: the field itself. -/
theorem bits_putBits_same (x lo w v : Nat) : bits (putBits x lo w v) lo w = v % 2 ^ w := by
  unfold putBits bits
  have hx := Nat.div_add_mod x (2 ^ lo)
  have hy := Nat.div_add_mod (x / 2 ^ lo) (2 ^ w)
  have hlo : 0 < 2 ^ lo := by positivity
  have hw : 0 < 2 ^ w := by positivity
  set a := x / 2 ^ lo % 2 ^ w
  set q := x / 2 ^ lo / 2 ^ w
  set r := x % 2 ^ lo
  have hr : r < 2 ^ lo := Nat.mod_lt _ hlo
  have h1 : x = 2 ^ lo * (2 ^ w * q + a) + r := by rw [hy]; exact hx.symm
  have h2 : x - a * 2 ^ lo + v % 2 ^ w * 2 ^ lo = 2 ^ lo * (2 ^ w * q + v % 2 ^ w) + r := by
    have : x = 2 ^ lo * (2 ^ w * q) + a * 2 ^ lo + r := by rw [h1]; ring
    rw [this]
    have : 2 ^ lo * (2 ^ w * q) + a * 2 ^ lo + r - a * 2 ^ lo = 2 ^ lo * (2 ^ w * q) + r := by omega
    rw [this]; ring
  rw [h2, Nat.mul_add_div hlo, Nat.div_eq_of_lt hr, Nat.add_zero, Nat.mul_add_mod, Nat.mod_mod]

theorem putBits_lt (x lo w v : Nat) (h : x < 2 ^ 32) (hw : lo + w ≤ 32) : putBits x lo w v < 2 ^ 32 := by
  unfold putBits bits
  have hlo : 0 < 2 ^ lo := by positivity
  have hpw : 0 < 2 ^ w := by positivity
  have hx := Nat.div_add_mod x (2 ^ lo)
  have hy := Nat.div_add_mod (x / 2 ^ lo) (2 ^ w)
  set a := x / 2 ^ lo % 2 ^ w
  set q := x / 2 ^ lo / 2 ^ w
  set r := x % 2 ^ lo
  have hr : r < 2 ^ lo := Nat.mod_lt _ hlo
  have ha : v % 2 ^ w < 2 ^ w := Nat.mod_lt _ hpw
  have h1 : x = 2 ^ lo * (2 ^ w * q) + a * 2 ^ lo + r := by
    have : x = 2 ^ lo * (2 ^ w * q + a) + r := by rw [hy]; exact hx.symm
    rw [this]; ring
  have h32 : (2 : Nat) ^ 32 = 2 ^ lo * (2 ^ w * 2 ^ (32 - lo - w)) := by
    rw [← pow_add, ← pow_add]; congr 1; omega
  have hq : q < 2 ^ (32 - lo - w) := by
    by_contra hc
    have hc := Nat.le_of_not_lt hc
    have : 2 ^ lo * (2 ^ w * 2 ^ (32 - lo - w)) ≤ 2 ^ lo * (2 ^ w * q) :=
      Nat.mul_le_mul_left _ (Nat.mul_le_mul_left _ hc)
    omega
  have hx' : x - a * 2 ^ lo = 2 ^ lo * (2 ^ w * q) + r := by rw [h1]; omega
  rw [hx', h32]
  calc 2 ^ lo * (2 ^ w * q) + r + v % 2 ^ w * 2 ^ lo
      < 2 ^ lo * (2 ^ w * q) + 2 ^ lo + v % 2 ^ w * 2 ^ lo := by omega
    _ = 2 ^ lo * (2 ^ w * q + (v % 2 ^ w + 1)) := by ring
    _ ≤ 2 ^ lo * (2 ^ w * q + 2 ^ w) := Nat.mul_le_mul_left _ (by omega)
    _ = 2 ^ lo * (2 ^ w * (q + 1)) := by ring
    _ ≤ 2 ^ lo * (2 ^ w * 2 ^ (32 - lo - w)) := Nat.mul_le_mul_left _ (Nat.mul_le_mul_left _ hq)

/-- A field just written reads as the value written. -/
theorem rgField_setRgField_same (s : State) (o lo w v : Nat) (h : lo + w ≤ 32) :
    (s.setRgField o lo w v).rgField o lo w = v % 2 ^ w := by
  unfold State.rgField State.setRgField
  rw [rg_setRg_same, Nat.mod_eq_of_lt (putBits_lt _ _ _ _ (rg_lt s o) h), bits_putBits_same]

/-- What the hardware noted of a tc (R12) is no register. -/
theorem rg_setRgBit (s : State) (o i p : Nat) (b : Bool) :
    (s.setRgBit o i b).rg p = (s.setRg o (putBits (s.rg o) i 1 (b2n b))).rg p := rfl

theorem rg_driveField (s : State) (o lo w v p : Nat) : (s.driveField o lo w v).rg p = (s.setRgField o lo w v).rg p := rfl

theorem rg_countRg (s : State) (o n p : Nat) : (s.countRg o n).rg p = (s.setRg o (min (s.rg o + n) 0xFFFFFFFF)).rg p := rfl

/-- A bit just written reads as the value written. -/
theorem rgBit_setRgBit_same (s : State) (o i : Nat) (b : Bool) (h : i < 32) : (s.setRgBit o i b).rgBit o i = b := by
  unfold State.rgBit bit
  rw [rg_setRgBit, rg_setRg_same, Nat.mod_eq_of_lt (putBits_lt _ _ _ _ (rg_lt s o) (by omega)), bits_putBits_same]
  cases b <;> rfl

theorem rgBit_setRg_other (s : State) (o p i v : Nat) (h : p ≠ o) : (s.setRg o v).rgBit p i = s.rgBit p i := by
  unfold State.rgBit; rw [rg_setRg_other _ _ _ _ h]

theorem rgBit_setRgBit_other (s : State) (o p i j : Nat) (b : Bool) (h : p ≠ o) :
    (s.setRgBit o i b).rgBit p j = s.rgBit p j := rgBit_setRg_other s o p j _ h

theorem rgField_setRg_other (s : State) (o p lo w v : Nat) (h : p ≠ o) :
    (s.setRg o v).rgField p lo w = s.rgField p lo w := by
  unfold State.rgField; rw [rg_setRg_other _ _ _ _ h]

/-- The entry of a table field just set. -/
theorem slotRing_set_same (s : State) (r : Nat) (x : Slots) : (s.setSlotRing r x).slotRing r = x :=
  tget_tset_same ..
theorem slotRing_set_other (s : State) (r q : Nat) (x : Slots) (h : q ≠ r) :
    (s.setSlotRing r x).slotRing q = s.slotRing q := tget_tset_other _ _ _ _ _ _ h
theorem queue_set_same (s : State) (q : Nat) (x : Queue) : (s.setQueue q x).queue q = x := tget_tset_same ..
theorem queue_set_other (s : State) (q p : Nat) (x : Queue) (h : p ≠ q) : (s.setQueue q x).queue p = s.queue p :=
  tget_tset_other _ _ _ _ _ _ h
theorem pool_set_same (s : State) (p : Nat) (x : Pool) : (s.setPool p x).pool p = x := tget_tset_same ..
theorem gen_set_same (s : State) (e g : Nat) : (s.setGen e g).gen e = g % 16 := tget_tset_same ..
theorem bar_set_same (s : State) (c : Nat) (x : Bar) : (s.setBar c x).bar c = x := tget_tset_same ..
theorem ctx_set_same (s : State) (c : Nat) (x : Ctx) : (s.setCtx c x).ctx c = x := tget_tset_same ..
theorem ctx_set_other (s : State) (c d : Nat) (x : Ctx) (h : d ≠ c) : (s.setCtx c x).ctx d = s.ctx d :=
  tget_tset_other _ _ _ _ _ _ h
theorem ring_set_same (s : State) (r : Nat) (x : Ring) : (s.setRing r x).ring r = x := tget_tset_same ..
theorem dom_set_same (s : State) (d : Nat) (x : Dom) : (s.setDom d x).dom d = x := tget_tset_same ..
theorem dom_set_other (s : State) (d e : Nat) (x : Dom) (h : e ≠ d) : (s.setDom d x).dom e = s.dom e :=
  tget_tset_other _ _ _ _ _ _ h
theorem port_set_same (s : State) (u : Nat) (x : Port) : (s.setPort u x).port u = x := tget_tset_same ..
theorem frame_set_same (s : State) (f : Nat) (x : Frame) : (s.setFrame f x).frame f = x := tget_tset_same ..
theorem sess_set_same (s : State) (k : Nat) (x : Session) : (s.setSess k x).sess k = x := tget_tset_same ..
theorem link_set_same (s : State) (p : Nat) (x : Link) : (s.setLink p x).link p = x := tget_tset_same ..
theorem chan_set_same (s : State) (st c : Nat) (x : Chan) : (s.setChan st c x).chan st c = x := tget_tset_same ..

/-! ## Bits of one register -/

theorem rgBit_setRg (s : State) (o v i : Nat) (hi : i < 32) : (s.setRg o v).rgBit o i = bit v i := by
  unfold State.rgBit; rw [rg_setRg_same]
  unfold bit bits
  congr 1
  have h : v % 2^32 / 2^i % 2^1 = v / 2^i % 2^1 := by
    have : (2:Nat)^32 = 2^i * 2^(32-i) := by rw [← pow_add]; congr 1; omega
    rw [this, Nat.mod_mul_right_div_self]
    apply Nat.mod_mod_of_dvd
    exact pow_dvd_pow 2 (by omega)
  rw [h]

theorem bit_putBits_other (x i j v : Nat) (h : i ≠ j) : bit (putBits x j 1 v) i = bit x i := by
  have e : ∀ y k, bit y k = y.testBit k := by
    intro y k; simp [bit, bits, Nat.testBit, Nat.shiftRight_eq_div_pow, Nat.one_and_eq_mod_two]
  rw [e, e]
  unfold putBits bits
  have h1 : x - x / 2^j % 2^1 * 2^j + v % 2^1 * 2^j = x - x / 2^j % 2 * 2^j + v % 2 * 2^j := by simp
  rw [h1]
  have hv : v % 2 < 2 := Nat.mod_lt _ (by omega)
  have hd := Nat.div_add_mod x (2^j)
  have hq := Nat.div_add_mod (x/2^j) 2
  set r := x % 2^j with hr
  set b := x/2^j % 2
  set q := x/2^j/2
  have hrlt : r < 2^j := Nat.mod_lt _ (by positivity)
  have hx : x = (2*q+b) * 2^j + r := by rw [hq, Nat.mul_comm]; exact hd.symm
  have hb : b < 2 := Nat.mod_lt _ (by omega)
  have hy : x - b * 2^j + v % 2 * 2^j = (2*q + v%2) * 2^j + r := by
    have : x = 2*q*2^j + b*2^j + r := by rw [hx]; ring
    rw [this]
    have : 2*q*2^j + b*2^j + r - b*2^j = 2*q*2^j + r := by omega
    rw [this]; ring
  rw [hy, hx]
  have key : ∀ a, ((a) * 2^j + r).testBit i = if i < j then r.testBit i else a.testBit (i-j) := by
    intro a; rw [Nat.mul_comm]; exact Nat.testBit_two_pow_mul_add a hrlt i
  rw [key, key]
  split
  · rfl
  · have : i - j ≠ 0 := by omega
    obtain ⟨k, hk⟩ := Nat.exists_eq_succ_of_ne_zero this
    rw [hk, Nat.testBit_succ, Nat.testBit_succ]
    congr 1; omega

theorem rgBit_setRgBit_bit (s : State) (o i j : Nat) (b : Bool) (hi : i < 32) (h : i ≠ j) : (s.setRgBit o j b).rgBit o i = s.rgBit o i := by
  have e : (s.setRgBit o j b).rgBit o i = (s.setRg o (putBits (s.rg o) j 1 (b2n b))).rgBit o i := rfl
  rw [e, rgBit_setRg _ _ _ _ hi, bit_putBits_other _ _ _ _ h]; rfl

theorem regsBut_refl (l : List Nat) (s : State) : RegsBut l s s := fun _ _ => rfl

theorem regsBut_setRg {s t : State} {o v : Nat} {l : List Nat} (h : o ∈ l) (ht : RegsBut l s t) :
    RegsBut l s (t.setRg o v) := by
  intro p hp
  rw [rg_setRg_other t o p v (fun e => hp (by rw [e]; exact h))]
  exact ht p hp

theorem regsBut_setRgBit {s t : State} {o i : Nat} {b : Bool} {l : List Nat} (h : o ∈ l) (ht : RegsBut l s t) :
    RegsBut l s (t.setRgBit o i b) := regsBut_setRg h ht

theorem regsBut_of_regs {s t u : State} {l : List Nat} (h : u.regs = t.regs) (ht : RegsBut l s t) : RegsBut l s u := by
  intro p hp
  have : u.rg p = t.rg p := by unfold State.rg; rw [h]
  rw [this]; exact ht p hp

end Sys2Proof.Machine
end

