-- ==== Sys2Proof/Laws/Shared.lean ====
section
/-! SUPPORT. What the operations that several families share can do: the ranking of R91, listed entries, headers, table words
(R309), what leaves by a die-link port (R302 to R304), the handshake of an engine port (R386), the record of a tc (R12). -/

namespace Sys2Proof.Machine

/-! ## Ranking -/

/-- The order of R91 is irreflexive. -/
theorem Rank.before_self (a : Rank) : a.before a = false := by
  unfold Rank.before; cases a.overdue <;> simp

/-- What comes before no better than its better comes before neither. -/
theorem Rank.before_false_trans {a b c : Rank} (h : b.before a = false) (k : c.before b = false) : c.before a = false := by
  unfold Rank.before at *
  cases ha : a.overdue <;> cases hb : b.overdue <;> cases hc : c.overdue <;> simp_all <;> omega

/-- Of two ranks one does not come before the other. -/
theorem Rank.before_asymm {a b : Rank} (h : a.before b = true) : b.before a = false := by
  unfold Rank.before at *
  cases ha : a.overdue <;> cases hb : b.overdue <;> simp_all <;> omega

section
variable {α : Type} {rank : α → Rank}

theorem firstRanked_none {l : List α} : firstRanked rank l = none ↔ l = [] := by
  cases l with
  | nil => simp [firstRanked]
  | cons x l =>
    simp only [firstRanked, reduceCtorEq, iff_false]
    split
    · simp
    · split <;> simp

/-- The first-ranked element is one of the list, and nothing in the list comes before it (R91). -/
theorem firstRanked_some {l : List α} {y : α} (h : firstRanked rank l = some y) :
    y ∈ l ∧ ∀ x ∈ l, (rank x).before (rank y) = false := by
  induction l generalizing y with
  | nil => simp [firstRanked] at h
  | cons a l ih =>
    simp only [firstRanked] at h
    split at h
    · next e =>
      obtain rfl := Option.some.inj h
      rw [firstRanked_none.mp e]
      simp [Rank.before_self]
    · next z e =>
      obtain ⟨hz, hl⟩ := ih e
      split at h <;> obtain rfl := Option.some.inj h
      · next b =>
        refine ⟨List.mem_cons_of_mem _ hz, fun x hx => ?_⟩
        rcases List.mem_cons.mp hx with rfl | hx
        · exact Rank.before_asymm b
        · exact hl x hx
      · next b =>
        refine ⟨List.mem_cons_self, fun x hx => ?_⟩
        rcases List.mem_cons.mp hx with rfl | hx
        · exact Rank.before_self _
        · exact Rank.before_false_trans (by simpa using b) (hl x hx)

end

/-! ## Listed entries -/

section
variable {α : Type}

theorem tfind_tput_same (t : Table α) (k : Nat) (v : α) : tfind (tput t k v) k = some v := by
  induction t with
  | nil => simp [tput, tfind]
  | cons e r ih =>
    obtain ⟨k', v'⟩ := e
    simp only [tput]
    split
    · simp [tfind]
    · split
      · simp [tfind]
      · next h h' => simp [tfind, ih, Ne.symm h']

theorem tfind_tput_other (t : Table α) (k j : Nat) (v : α) (h : j ≠ k) : tfind (tput t k v) j = tfind t j := by
  induction t with
  | nil => simp [tput, tfind, h.symm]
  | cons e r ih =>
    obtain ⟨k', v'⟩ := e
    simp only [tput]
    split
    · simp [tfind, h.symm]
    · split
      · next e => subst e; simp [tfind, h.symm]
      · simp [tfind, ih]

theorem tfind_terase_same (t : Table α) (k : Nat) : tfind (terase t k) k = none := by
  induction t with
  | nil => rfl
  | cons e r ih =>
    obtain ⟨k', v'⟩ := e
    simp only [terase]
    split
    · exact ih
    · next h => simp [tfind, h, ih]

theorem tfind_terase_other (t : Table α) (k j : Nat) (h : j ≠ k) : tfind (terase t k) j = tfind t j := by
  induction t with
  | nil => rfl
  | cons e r ih =>
    obtain ⟨k', v'⟩ := e
    simp only [terase]
    split
    · next e => subst e; simp [tfind, h.symm, ih]
    · simp [tfind, ih]

end

@[simp] theorem pctx_set_same (s : State) (k : Nat) (x : PCtx) : (s.setPctx k x).pctx k = some x := tfind_tput_same ..
theorem pctx_set_other (s : State) (k j : Nat) (x : PCtx) (h : j ≠ k) : (s.setPctx k x).pctx j = s.pctx j :=
  tfind_tput_other _ _ _ _ h
@[simp] theorem pctx_drop_same (s : State) (k : Nat) : (s.dropPctx k).pctx k = none := tfind_terase_same ..
@[simp] theorem flight_set_same (s : State) (id : Nat) (x : Flight) : (s.setFlight id x).flight id = some x :=
  tfind_tput_same ..
theorem flight_set_other (s : State) (id j : Nat) (x : Flight) (h : j ≠ id) : (s.setFlight id x).flight j = s.flight j :=
  tfind_tput_other _ _ _ _ h
@[simp] theorem flight_drop_same (s : State) (id : Nat) : (s.dropFlight id).flight id = none := tfind_terase_same ..
@[simp] theorem line_set_same (s : State) (k : Nat) (l : Line) : (s.setLine k l).line k = some l := tfind_tput_same ..
@[simp] theorem line_drop_same (s : State) (k : Nat) : (s.dropLine k).line k = none := tfind_terase_same ..
@[simp] theorem teller_set_same (s : State) (b : Nat) (x : Teller) : (s.setTeller b x).teller b = x := tget_tset_same ..
theorem teller_set_other (s : State) (b c : Nat) (x : Teller) (h : c ≠ b) : (s.setTeller b x).teller c = s.teller c :=
  tget_tset_other _ _ _ _ _ _ h

/-! ## Headers -/

theorem putHdr_hdrs (s : State) (kind : HdrKind) (id src dest : Nat) :
    ∃ h, (putHdr s kind id src dest).mesh.hdrs = s.mesh.hdrs ++ [h] ∧ h.kind = kind ∧ h.id = id ∧ h.dest = dest ∧
      h.node = src ∧ h.overdue = false := ⟨_, rfl, rfl, rfl, rfl, rfl, rfl⟩

theorem takeHdr_none (s : State) (kind : HdrKind) (id : Nat) :
    ∀ g ∈ (takeHdr s kind id).mesh.hdrs, ¬ (g.kind = kind ∧ g.id = id) := by
  intro g hg
  have h := (List.mem_filter.mp hg).2
  rintro ⟨rfl, rfl⟩
  simp at h

theorem hdrHere_mem {s : State} {kind : HdrKind} {id : Nat} {h : Hdr} (e : hdrHere s kind id = some h) :
    h ∈ s.mesh.hdrs ∧ h.kind = kind ∧ h.id = id ∧ h.node = h.dest := by
  have m := List.mem_of_find?_eq_some e
  have p := List.find?_some e
  simp only [Bool.and_eq_true, beq_iff_eq] at p
  exact ⟨m, p.1.1.1, p.1.1.2, p.1.2⟩

/-! ## Table words -/

/-- Where no word of the table store shows an error, its reads change nothing. -/
@[simp] theorem tableReads_clean {s : State} (h : s.tableMark = []) (src : Nat) (ctx : Option (Nat × Nat))
    (l : List (Tab × Nat)) : tableReads s src ctx l = (true, s) := by
  induction l with
  | nil => rfl
  | cons e l ih => simp [tableReads, h, tfind, ih]

/-- The reads of table words succeed exactly where none is uncorrectable (R309). -/
theorem tableReads_ok (s : State) (src : Nat) (ctx : Option (Nat × Nat)) (l : List (Tab × Nat)) :
    (tableReads s src ctx l).1 = true ↔ ∀ e ∈ l, tableBad s e.1 e.2 = false := by
  induction l generalizing s with
  | nil => simp [tableReads]
  | cons e l ih =>
    simp only [tableReads, List.forall_mem_cons]
    split
    · next h => simp [ih, tableBad, h]
    · next h => rw [ih]; simp [tableBad, countErrs, h]
    · next h => simp [tableBad, h]

/-! ## Die-link ports -/

/-- What is to leave by a port leaves, or waits in its lane; behind a port that is DOWN it sends the wake pattern (R304). -/
theorem linkOut_cases (s : State) (p : Nat) (o : Out) :
    (laneWaits s p o = false ∧ linkSend s p o = some (linkOut s p o)) ∨
    ((linkOut s p o).link p = { s.link p with waiting := (s.link p).waiting ++ [o] } ∧
      (linkOut s p o).out = s.out ++ (if (s.link p).state = .down then [.pattern p (outWay o).1] else [])) := by
  have w : ∀ u : State, u = (if (s.link p).state = .down then
      (s.setLink p { s.link p with waiting := (s.link p).waiting ++ [o] }).emit (.pattern p (outWay o).1)
      else s.setLink p { s.link p with waiting := (s.link p).waiting ++ [o] }) →
      u.link p = { s.link p with waiting := (s.link p).waiting ++ [o] } ∧
      u.out = s.out ++ (if (s.link p).state = .down then [.pattern p (outWay o).1] else []) := by
    rintro u rfl
    split
    · exact ⟨link_set_same s p _, rfl⟩
    · exact ⟨link_set_same s p _, (List.append_nil _).symm⟩
  cases h : laneWaits s p o with
  | true => exact .inr (w _ (by simp [linkOut, h]))
  | false =>
    cases e : linkSend s p o with
    | none => exact .inr (w _ (by simp [linkOut, h, e]))
    | some t => exact .inl ⟨rfl, by simp [linkOut, h, e]⟩

theorem countEvent_out (s : State) (ev q n : Nat) : (countEvent s ev q n).out = s.out := by unfold countEvent; split <;> rfl

/-- A send takes credit of an UP port that is not latched, and the output is the one sent. -/
theorem linkSend_some {s t : State} {p : Nat} {o : Out} (h : linkSend s p o = some t) :
    (s.link p).state = .up ∧ creditsUsed s p (outWay o).2.1 (outWay o).2.2.1 < 32 ∧ clampOn s 34 = false ∧
      t.out = s.out ++ [o] := by
  unfold linkSend at h
  simp only at h
  split at h
  · next c =>
    obtain rfl := Option.some.inj h
    refine ⟨c.1, c.2.1, by simpa using c.2.2, ?_⟩
    simp [State.emit, moved, countEvent_out, State.setLink]
  · exact absurd h (by simp)

/-! ## Engine ports -/

/-- A port's request that completes its handshake is acted on; one that cannot stands there until the next tc, and behind a
latched group it waits (R347, R386). -/
theorem portGate_cases {s : State} {q : PortReq} (h : Live s (dHome ((portNorm q).port / 4))) (c : Instr)
    (eff : State → PortReq → State) :
    let r := portNorm q
    let t := lendOff (touch s (dHome (r.port / 4))) (r.port / 4)
    portGate q c s eff = .next (edgeWait t (dHome (r.port / 4)) (some (r.port / 4)) c) ∨
    portGate q c s eff = .next (portStands t r c) ∨
    portGate q c s eff = .next (eff (t.setPort r.port { t.port r.port with stands := none, took := some t.clk.tc }) r) := by
  unfold portGate
  simp only [gate_live h]
  split
  · exact .inl rfl
  · split
    · exact .inr (.inl rfl)
    · exact .inr (.inr rfl)

/-! ## The record of a tc -/

/-- What the hardware drove stands in the record of its tc (R12). -/
theorem driven_hwDrive (s : State) (o m : Nat) :
    ({ s with hw := s.hwDrive o m } : State).driven o = tget 0 s.hwNow.driven o ||| m := by
  have e : (s.hwDrive o m).tc = s.clk.tc := by
    unfold State.hwDrive State.hwNow; split <;> simp_all
  unfold State.driven State.hwNow
  simp only [e, if_true]
  exact tget_tset_same ..

/-- A register that a commit wrote in this tc reads as committed (Table 17.9). -/
theorem committed_commitMark (s : State) (o : Nat) : committed (commitMark s o) o = true := by
  have h : (commitMark s o).driven (commitKey o) = tget 0 s.hwNow.driven (commitKey o) ||| 1 := driven_hwDrive ..
  unfold committed
  rw [h]
  simp

/-! ## The issue point -/

/-- The segments of a whole access pass the issue point in order: all of them, or up to one that waits (R116, R118). -/
theorem gateSegs_count (who : Issuer) (rq : Rq) (l : List (Acc1 × Nat)) (n : Nat) (s : State) :
    n ≤ (gateSegs who rq l n s).2.1 ∧ (gateSegs who rq l n s).2.1 ≤ n + l.length ∧
    ((gateSegs who rq l n s).2.2 = true → (gateSegs who rq l n s).2.1 = n + l.length) := by
  induction l generalizing n s with
  | nil => simp [gateSegs]
  | cons e l ih =>
    obtain ⟨a, g⟩ := e
    simp only [gateSegs, List.length_cons]
    split
    · next t _ =>
      obtain ⟨h1, h2, h3⟩ := ih (n + 1) (wholeDone t rq a.host a.wr a.addr g)
      exact ⟨by omega, by omega, fun h => by have := h3 h; omega⟩
    · simp

/-- A request whose run makes no access passes at once. -/
theorem issueRun_quiet (s : State) (who : Issuer) (rq : Rq) (n : Nat) (run : State → State)
    (h : accessesOf s run = []) : issueRun s who rq n run = (s, n, true) := by
  simp [issueRun, h, segmentsOf, gateSegs]

end Sys2Proof.Machine
end

