-- ==== Sys2Proof/Laws/Touch.lean ====
section
/-! SUPPORT. What the restart of a domain's activity timer (R338) leaves as it was: everything but that timer. -/

namespace Sys2Proof.Machine

/-- AO has no activity timer. -/
@[simp] theorem touch_zero (s : State) : touch s 0 = s := rfl

@[simp] theorem touch_pending (s : State) (d : Nat) : (touch s d).pending = s.pending := by unfold touch; split <;> rfl
@[simp] theorem touch_waits (s : State) (d : Nat) : (touch s d).waits = s.waits := by unfold touch; split <;> rfl
@[simp] theorem touch_build (s : State) (d : Nat) : (touch s d).build = s.build := by unfold touch; split <;> rfl
@[simp] theorem touch_regs (s : State) (d : Nat) : (touch s d).regs = s.regs := by unfold touch; split <;> rfl
@[simp] theorem touch_hiLatch (s : State) (d : Nat) : (touch s d).hiLatch = s.hiLatch := by unfold touch; split <;> rfl
@[simp] theorem touch_hw (s : State) (d : Nat) : (touch s d).hw = s.hw := by unfold touch; split <;> rfl
@[simp] theorem touch_accesses (s : State) (d : Nat) : (touch s d).accesses = s.accesses := by unfold touch; split <;> rfl
@[simp] theorem touch_taking (s : State) (d : Nat) : (touch s d).taking = s.taking := by unfold touch; split <;> rfl
@[simp] theorem touch_tableMark (s : State) (d : Nat) : (touch s d).tableMark = s.tableMark := by unfold touch; split <;> rfl
@[simp] theorem touch_freeCtr (s : State) (d : Nat) : (touch s d).freeCtr = s.freeCtr := by unfold touch; split <;> rfl
@[simp] theorem touch_pt (s : State) (d : Nat) : (touch s d).pt = s.pt := by unfold touch; split <;> rfl
@[simp] theorem touch_clk (s : State) (d : Nat) : (touch s d).clk = s.clk := by unfold touch; split <;> rfl
@[simp] theorem touch_evl (s : State) (d : Nat) : (touch s d).evl = s.evl := by unfold touch; split <;> rfl
@[simp] theorem touch_ctxs (s : State) (d : Nat) : (touch s d).ctxs = s.ctxs := by unfold touch; split <;> rfl
@[simp] theorem touch_xl (s : State) (d : Nat) : (touch s d).xl = s.xl := by unfold touch; split <;> rfl
@[simp] theorem touch_bankMem (s : State) (d : Nat) : (touch s d).bankMem = s.bankMem := by unfold touch; split <;> rfl
@[simp] theorem touch_bankMark (s : State) (d : Nat) : (touch s d).bankMark = s.bankMark := by unfold touch; split <;> rfl
@[simp] theorem touch_stackMem (s : State) (d : Nat) : (touch s d).stackMem = s.stackMem := by unfold touch; split <;> rfl
@[simp] theorem touch_extMem (s : State) (d : Nat) : (touch s d).extMem = s.extMem := by unfold touch; split <;> rfl
@[simp] theorem touch_clerkMem (s : State) (d : Nat) : (touch s d).clerkMem = s.clerkMem := by unfold touch; split <;> rfl
@[simp] theorem touch_mesh (s : State) (d : Nat) : (touch s d).mesh = s.mesh := by unfold touch; split <;> rfl
@[simp] theorem touch_regu (s : State) (d : Nat) : (touch s d).regu = s.regu := by unfold touch; split <;> rfl
@[simp] theorem touch_work (s : State) (d : Nat) : (touch s d).work = s.work := by unfold touch; split <;> rfl
@[simp] theorem touch_sync (s : State) (d : Nat) : (touch s d).sync = s.sync := by unfold touch; split <;> rfl
@[simp] theorem touch_float (s : State) (d : Nat) : (touch s d).float = s.float := by unfold touch; split <;> rfl
@[simp] theorem touch_slc (s : State) (d : Nat) : (touch s d).slc = s.slc := by unfold touch; split <;> rfl
@[simp] theorem touch_edge (s : State) (d : Nat) : (touch s d).edge = s.edge := by unfold touch; split <;> rfl
@[simp] theorem touch_ras (s : State) (d : Nat) : (touch s d).ras = s.ras := by unfold touch; split <;> rfl
@[simp] theorem touch_obs (s : State) (d : Nat) : (touch s d).obs = s.obs := by unfold touch; split <;> rfl
@[simp] theorem touch_sessions (s : State) (d : Nat) : (touch s d).sessions = s.sessions := by unfold touch; split <;> rfl
@[simp] theorem touch_ports (s : State) (d : Nat) : (touch s d).ports = s.ports := by unfold touch; split <;> rfl
@[simp] theorem touch_out (s : State) (d : Nat) : (touch s d).out = s.out := by unfold touch; split <;> rfl
@[simp] theorem touch_pwr_nodeVotes (s : State) (d : Nat) : (touch s d).pwr.nodeVotes = s.pwr.nodeVotes := by unfold touch; split <;> rfl
@[simp] theorem touch_pwr_asserted (s : State) (d : Nat) : (touch s d).pwr.asserted = s.pwr.asserted := by unfold touch; split <;> rfl
@[simp] theorem touch_pwr_releasedAt (s : State) (d : Nat) : (touch s d).pwr.releasedAt = s.pwr.releasedAt := by unfold touch; split <;> rfl
@[simp] theorem touch_pwr_fresh (s : State) (d : Nat) : (touch s d).pwr.fresh = s.pwr.fresh := by unfold touch; split <;> rfl
@[simp] theorem touch_pwr_last (s : State) (d : Nat) : (touch s d).pwr.last = s.pwr.last := by unfold touch; split <;> rfl
@[simp] theorem touch_pwr_dieId (s : State) (d : Nat) : (touch s d).pwr.dieId = s.pwr.dieId := by unfold touch; split <;> rfl
@[simp] theorem touch_pwr_clkMode (s : State) (d : Nat) : (touch s d).pwr.clkMode = s.pwr.clkMode := by unfold touch; split <;> rfl
@[simp] theorem touch_pwr_bootSrc (s : State) (d : Nat) : (touch s d).pwr.bootSrc = s.pwr.bootSrc := by unfold touch; split <;> rfl
@[simp] theorem touch_pwr_strapErr (s : State) (d : Nat) : (touch s d).pwr.strapErr = s.pwr.strapErr := by unfold touch; split <;> rfl
@[simp] theorem touch_pwr_lcState (s : State) (d : Nat) : (touch s d).pwr.lcState = s.pwr.lcState := by unfold touch; split <;> rfl
@[simp] theorem touch_pwr_tamper (s : State) (d : Nat) : (touch s d).pwr.tamper = s.pwr.tamper := by unfold touch; split <;> rfl
@[simp] theorem touch_pwr_wiping (s : State) (d : Nat) : (touch s d).pwr.wiping = s.pwr.wiping := by unfold touch; split <;> rfl
@[simp] theorem touch_pwr_wipeAt (s : State) (d : Nat) : (touch s d).pwr.wipeAt = s.pwr.wipeAt := by unfold touch; split <;> rfl
@[simp] theorem touch_pwr_wipeBanks (s : State) (d : Nat) : (touch s d).pwr.wipeBanks = s.pwr.wipeBanks := by unfold touch; split <;> rfl
@[simp] theorem touch_pwr_wipes (s : State) (d : Nat) : (touch s d).pwr.wipes = s.pwr.wipes := by unfold touch; split <;> rfl
@[simp] theorem touch_pwr_cap (s : State) (d : Nat) : (touch s d).pwr.cap = s.pwr.cap := by unfold touch; split <;> rfl
@[simp] theorem touch_pwr_backupLost (s : State) (d : Nat) : (touch s d).pwr.backupLost = s.pwr.backupLost := by unfold touch; split <;> rfl
@[simp] theorem touch_rg (s : State) (d : Nat) (o : Nat) : (touch s d).rg o = s.rg o := by unfold touch; split <;> rfl
@[simp] theorem touch_rgBit (s : State) (d : Nat) (o i : Nat) : (touch s d).rgBit o i = s.rgBit o i := by unfold touch; split <;> rfl
@[simp] theorem touch_rgField (s : State) (d : Nat) (o lo w : Nat) : (touch s d).rgField o lo w = s.rgField o lo w := by unfold touch; split <;> rfl
@[simp] theorem touch_now (s : State) (d : Nat) : (touch s d).now = s.now := by unfold touch; split <;> rfl
@[simp] theorem touch_frame (s : State) (d f : Nat) : (touch s d).frame f = s.frame f := by unfold touch; split <;> rfl
@[simp] theorem touch_ctx (s : State) (d c : Nat) : (touch s d).ctx c = s.ctx c := by unfold touch; split <;> rfl
@[simp] theorem touch_slotRing (s : State) (d r : Nat) : (touch s d).slotRing r = s.slotRing r := by unfold touch; split <;> rfl
@[simp] theorem touch_queue (s : State) (d q : Nat) : (touch s d).queue q = s.queue q := by unfold touch; split <;> rfl
@[simp] theorem touch_pool (s : State) (d p : Nat) : (touch s d).pool p = s.pool p := by unfold touch; split <;> rfl
@[simp] theorem touch_gen (s : State) (d e : Nat) : (touch s d).gen e = s.gen e := by unfold touch; split <;> rfl
@[simp] theorem touch_bar (s : State) (d c : Nat) : (touch s d).bar c = s.bar c := by unfold touch; split <;> rfl
@[simp] theorem touch_ring (s : State) (d r : Nat) : (touch s d).ring r = s.ring r := by unfold touch; split <;> rfl
@[simp] theorem touch_pctx (s : State) (d k : Nat) : (touch s d).pctx k = s.pctx k := by unfold touch; split <;> rfl
@[simp] theorem touch_link (s : State) (d p : Nat) : (touch s d).link p = s.link p := by unfold touch; split <;> rfl
@[simp] theorem touch_sess (s : State) (d k : Nat) : (touch s d).sess k = s.sess k := by unfold touch; split <;> rfl
@[simp] theorem touch_port (s : State) (d u : Nat) : (touch s d).port u = s.port u := by unfold touch; split <;> rfl
@[simp] theorem touch_chan (s : State) (d st c : Nat) : (touch s d).chan st c = s.chan st c := by unfold touch; split <;> rfl

end Sys2Proof.Machine
end

