-- ==== Sys2Proof/WellFormed.lean ====
section
/-! DEFINITION. Which operands a command may carry: every number within the range that the spec gives its unit. -/

namespace Sys2Proof

/-! ## Numbers (Table 0.1, Tables 1.1 to 1.3) -/

/-- A command ring or a completion ring (R128). -/
def ringOk (r : Nat) : Bool := decide (r < 1024)
/-- An event ring (R152). -/
def evrOk (e : Nat) : Bool := decide (e < 16)
/-- A completion ring or, with `evr`, an event ring. -/
def ringOf (evr : Bool) (c : Nat) : Bool := if evr then evrOk c else ringOk c
/-- A mover (R13). -/
def mOk (m : Nat) : Bool := decide (m < 32)
/-- A program context of a mover (R131). -/
def pOk (p : Nat) : Bool := decide (p < 8)
/-- A node (R13). -/
def nodeOk (n : Nat) : Bool := decide (n < 32)
/-- A logical bank (R15). -/
def bankOk (b : Nat) : Bool := decide (b < 256)
/-- A unit number that is not reserved (R18, Table 1.3). -/
def unitOk (u : Nat) : Bool := decide (u < 170)
/-- A source number (R18): a die and a unit that is not reserved. -/
def srcOk (s : Nat) : Bool := decide (s / 256 < 16) && unitOk (s % 256)
/-- A die of the package (R1). -/
def dieOk (d : Nat) : Bool := decide (d < 16)
/-- A context (R64). -/
def ctxOk (c : Nat) : Bool := decide (c < 40960)
/-- An address-space id (Table 3.4). -/
def asidOk (a : Nat) : Bool := decide (a < 65536)
/-- A page number of PAGED space (R76). -/
def vpnOk (v : Nat) : Bool := decide (v < 2 ^ 27)
/-- A stack frame (R3). -/
def frameOk (f : Nat) : Bool := decide (f < 81920)
/-- A frame group (R71). -/
def groupOk (g : Nat) : Bool := decide (g < 1280)
/-- A stack (R3). -/
def stackOk (s : Nat) : Bool := decide (s < 2)
/-- A local channel of a stack, 32 the spare (R390). -/
def chOk (c : Nat) : Bool := decide (c < 33)
/-- A reported row's channel offset (Table 16.11). -/
def chanOffOk (o : Nat) : Bool := decide (o < 2 ^ 32)
/-- A stack entry's tag (Table 16.10). -/
def entryTagOk (t : Nat) : Bool := decide (t < 512)
/-- A refresh level (Table 16.11). -/
def levelOk (l : Nat) : Bool := decide (l < 16)
/-- A time of PT (R27). -/
def ptOk (t : Nat) : Bool := decide (t < 2 ^ 64)
/-- A die-link port: N, E, S, W (R300). -/
def linkOk (p : Nat) : Bool := decide (p < 4)
/-- A lane (R302). -/
def laneOk (l : Nat) : Bool := decide (l < 16)
/-- An engine port by its unit number (Table 1.3). -/
def portOk (p : Nat) : Bool := decide (p < 128)
/-- A slot ring (R183). -/
def slotRingOk (r : Nat) : Bool := decide (r < 4096)
/-- A slot of a ring (Table 8.1). -/
def slotOk (i : Nat) : Bool := decide (i < 64)
/-- Producer or consumer; the lower or upper half. -/
def sideOk (x : Nat) : Bool := decide (x < 2)
/-- A cheque queue (R193). -/
def queueOk (q : Nat) : Bool := decide (q < 1024)
/-- A cheque pool (R192). -/
def poolOk (p : Nat) : Bool := decide (p < 256)
/-- A physical flag (R251). -/
def flagOk (f : Nat) : Bool := decide (f < 16384)
/-- A barrier channel (R269). -/
def chanOk (c : Nat) : Bool := decide (c < 32)
/-- A link of a relay's chain (R203). -/
def chainOk (l : Nat) : Bool := decide (l < 512)
/-- A sequence number of a command ring (R132). -/
def seqOk (n : Nat) : Bool := decide (n < 2 ^ 32)
/-- A program-store word (R155). -/
def pstoreOk (n : Nat) : Bool := decide (n < 32768)
/-- A power domain (Table 14.1). -/
def domOk (d : Nat) : Bool := decide (d < 37)
/-- A kind of wake (Table 14.4). -/
def wakeKindOk (k : Nat) : Bool := decide (k < 16)
/-- A MESH_QUAR register (R110). -/
def quarOk (n : Nat) : Bool := decide (n < 6)
/-- A router output of a node: a mesh link that the node has (N, E, S, W of 4 rows and 8 columns, R13) or LOCAL, 4
(R103). -/
def routerOutOk (n o : Nat) : Bool :=
  match o with
  | 0 => decide (8 ≤ n)
  | 1 => decide (n % 8 < 7)
  | 2 => decide (n < 24)
  | 3 => decide (0 < n % 8)
  | 4 => true
  | _ => false
/-- A site of the lock-up detector (R332): a teller by node and place, a router output, a gateway channel, a lane of a
die-link port. -/
def lockSiteOk (s n o : Nat) : Bool :=
  match s with
  | 0 => nodeOk n && decide (o < 8)
  | 1 => nodeOk n && routerOutOk n o
  | 2 => decide (n < 64)
  | 3 => linkOk o
  | _ => false
/-- An offset of the flag store: 8 bytes for each physical flag (R252). -/
def flagOffOk (o : Nat) : Bool := decide (o < 8 * 16384)
/-- An escrow session (R401). -/
def sessOk (k : Nat) : Bool := decide (k < 4)
/-- A life-cycle state code (R359). -/
def lcOk (x : Nat) : Bool := decide (x < 8)
/-- A trigger of an audit (R372). -/
def triggerOk (t : Nat) : Bool := decide (t < 5)
/-- An offset of REGISTERS space (Table 3.2); a misaligned one is answered with FAULT_ALIGN (R60, R396). -/
def regOk (o : Nat) : Bool := decide (o < 2 ^ 24)
/-- An offset of DEBUG space: the OFFSET field of a PPA (Table 3.1). -/
def debugOk (o : Nat) : Bool := decide (o < 2 ^ 47)
/-- An offset of the TAP's REGISTERS or DEBUG instrument (R371). -/
def tapOk (dbg : Bool) (o : Nat) : Bool := if dbg then debugOk o else regOk o
/-- An offset of SLOT and CHEQUE control space (Table 3.2). -/
def slotOffOk (o : Nat) : Bool := decide (o < 0x54000)
/-- PT_NOW_LO and the like: a register's offset. -/
def nowOk (o : Nat) : Bool := regOk o
/-- An offset in a doorbell page (R132). -/
def offPage (o : Nat) : Bool := decide (o < 4096)
/-- A width of an access in bytes. -/
def widthOk (w : Nat) : Bool := decide (0 < w) && decide (w ≤ 128)

/-! ## Compound operands -/

/-- An owner request: its source, its row, its stamps (R85, R90). -/
def OwnerReq.ok (q : OwnerReq) : Bool :=
  srcOk q.src && q.ctx.all ctxOk && decide (q.row < 16384) && decide (q.dl < 2 ^ 24)

/-- The shape of a segment (R96): 1 to 16 granules within one 2 KiB block, at most one datum for each, a context (R64), a
class and a short stamp. -/
def Segment.fits (x : Segment) : Bool :=
  x.ctx.all ctxOk && laneOk x.cls && decide (1 ≤ x.count) && decide (x.count ≤ 16) && decide (x.dl < 2 ^ 24) &&
  x.target % 128 == 0 && decide (x.target % 2048 + x.count * 128 ≤ 2048) && decide (x.data.length ≤ x.count)

/-- A segment that a source issues: a read brings no data. -/
def Segment.ok (x : Segment) : Bool := srcOk x.src && x.fits && (x.kind != .read || x.data.isEmpty)

/-- A link of a relay of another die: a chain of links that are left of at most 512 (R203). -/
def hopOk (h : Option RelayHop) : Bool :=
  match h with
  | none => true
  | some x =>
    dieOk x.die && laneOk x.lane && decide (x.dl < 2 ^ 24) && decide (1 ≤ x.size) && decide (x.size ≤ 8192) &&
    decide (1 ≤ x.chain.length) && decide (x.link + x.chain.length ≤ 512) &&
    x.chain.all (fun e => dieOk e.1 && nodeOk e.2.1 && slotRingOk e.2.2) &&
    decide (x.off + x.data.length ≤ x.size * 128)

/-- A request of an engine port within the widths of Table 16.2. -/
def PortReq.ok (q : PortReq) : Bool :=
  portOk q.port && decide (q.tag < 256) && decide (q.ctx < 65536) && decide (q.addr < 2 ^ 48) && decide (q.cnt < 16) &&
  decide (-8388608 ≤ q.stride) && decide (q.stride < 8388608) && decide (q.dl < 2 ^ 24) && decide (q.scope < 8) &&
  decide (q.aop < 8)

/-- The write data that comes with a request: at most the 16 granules of one (R383). -/
def beatsOk (b : List WByte) : Bool := decide (b.length ≤ 2048)
/-- One write-data beat (Table 16.2). -/
def beatOk (b : List WByte) : Bool := decide (b.length ≤ 256)
/-- A flit: its lane and destination (Table 16.12), and what it carries; the host and an I/O die have no source number
(R18). -/
def Flit.ok (f : Flit) : Bool :=
  ptOk f.send && laneOk f.lane && dieOk f.dest && f.seg.fits && (f.io || srcOk f.seg.src) &&
  f.relay.all (fun x => decide (x.1 < 256) && hopOk (some x.2))
/-- The credit returns of a CONTROL flit: up to 8, of a lane and at most 63 granules (R391). -/
def creditsOk (l : List (Nat × Bool × Nat)) : Bool :=
  decide (l.length ≤ 8) && l.all (fun c => laneOk c.1 && decide (c.2.2 < 64))
/-- The readings of the 16 sensors (R380). -/
def tempsOk (l : List (BitVec 12)) : Bool := l.length == 16
/-- The estimates of the 37 domains (R381), 20 bits each. -/
def estOk (l : List Nat) : Bool := l.length == 37 && l.all (fun e => decide (e < 2 ^ 20))
/-- The flag operations of one tc: each of a source (R258). -/
def opsOk (l : List (Nat × Bool)) : Bool := l.all (fun o => srcOk o.1)

/-- A command whose operands are within the ranges of its units. -/
def Instr.wf (i : Instr) : Bool :=
  match i with
  | .ptSyncMark mark => ptOk mark
  | .ptMarkMissing _ => true
  | .ptSlewEnd => true
  | .ptDieOffsetWrite _ => true
  | .ptNowLoRead off => nowOk off
  | .ptEpochOffsetHiWrite _ => true
  | .ptProbeGo _ => true
  | .ptProbeDone t1 t2 t3 t4 => t1.length == 64 && t2.length == 64 && t3.length == 64 && t4.length == 64
  | .evlEnable _ => true
  | .evlDisable _ => true
  | .evlRecordPlace src => srcOk src
  | .protSealWrite _ => true
  | .ctxBind r => ringOk r
  | .ctxUnbind r => ringOk r
  | .ctxUnbindFinish ctx => ctxOk ctx
  | .frameMap r => ringOk r
  | .frameMapModeOnly r => ringOk r
  | .frameMapDeferred _ => true
  | .groupModeSwitch g => groupOk g
  | .frameUnmap r => ringOk r
  | .shootdownAck node _ => nodeOk node
  | .tallyWalkDone node asid vpn => nodeOk node && asidOk asid && vpnOk vpn
  | .tellerGrant bank reqs => bankOk bank && reqs.all OwnerReq.ok
  | .tellerHeader node place => nodeOk node && decide (place < 8)
  | .lookAhead bank _ => bankOk bank
  | .callReceive _ => true
  | .segmentGranuleArrive _ => true
  | .refusalReceive _ => true
  | .backoffExpire _ => true
  | .meshRailGrant row col out => decide (row < 4) && decide (col < 8) && routerOutOk (row * 8 + col) out
  | .cutOff _ => true
  | .quarantineWindowEnd unit => unitOk unit
  | .quarantineRelease n _ => quarOk n
  | .starvation bank _ => bankOk bank
  | .readDataArrive _ => true
  | .writeAckArrive _ => true
  | .segmentIssue seg => seg.ok
  | .windowBoundary => true
  | .reguCntClrWrite _ => true
  | .doorbell r off width _ => ringOk r && offPage off && widthOk width
  | .batchFetch r => ringOk r
  | .batchArrive r _ => ringOk r
  | .notBeforeReached r => ringOk r
  | .copy r => ringOk r
  | .fill r => ringOk r
  | .reduce r => ringOk r
  | .convert r => ringOk r
  | .relay r => ringOk r
  | .stream r => ringOk r
  | .signal r => ringOk r
  | .wait r => ringOk r
  | .fence r => ringOk r
  | .barrier r => ringOk r
  | .invalidate r => ringOk r
  | .flush r => ringOk r
  | .digestRead r => ringOk r
  | .stamp r => ringOk r
  | .commandComplete r seq => ringOk r && seqOk seq
  | .cringRecordPlace c => ringOk c
  | .cringHeadWrite evr c _ => ringOf evr c
  | .cmdrEnable r _ => ringOk r
  | .cmdrDisable r _ => ringOk r
  | .cmdrStop r _ => ringOk r
  | .cmdrResume r _ => ringOk r
  | .cringEnable c _ => ringOk c
  | .evrEnable e _ => evrOk e
  | .irqNsExpire evr c => ringOf evr c
  | .pstoreHighWrite n _ => pstoreOk n
  | .pstoreLowWrite n _ => pstoreOk n
  | .halt m p => mOk m && pOk p
  | .next m p => mOk m && pOk p
  | .nextRetire m p => mOk m && pOk p
  | .loop m p => mOk m && pOk p
  | .endl m p => mOk m && pOk p
  | .seta m p => mOk m && pOk p
  | .adda m p => mOk m && pOk p
  | .stride m p => mOk m && pOk p
  | .rd m p => mOk m && pOk p
  | .wr m p => mOk m && pOk p
  | .streamCopy m p => mOk m && pOk p
  | .red m p => mOk m && pOk p
  | .gath m p => mOk m && pOk p
  | .scat m p => mOk m && pOk p
  | .pwalk m p => mOk m && pOk p
  | .mint m p => mOk m && pOk p
  | .slota m p => mOk m && pOk p
  | .slotr m p => mOk m && pOk p
  | .chqin m p => mOk m && pOk p
  | .chqout m p => mOk m && pOk p
  | .waitf m p => mOk m && pOk p
  | .setf m p => mOk m && pOk p
  | .clrf m p => mOk m && pOk p
  | .streamFence m p => mOk m && pOk p
  | .streamStamp m p => mOk m && pOk p
  | .seam m p => mOk m && pOk p
  | .digest m p => mOk m && pOk p
  | .pendingFaultTake m p => mOk m && pOk p
  | .slotRingEnable ring _ => slotRingOk ring
  | .slotRingDisable ring _ => slotRingOk ring
  | .slotAcquireRetry ring side => slotRingOk ring && sideOk side
  | .slotConsumerReleaseDone ring slot => slotRingOk ring && slotOk slot
  | .chequePoolEnable pool _ => poolOk pool
  | .recall pool _ => poolOk pool
  | .chequeQueueEnable q _ => queueOk q
  | .chequeQueueDisable q _ => queueOk q
  | .put q _ src => queueOk q && srcOk src
  | .chequeWaitRetry q _ => queueOk q
  | .relayReservation m p hop => mOk m && pOk p && hopOk hop
  | .relayGrant m p => mOk m && pOk p
  | .relayLinkRelease m p link hop => mOk m && pOk p && chainOk link && hopOk hop
  | .relayErrorReport m p link st => mOk m && pOk p && chainOk link && !(st == .ok || st == .okLate)
  | .releasePerform _ => true
  | .flagsWrite off data src => flagOffOk off && widthOk data.length && srcOk src
  | .flagOperationPerform flag ops => flagOk flag && opsOk ops
  | .spinPoll m p => mOk m && pOk p
  | .remoteFlagWrite flag _ src lane => flagOk flag && srcOk src && laneOk lane
  | .lendAssert n => nodeOk n
  | .nodeAllWait n _ => nodeOk n
  | .barrierArrivalCount c => chanOk c
  | .barrierReleaseSeen c => chanOk c
  | .quietPhaseEnd c => chanOk c
  | .barEnable c _ => chanOk c
  | .barDisable c _ => chanOk c
  | .barArrive _ => true
  | .barForce _ => true
  | .gatewayHeader _ => true
  | .stackEntryAccept st c => stackOk st && chOk c
  | .stackReadData st c tag _ => stackOk st && chOk c && entryTagOk tag
  | .stackLevel st c level => stackOk st && chOk c && levelOk level
  | .levelStale st c => stackOk st && chOk c
  | .retrainNotice st c e b => stackOk st && chOk c && ptOk e && ptOk b
  | .retrainGo st c => stackOk st && chOk c
  | .retrainDone st c => stackOk st && chOk c
  | .retrainTimeout st c => stackOk st && chOk c
  | .retrainFail st c => stackOk st && chOk c
  | .chLost st c => stackOk st && chOk c
  | .repairAdvised st c => stackOk st && chOk c
  | .rowRepaired st c off => stackOk st && chOk c && chanOffOk off
  | .spareRowFailed st c off => stackOk st && chOk c && chanOffOk off
  | .frameSetWithdrawn f => frameOk f
  | .gwRepairGo st _ src => stackOk st && srcOk src
  | .repairSwitch st => stackOk st
  | .farReadData _ half _ => sideOk half
  | .farWriteAck _ => true
  | .linkFlitReceive port f => linkOk port && f.ok
  | .linkControlFlit port _ credits => linkOk port && creditsOk credits
  | .wakePattern die => dieOk die
  | .linkRetrain port => linkOk port
  | .linkUp port => linkOk port
  | .linkFailed port => linkOk port
  | .scrubStep bank _ => bankOk bank
  | .scrubWriteBack bank => bankOk bank
  | .ceWindowEnd => true
  | .bankMapWrite b _ => bankOk b
  | .bankSpare _ src => srcOk src
  | .bankWithdraw _ src => srcOk src
  | .spareCopyEnd => true
  | .frameRescue _ src => srcOk src
  | .frameRescueNone _ src => srcOk src
  | .rescueCopyEnd => true
  | .frameSet _ src => srcOk src
  | .gwBootSpare st _ => stackOk st
  | .gwBootWd st _ => stackOk st
  | .clerkAlert _ src => srcOk src
  | .clerkWdKick _ src => srcOk src
  | .clerkWatchdog => true
  | .cmdWatchdog m p => mOk m && pOk p
  | .lockup site node out lane => lockSiteOk site node out && laneOk lane
  | .nodeVote n _ => nodeOk n
  | .pwrVoteHostWrite _ _ => true
  | .pwrVoteClerkWrite _ _ src => srcOk src
  | .activityTimerExpire d => domOk d
  | .domainEntryStart d => domOk d
  | .domainEntryDone d => domOk d
  | .domainWake d kind src => domOk d && wakeKindOk kind && srcOk src
  | .domainWakeDone d => domOk d
  | .timedWake => true
  | .pwrBankWrite b _ => bankOk b
  | .bankRetentionExit b => bankOk b
  | .powerEstimateUpdate est _ => estOk est
  | .voltageAck => true
  | .voltageTimeout => true
  | .clampRelease _ _ => true
  | .thermUpdate temps => tempsOk temps
  | .powerOn => true
  | .brownOut _ => true
  | .pin => true
  | .software _ => true
  | .debug => true
  | .clockFail => true
  | .resetRelease => true
  | .clerkStart => true
  | .clerkBootGo _ => true
  | .lifeCycleChange st => lcOk st
  | .tamper => true
  | .wipeDone => true
  | .stopArm _ => true
  | .globalStop => true
  | .stopAck _ => true
  | .resume _ => true
  | .debugAccess off _ => debugOk off
  | .tapInstrumentAccess dbg off _ => tapOk dbg off
  | .auditTake trigger src => triggerOk trigger && srcOk src
  | .auditDone => true
  | .auditRelease _ => true
  | .cntClr _ => true
  | .portRd q => q.ok
  | .portWr q beats => q.ok && beatsOk beats
  | .portRdAcq q => q.ok
  | .portWrRel q beats => q.ok && beatsOk beats
  | .portAtomic q beats => q.ok && beatsOk beats
  | .portFence q => q.ok
  | .portWriteBeat port beat => portOk port && beatOk beat
  | .flagSet q => q.ok
  | .flagClr q => q.ok
  | .waitSet q => q.ok
  | .waitClr q => q.ok
  | .waitSetThenClr q => q.ok
  | .slotAcq q => q.ok
  | .slotRel q => q.ok
  | .chqTake q => q.ok
  | .chqPut q => q.ok
  | .portBarrier q => q.ok
  | .escrowBegin _ => true
  | .escrowStageData k _ => sessOk k
  | .escrowCommit _ => true
  | .escrowAbort _ => true
  | .escrowCommitTime k => sessOk k
  | .escrowDrainDone k => sessOk k
  | .registerWrite off _ src => regOk off && srcOk src
  | .slotChequeControlWrite off _ src => slotOffOk off && srcOk src
  | .linkDown port => linkOk port
  | .tamperDeasserted => true
  | .entryOverdue _ => true
  | .escrowValidationEnd k => sessOk k
  | .vaultBackupLoss => true

end Sys2Proof
end

