-- ==== Sys2Proof/Tests/Slice0.lean ====
section
/-! SUPPORT. Smoke tests: ill-formed commands are refused; single steps on small states; for every statement a state and
operands that meet its hypotheses. -/

set_option Elab.async false

open Sys2Proof Sys2Proof.Machine

namespace Sys2Proof.Tests

/-! ## Small states -/

/-- A state with some registers set. -/
def withRegs (l : List (Nat × Nat)) (s : State) : State := l.foldl (fun t e => t.setRg e.1 e.2) s

/-- A state with commands in its queue. -/
def queued (l : List Instr) (s : State) : State := { s with pending := l }

/-- A state that a stop holds. -/
def stopped (s : State) : State := { s with obs := { s.obs with holds := true } }

/-- A state some tc later. -/
def later (n : Nat) (s : State) : State := { s with clk := { s.clk with tc := s.clk.tc + n } }

/-- The four die-link ports up. -/
def linksUp (s : State) : State :=
  (List.range 4).foldl (fun t p => t.setLink p { t.link p with state := .up }) s

/-- A request of the scalar port of node 0. -/
def portReq : PortReq :=
  { port := 3, tag := 0, ctx := 0, addr := 0, cnt := 0, stride := 0, dl := 0, scope := 0, vol := false, aop := 0,
    val := 0#32 }

/-- A descriptor of an opcode, its word 0 above the opcode, and its words 3 to 7. -/
def dsc (op hi src dst w5 w6 w7 : Nat) : Desc :=
  [BitVec.ofNat 64 (op + 2 ^ 8 * hi), 0#64, 0#64, BitVec.ofNat 64 src, BitVec.ofNat 64 dst, BitVec.ofNat 64 w5,
   BitVec.ofNat 64 w6, BitVec.ofNat 64 w7]

/-- A fetched command that waits for nothing. -/
def cmdFor (seq : Nat) (d : Desc) : Cmd := { desc := d, seq := seq, notBefore := true, wflag := some true, polled := 0 }

/-- A state whose privileged ring r of mover m runs with one fetched descriptor at its head. -/
def headed (r m : Nat) (d : Desc) (s : State) : State :=
  (withRegs [(Reg.cmdrCtl r, 1), (Reg.cmdrCfg r, m * 2 ^ 8), (Reg.cmdrAuth r, 2 ^ 31)] s).setRing r
    { state := .running, err := 0, fetched := [cmdFor 7 d], batches := [] }

/-- Whether a command begins with a program context and a state that pass a test. -/
def beginsB (s : State) (r op : Nat) (p : Desc → Bool) (P : Nat → PCtx → State → Bool) : Bool :=
  match cmdStart s (r % 1024) (fun d => opReserved (dOp d) || (dOp d == op && p d)) with
  | none => false
  | some (k, y, t) =>
    startCheck t (r % 1024) y.desc == .ok && !moverQuar (tableReads t (pctxSrc t k) (dTag y.desc) (cmdWords t y.desc)).2 (k / 8) &&
      (tableReads t (pctxSrc t k) (dTag y.desc) (cmdWords t y.desc)).1 &&
      (let v := (tableReads t (pctxSrc t k) (dTag y.desc) (cmdWords t y.desc)).2
       let x := { y with sflag := dSetFlag v y.desc }
       P k x (v.setPctx k x))

/-- A command begins where `beginsB` says so. -/
theorem begins_met {s : State} {r op : Nat} {p : Desc → Bool} {P : Nat → PCtx → State → Bool}
    (h : Live s dFAB ∧ beginsB s r op p P = true) :
    ∃ k x u, Live s dFAB ∧ Begins s r op p k x u ∧ P k x u = true := by
  obtain ⟨hl, h⟩ := h
  unfold beginsB at h
  split at h
  · exact absurd h (by simp)
  · next k y t e =>
    simp only [Bool.and_eq_true, beq_iff_eq, Bool.not_eq_true'] at h
    exact ⟨k, _, _, hl, ⟨y, t, _, e, h.1.1.1, Prod.ext h.1.2 rfl, h.1.1.2, rfl, rfl⟩, h.2⟩

/-- The state in which a command's effect takes place, where its accesses pass the issue point. -/
def issuesTo (eff : State → Nat → PCtx → State) (u : State) (k : Nat) (x : PCtx) : Option State :=
  match issueRun u (.pctx k true) (pctxRq u k x) x.issued (fun t => eff t k x) with
  | (v, _, true) => some (v.setPctx k { x with wait := none })
  | _ => none

/-- The accesses of a command pass the issue point where `issuesTo` gives a state. -/
theorem issues_met {eff : State → Nat → PCtx → State} {u w : State} {k : Nat} {x : PCtx}
    (h : issuesTo eff u k x = some w) : Issues eff u k x w := by
  unfold issuesTo at h
  split at h
  · next v n e => exact ⟨v, n, e, (Option.some.inj h).symm⟩
  · exact absurd h (by simp)

/-- A command that begins and whose accesses pass the issue point, where a test passes. -/
theorem begun_met {s : State} {r op : Nat} {p : Desc → Bool} {eff : State → Nat → PCtx → State}
    {P : Nat → PCtx → State → State → Bool}
    (h : Live s dFAB ∧ beginsB s r op p (fun k x u => (issuesTo eff u k x).any (P k x u)) = true) :
    ∃ k x u w, Live s dFAB ∧ Begins s r op p k x u ∧ Issues eff u k x w ∧ P k x u w = true := by
  obtain ⟨k, x, u, hl, hb, hp⟩ := begins_met h
  cases hw : issuesTo eff u k x with
  | none => rw [hw] at hp; exact absurd hp (by simp)
  | some w => rw [hw] at hp; exact ⟨k, x, u, w, hl, hb, issues_met hw, by simpa using hp⟩

/-- Whether the command of a program context, no stream, runs with no error. -/
def activeB (s : State) (k : Nat) : Bool :=
  (s.pctx k).any (fun y => !y.done && y.status.isNone && y.stream.isNone)

/-- Whether the command of a program context is done with a status (none: no error). -/
def doneB (s : State) (k : Nat) (st : Option Status) : Bool :=
  (s.pctx k).any (fun y => y.done && y.wait.isNone && y.status == st)

/-- The registers of a valid segment of a domain. -/
def segRegs (d g w0 base limit target : Nat) : List (Nat × Nat) :=
  let o := 0x60000 + (d * 16 + g) * 32
  [(o, w0 + 1), (o + 8, base % 2 ^ 32), (o + 12, base / 2 ^ 32), (o + 16, limit % 2 ^ 32), (o + 20, limit / 2 ^ 32),
   (o + 24, target % 2 ^ 32), (o + 28, target / 2 ^ 32)]

/-- A bound context. -/
def ctxOf (domain cls : Nat) : Ctx :=
  { bound := true, domain := domain, cls := cls, spin := false, asid := 0, flagBase := 0, flagCount := 64, homeNode := 0,
    kvList := 0, kvLen := 0, kvShift := 0, unbinding := false }

/-- What a state is after a command that goes on. -/
def next (c : Instr) (s : State) : State :=
  match exec c s with
  | .next t => t
  | _ => s

/-- A segment of one granule of the scalar port of node 0. -/
def segTo (id : Nat) (kind : AccessKind) (target : Nat) : Segment :=
  { id := id, src := 3, ctx := none, cls := 0, kind := kind, target := target, count := 1, dl := 0, sealedMark := false,
    data := if kind = .read then [] else [(1#1024, BitVec.allOnes 128)] }

/-- A state with a flag set. -/
def flagUp (f : Nat) (s : State) : State := 
  { s with sync := { s.sync with flags := tset flagReset s.sync.flags f { s.flag f with value := true } } }

/-- A seam set that is closed. -/
def seamClosed : SeamSet := { isOpen := false, ranges := [] }

/-- A front at instruction 100 of its program. -/
def frontAt : Front :=
  { pc := 100, prog := 100, a := [], n := [], strides := [], levels := [], guardSet := seamClosed,
    declareSet := seamClosed, unclaimed := 0 }

/-- A program with an empty back. -/
def streamAt : Stream :=
  { front := frontAt, fwait := none, fsince := 0, back := [], stage := [], gen := 0, check := none, crossed := false,
    halted := false, changed := [], tainted := false, kept := none, folds := [] }

/-- A descriptor word 0 above the opcode: context c. -/
def inCtx (c : Nat) : Nat := 2 ^ 7 + 2 ^ 8 * c

/-- Program context 7 of mover 31 runs a program of context 5, whose segment 0 covers bank 0; the instruction at 100. -/
def progState (i : Nat) (y : Stream) (s : State) : State :=
  let t := ((withRegs ([(Reg.domCtl 2, 1), (Reg.cmdrAuth 0, 2 ^ 31)] ++ segRegs 2 0 0x38 0 0x200000 0) s).setCtx 5
    { ctxOf 2 0 with kvLen := 4, kvShift := 4 }).setPctx 255
      { pctxStart 0 0 0 (cmdFor 0 (dsc 6 (inCtx 5) 0 0 0 0 0)) with stream := some y }
  { t with work := { t.work with pstore := tput t.work.pstore 100 (BitVec.ofNat 64 i) } }

/-- Whether the front of program context 7 of mover 31 fetches an opcode with operands that pass a test. -/
def fetchesB (s : State) (op : Nat) (P : PCtx → Stream → Nat → Bool) : Bool :=
  match s.program 255 with
  | none => false
  | some (x, y) =>
    let i := (s.instr y.front.pc).toNat
    moverPrograms s 31 == [(255, x)] && y.back.isEmpty && !frontStands y && y.check.isNone && !y.crossed && !backWaits x &&
      s.tableMark.isEmpty && y.changed.isEmpty && (fetchBad s x y.front).isNone && bits i 0 6 == op && P x y i

/-- An instruction is fetched where `fetchesB` says so. -/
theorem fetches_met {s : State} {op : Nat} {P : PCtx → Stream → Nat → Bool} (h : Live s dFAB ∧ fetchesB s op P = true) :
    ∃ x y i, Live s dFAB ∧ Fetches s 31 7 op x y i ∧ P x y i = true := by
  obtain ⟨hl, h⟩ := h
  unfold fetchesB at h
  split at h
  · exact absurd h (by simp)
  · next x y e =>
    simp only [Bool.and_eq_true, beq_iff_eq, Bool.not_eq_true', List.isEmpty_iff, Option.isNone_iff_eq_none, and_assoc] at h
    obtain ⟨h1, h2, h3, h4, h5, h6, h7, h8, h9, h10, h11⟩ := h
    exact ⟨x, y, _, hl, ⟨e, h1, h2, h3, h4, h5, h6, h7, h8, h9, rfl, h10⟩, h11⟩

/-! ## The witnesses of the statements: for each clause a state and operands that meet its hypotheses -/

theorem test_met_StepTakesFront : (queued [.tamper, .pin] State.reset).pending = .tamper :: [.pin] := by decide +kernel

/-- A state with nothing on its way, so many tc in. -/
def quiet (s : State) : Bool :=
  s.mesh.flights.isEmpty && s.mesh.hdrs.isEmpty && s.regu.waiting.isEmpty && s.work.pctxs.isEmpty && s.sync.wakes.isEmpty &&
    s.ports.all (fun p => p.2.queue.isEmpty)

theorem test_met_StepIdles :
    (let s := { State.reset with waits := [(1, none, .tamper)] }
     s.pending = [] ∧ s.waits.find? (edgeReady s) = some (1, none, .tamper)) ∧
    (State.reset.pending = [] ∧ State.reset.waits.find? (edgeReady State.reset) = none ∧ State.reset.obs.holds = false ∧
      State.reset.clk.acc < 20) ∧
    (stopped State.reset).obs.holds = true ∧
    (let s := { State.reset with clk := { State.reset.clk with acc := 20 } }
     s.waits.find? (edgeReady s) = none ∧ quiet s = true ∧
       isUp (s.setDom dFAB { domUp with state := .down }) dFAB = false ∧
       frozen { s with pwr := { s.pwr with asserted := true } } = true) := by decide +kernel

theorem test_met_StepKeepsMemoryCanonical :
    memCanonical State.reset = true ∧ Goes State.reset :=
  ⟨by decide, _, rfl⟩

theorem test_met_FrozenDie :
    (inReset (.portRd portReq) = false ∧ { State.reset with pwr := { State.reset.pwr with asserted := true } }.pwr.asserted = true) ∧
    (let s := stopped State.reset
     s.pwr.asserted = false ∧ s.obs.holds = true ∧ inStop (.copy 1023) = false ∧ inStop (.flagsWrite 0 (toBytes 8 0) 167) = false) := by
  decide +kernel

theorem test_met_StopKeepsStateExactly :
    (let s := queued [.copy 0, .windowBoundary, .voltageAck] (stopped State.reset)
     s.pwr.asserted = false ∧ s.obs.holds = true ∧ s.pending = [.copy 0, .windowBoundary] ++ [.voltageAck] ∧
       ∀ c ∈ [Instr.copy 0, .windowBoundary], inStop c = false) := by decide +kernel

theorem test_met_SequenceNumbers :
    (withRegs [(Reg.evlCtl, 1)] State.reset).rgBit Reg.evlCtl 0 = true ∧
    ((5 : Nat) ≠ State.reset.srcClerk ∨ State.reset.ras.clerkQ.length < 1024) ∧
    (let s := withRegs [(Reg.traceCtl, 0x7F01)] State.reset
     s.rgBit Reg.traceCtl 0 = true ∧ s.rgBit Reg.traceCtl (8 + 6) = true ∧ s.rgBit Reg.traceCtl 31 = false ∧
       s.obs.traceLost = 0) := by decide +kernel

theorem test_met_PtMarks :
    (ptRuns State.reset = true ∧ 2 ^ 64 - 1 < 2 ^ 64 ∧ State.reset.rgBit Reg.ptStatus 0 = false) ∧
    (let s := later 7 (withRegs [(Reg.evlCtl, 1)] State.reset)
     s.rgBit Reg.evlCtl 0 = true ∧ s.evl.waiting = [] ∧ s.evl.stampTc ≠ s.clk.tc ∧ s.pt.off = 0) ∧
    (let s := withRegs [(Reg.ptStatus, 1)] State.reset
     ptRuns s = true ∧ s.rgBit Reg.ptStatus 0 = true ∧ s.pt.raw + 1024 < 16 * 30065 ∧ 16 * 30064 ≤ s.pt.raw + 1024) ∧
    (let s := { withRegs [(Reg.ptStatus, 1)] State.reset with pt := { State.reset.pt with raw := 16 * 99999 } }
     ptRuns s = true ∧ s.rgBit Reg.ptStatus 0 = true ∧ 16 * 34463 ≤ s.pt.raw + 1024 ∧ s.pt.raw ≤ 16 * 34463 + 1048576 ∧
       16 * 34462 + 1048576 < s.pt.raw ∧ 16 * 34463 ≠ s.pt.raw) ∧
    (ptRuns { State.reset with pt := { State.reset.pt with missing := 1 } } = true ∧ (1 : Nat) = 1) ∧
    State.reset.pt.missing ≠ 1 := by decide +kernel

/-- A raw time of 64 probes alike. -/
def probes : List Int := List.replicate 64 16344

theorem test_met_PtOffsetsAndProbes :
    (ptRuns State.reset = true ∧ State.reset.pt.slew = 0 ∧ State.reset.pt.off = offTarget State.reset) ∧
    (frozen State.reset = false ∧ State.reset.pt.off ≠ offTarget (withRegs [(Reg.ptDieOffset, 0xFFFFFF)] State.reset)) ∧
    (let s := later 1 (withRegs [(Reg.evlCtl, 1)] State.reset)
     frozen s = false ∧ s.rgBit Reg.evlCtl 0 = true ∧ s.evl.waiting = [] ∧ s.evl.stampTc ≠ s.clk.tc) ∧
    (frozen (linksUp State.reset) = false ∧ bit 0x80000001 31 = true ∧ (linksUp State.reset).pt.probe = none ∧
      linkUp (linksUp State.reset) (bits 0x80000001 0 2) = true) ∧
    (linkUp State.reset (bits 0x80000003 0 2) = false) ∧
    ({ State.reset with pt := { State.reset.pt with probe := some 1 } }.pt.probe = some 1) ∧ probes.length = 64 := by
  decide +kernel

/-- A ledger in WRAP mode at the start of stack space, one record waiting. -/
def ledgerOne : State :=
  ledgerRec (withRegs [(Reg.evlSize, 10), (Reg.evlBaseLo, 0), (Reg.evlBaseHi, 0x40000), (Reg.evlCtl, 1)] State.reset) 20 1 none
    0 0

theorem test_met_EventLedger :
    (let s := withRegs [(Reg.evlSize, 10), (Reg.evlBaseLo, 32)] State.reset
     frozen s = false ∧ bit 1 0 = true ∧ s.rgBit Reg.evlCtl 0 = false ∧ evlSetupOk s = true) ∧
    (let s := withRegs [(Reg.evlSize, 10), (Reg.evlBaseLo, 16)] State.reset
     frozen s = false ∧ s.rgBit Reg.evlCtl 0 = false ∧ evlSetupOk s = false) ∧
    (bit 0 0 = false) ∧
    (let s := ledgerOne
     let a := s.rg64 Reg.evlBaseLo Reg.evlBaseHi + s.rg Reg.evlTail % 2 ^ s.rg Reg.evlSize * 32
     frozen s = false ∧ s.rgBit Reg.evlCtl 0 = true ∧ s.rgBit Reg.evlCtl 1 = false ∧ s.evl.waiting.length = 1 ∧
       s.evl.waiting.all (fun r => r.src == 20) = true ∧ tget 0 s.evl.lost 20 = 0 ∧
       a < 2 ^ 55 ∧ ppaDie a = s.pwr.dieId ∧ ppaSpace a = 8 ∧ framePresent s (ppaOff a / 2 ^ 21) = true ∧
       (s.frame (ppaOff a / 2 ^ 21)).state = .free ∧ tfind s.slc.lines (a / 128) = none) := by decide +kernel

theorem test_met_ProtectionSeal :
    (let s := withRegs ((Reg.domCtl 63, 1) :: segRegs 63 15 0 0 65536 0) State.reset
     Live s dFAB ∧ bit 1 0 = true ∧ isSealedDie s = false ∧ sealFailures s = []) ∧
    (let s := withRegs ((Reg.domCtl 63, 1) :: segRegs 63 15 0 65536 65536 0) State.reset
     Live s dFAB ∧ isSealedDie s = false ∧ sealFailures s = [(63, 15)]) ∧
    isSealedDie (withRegs [(Reg.protSeal, 1)] State.reset) = true := by decide +kernel

/-- A state with context 40959 bound to a domain whose segment 3 covers 4 KiB of bank 1, readable only. -/
def xlState : State :=
  (withRegs ((Reg.domCtl 2, 1) :: segRegs 2 3 8 0x10000 0x11000 0x200000) State.reset).setCtx 40959 (ctxOf 2 5)

/-- A ledger operation of one frame. -/
def mapOne7 : MapOp :=
  { unmap := false, modeOnly := false, first := 7, count := 1, mode := 0, w := true, a := false, asid := 9, vpn := 0x123,
    owner := 0 }

/-- A state whose frame 7 is mapped under a key. -/
def mapped7 : State := (mapPerform State.reset mapOne7).2

theorem test_met_Translation :
    xlState.tableMark = [] ∧ (40960 ≤ 40960 ∧ (xlState.ctx 40958).bound = false) ∧
    ((xlState.ctx 40959).bound = true ∧ findSeg xlState 2 0xFFFF = none ∧ findSeg xlState 2 0x11000 = none ∧
      findSeg xlState 2 0x10FFF = some 3) ∧
    (segPermits xlState 2 3 .write = false ∧ segPermits xlState 2 3 .read = true ∧ segKind xlState 2 3 = 0) ∧
    checkPPA xlState (diePPA 0 0 0x200FFF) 1 .read false = .ok ∧
    checkPPA (withRegs [(Reg.bankMap 1, 2 ^ 9)] xlState) (diePPA 0 0 0x200FFF) 1 .read false = .faultProt ∧
    (Live mapped7 dFAB ∧ mapped7.tableMark = [] ∧ tallyLook mapped7 31 9 0x123 = none ∧ keyFrame mapped7 9 0x123 = some 7 ∧
      tallyLook mapped7 31 9 0x124 = none ∧ keyFrame mapped7 9 0x124 = none) ∧
    (tallyLook (next (.tallyWalkDone 31 9 0x123) mapped7) 31 9 0x123).isSome = true := by decide +kernel

/-- The head of ring 1023 is a CTX_BIND of context 40959 on a sealed die. -/
def bindState (dom : Nat) : State :=
  headed 1023 31 (dsc 0x0C (inCtx 40959) (diePPA 0 0 0) 0 0 0 0) (withRegs [(Reg.protSeal, 1), (Reg.domCtl dom, 1)] State.reset)

/-- What the read of a CTX_BIND's image gives. -/
def imageOf (w : State) (k : Nat) (x : PCtx) : State × Option XErr × List Byte :=
  readSpan w { m := k / 8, rq := pctxRq w k { x with wait := none }, ctx := none } false (dSrc x.desc) 32

theorem test_met_ContextBinding_good : ∃ k x u w, Live (bindState 0) dFAB ∧ Begins (bindState 0) 1023 0x0C anyDesc k x u ∧
    Issues bindEff u k x w ∧
    (match imageOf w k x with
     | (v, none, l) => dCtxV x.desc && bindOk v (dCtx x.desc) (ctxOfImage l) && v.tableMark.isEmpty && activeB v k &&
         ctxLive (next (.ctxBind 1023) (bindState 0)) 40959 && doneB (next (.ctxBind 1023) (bindState 0)) k none
     | _ => false) = true := begun_met (by decide +kernel)

theorem test_met_ContextBinding_bad : ∃ k x u w, Live (bindState 1) dFAB ∧ Begins (bindState 1) 1023 0x0C anyDesc k x u ∧
    Issues bindEff u k x w ∧
    (match imageOf w k x with
     | (v, none, l) => dCtxV x.desc && !bindOk v (dCtx x.desc) (ctxOfImage l) && activeB v k &&
         doneB (next (.ctxBind 1023) (bindState 1)) k (some .faultProt)
     | _ => false) = true := begun_met (by decide +kernel)

/-- The head of ring 0 is a CTX_UNBIND. -/
def unbindState (c : Ctx) : State := headed 0 0 (dsc 0x0D (inCtx 5) 0 0 0 0 0) (State.reset.setCtx 5 c)

theorem test_met_ContextBinding_unbind : ∃ k x u, Live (unbindState (ctxOf 0 0)) dFAB ∧
    Begins (unbindState (ctxOf 0 0)) 0 0x0D anyDesc k x u ∧
    (dCtxV x.desc && (u.ctx (dCtx x.desc)).bound && !(u.ctx (dCtx x.desc)).unbinding) = true := begins_met (by decide +kernel)

theorem test_met_ContextBinding_again : ∃ k x u, Live (unbindState { ctxOf 0 0 with unbinding := true }) dFAB ∧
    Begins (unbindState { ctxOf 0 0 with unbinding := true }) 0 0x0D anyDesc k x u ∧
    (dCtxV x.desc && (u.ctx (dCtx x.desc)).unbinding && x.status.isNone &&
      doneB (next (.ctxUnbind 0) (unbindState { ctxOf 0 0 with unbinding := true })) k (some .faultProt)) = true :=
  begins_met (by decide +kernel)

theorem test_met_ContextBinding_finish :
    (let s := next (.ctxUnbind 0) (unbindState (ctxOf 0 0))
     Live s dFAB ∧ s.tableMark = [] ∧ ctxBusy s 5 = false ∧
       (s.work.pctxs.find? (fun e => e.2.unbindOf == some 5 && !e.2.done)).any
         (fun e => s.pctx e.1 == some e.2 && activeB s e.1) = true) ∧
    (let s := next (.segmentIssue { segTo 1 .read 0 with src := 4, ctx := some 5 }) (State.reset.setCtx 5 (ctxOf 0 0))
     Live s dFAB ∧ ctxBusy s 5 = true) := by decide +kernel

/-- The head of ring 0 is a FRAME_MAP or a FRAME_UNMAP of frames from 7, the key (9, 0x123). -/
def mapState (op aux0 : Nat) (s : State) : State := headed 0 0 (dsc op 0 0 0 (2 ^ 32 * (aux0 + 7)) (2 ^ 32 * 9) 0x123) s

theorem test_met_FrameMapping_map : ∃ k x u, Live (mapState 0x0E (2 ^ 17 * 63) State.reset) dFAB ∧
    Begins (mapState 0x0E (2 ^ 17 * 63) State.reset) 0 0x0E (fun d => !bit (dAux0 d) 27) k x u ∧
    (u.tableMark.isEmpty && u.xl.waitMaps.isEmpty && !opWaits u (dMapOp x.desc k) [] && mapOk u (dMapOp x.desc k) &&
      x.status.isNone && doneB (next (.frameMap 0) (mapState 0x0E (2 ^ 17 * 63) State.reset)) k none) = true :=
  begins_met (by decide +kernel)

theorem test_met_FrameMapping_refused : ∃ k x u, Live (mapState 0x0E 0 mapped7) dFAB ∧
    Begins (mapState 0x0E 0 mapped7) 0 0x0E (fun d => !bit (dAux0 d) 27) k x u ∧
    (u.tableMark.isEmpty && u.xl.waitMaps.isEmpty && !opWaits u (dMapOp x.desc k) [] && !mapOk u (dMapOp x.desc k) &&
      x.status == none && doneB (next (.frameMap 0) (mapState 0x0E 0 mapped7)) k (some .faultProt)) = true :=
  begins_met (by decide +kernel)

theorem test_met_FrameMapping_mode : ∃ k x u, Live (mapState 0x0E (2 ^ 27 + 2 ^ 23) State.reset) dFAB ∧
    Begins (mapState 0x0E (2 ^ 27 + 2 ^ 23) State.reset) 0 0x0E (fun d => bit (dAux0 d) 27) k x u ∧
    (u.tableMark.isEmpty && u.xl.waitMaps.isEmpty && mapOk u (dMapOp x.desc k) && x.status.isNone &&
      doneB (next (.frameMapModeOnly 0) (mapState 0x0E (2 ^ 27 + 2 ^ 23) State.reset)) k none) = true :=
  begins_met (by decide +kernel)

/-- A state whose frame 7 is unmapped, its shootdown not done. -/
def unmapped7 : State := next (.frameUnmap 0) (mapState 0x0F 0 mapped7)

/-- The head of ring 1 is a FRAME_MAP of frame 7. -/
def mapBehind : State := headed 1 1 (dsc 0x0E 0 0 0 (2 ^ 32 * 7) (2 ^ 32 * 9) 0x123) unmapped7

theorem test_met_FrameMapping_behind : ∃ k x u, Live mapBehind dFAB ∧
    Begins mapBehind 1 0x0E (fun d => !bit (dAux0 d) 27) k x u ∧
    (u.xl.waitMaps.isEmpty && opWaits u (dMapOp x.desc k) []) = true := begins_met (by decide +kernel)

theorem test_met_FrameMapping_waits :
    (let s := (unmapped7.setPctx 0 (pctxStart 0 0 0 (cmdFor 0 (dsc 0x0E 0 0 0 0 0 0))))
     let t := { s with xl := { State.reset.xl with waitMaps := [(3, mapOne7)] } }
     Live t dFAB ∧ t.tableMark = [] ∧ tfind t.xl.waitMaps 3 = some mapOne7 ∧ mapOne7.unmap = false ∧
       opWaits t mapOne7 ((t.xl.waitMaps.filter (fun e => decide (e.1 < 3))).map (·.2)) = false ∧
       mapOk t mapOne7 = true ∧ mapOne7.modeOnly = false ∧ mapOne7.count = 1 ∧ activeB t mapOne7.owner = true ∧
       doneB (next (.frameMapDeferred 3) t) 0 none = true) := by decide +kernel

theorem test_met_FrameMapping_switch :
    (let s := { State.reset with xl := { State.reset.xl with modeSwitch := [(0, 2)] } }
     Live s dFAB ∧ tfind s.xl.modeSwitch 0 = some 2 ∧ groupBusy s 0 = false ∧ 2 < 4) ∧
    (let s := next (.segmentIssue (segTo 1 .read (diePPA 0 8 0)))
       { State.reset with xl := { State.reset.xl with modeSwitch := [(0, 2)] } }
     Live s dFAB ∧ tfind s.xl.modeSwitch 0 = some 2 ∧ groupBusy s 0 = true) := by decide +kernel

theorem test_met_FrameUnmapping_ok : ∃ k x u, Live (mapState 0x0F 0 mapped7) dFAB ∧
    Begins (mapState 0x0F 0 mapped7) 0 0x0F anyDesc k x u ∧
    (u.tableMark.isEmpty && u.xl.waitMaps.isEmpty && unmapOk u (dMapOp x.desc k)) = true := begins_met (by decide +kernel)

theorem test_met_FrameUnmapping_refused : ∃ k x u, Live (mapState 0x0F 0 State.reset) dFAB ∧
    Begins (mapState 0x0F 0 State.reset) 0 0x0F anyDesc k x u ∧
    (u.tableMark.isEmpty && u.xl.waitMaps.isEmpty && !unmapOk u (dMapOp x.desc k) && x.status == none &&
      doneB (next (.frameUnmap 0) (mapState 0x0F 0 State.reset)) k (some .faultProt)) = true :=
  begins_met (by decide +kernel)

/-- A shootdown of frame 7 that waits for some nodes. -/
def shot (nodes : List Nat) : State :=
  { unmapped7 with xl := { unmapped7.xl with shoots := unmapped7.xl.shoots.map (fun h => { h with nodes := nodes }) } }

theorem test_met_FrameUnmapping_acks :
    (Live (shot [31]) dFAB ∧ (shot [31]).xl.shoots.length = 1 ∧ frameBusy (shot [31]) 31 7 = false ∧
      ((shot [31]).xl.shoots.all (fun h => h.nodes == [31] && h.retire == false && h.frame == 7 &&
        h.owner.all (activeB (shot [31])))) = true ∧
      ((shot [31]).frame 7).state = .unmapping ∧ ((shot [31]).frame 7).failing = false) ∧
    (Live (shot [0, 31]) dFAB ∧ (shot [0, 31]).xl.shoots.length = 1 ∧ frameBusy (shot [0, 31]) 0 7 = false ∧ 31 ≠ 0) ∧
    (let s := { shot [0] with mesh := (next (.segmentIssue { segTo 1 .read (diePPA 0 8 (7 * 2 ^ 21)) with src := 0 }) State.reset).mesh }
     Live s dFAB ∧ s.xl.shoots.length = 1 ∧ frameBusy s 0 7 = true) := by
  decide +kernel

/-- A segment in flight in a state, on a path. -/
def flightOf (g : Segment) (st : FlightState) (path : Nat) : Flight :=
  { seg := g, state := st, chan := 0, sent := 0, pos := [], arrived := 0, back := 0, sunk := none, rails := [], headAt := 0,
    overdue := false, holdStart := none, firstTry := 0, issued := 0, tags := 0, path := path, retryAt := 0, answered := false,
    status := .ok, halves := 0, ans := [] }

/-- A state with one segment more in flight. -/
def flying (x : Flight) (s : State) : State := s.setFlight x.seg.id x

/-- State.reset with one segment in flight. -/
def flown (x : Flight) : State := flying x State.reset

/-- A state with a header of flight 1 that has come to its unit. -/
def hdrCome (kind : HdrKind) (node : Nat) (s : State) : State :=
  { s with mesh := { s.mesh with hdrs := s.mesh.hdrs ++ [{ kind := kind, id := 1, dest := node, node := node, inp := 4,
                                                           since := 0, order := 0, overdue := false }] } }

/-- A waiting entry of a segment. -/
def entryOf (id : Nat) (st : EntryState) (p : Nat) : TEntry :=
  { id := id, state := st, progress := p, firstTry := 0, order := 0, overdue := false, granted := false }

/-- An owner's read. -/
def ownerRead : OwnerReq :=
  { src := 0, ctx := none, kind := .read, row := 16383, data := 0#1024, be := 0#128, dl := 0, arrival := 0 }

/-- A read of sixteen granules of bank 255, at node 31. -/
def read255 : Segment := { segTo 1 .read (diePPA 0 0 (255 * 2 ^ 21)) with count := 16 }

/-- A read of two granules of bank 8, at node 1, a mesh link east of its source. -/
def read8 : Segment := { segTo 1 .read (diePPA 0 0 (8 * 2 ^ 21)) with count := 2 }

/-- A write of two granules to bank 8. -/
def write8 : Segment :=
  { segTo 1 .write (diePPA 0 0 (8 * 2 ^ 21)) with
      count := 2, data := [(1#1024, BitVec.allOnes 128), (2#1024, BitVec.allOnes 128)] }

/-- The alias write half of an owner. -/
def halfOf : AliasHalf := { addr := 0, value := 1#1024, ue := false, done := false, src := 0, ctx := none, entry := none }

theorem test_met_TellerDecides_owner :
    (TellerTurn State.reset 255 ∧ bankSlc State.reset 255 = false ∧ (State.reset.teller 255).half = none ∧
      holderNow State.reset 255 = .owner ∧ ownerRead.kind = .read ∧ ownerSt State.reset 255 ownerRead = .ok ∧
      State.reset.taking = none ∧ (bankRead State.reset 255 (ownerRead.row % 16384 * 128) 128).ue = 0 ∧
      (bankRead State.reset 255 (ownerRead.row % 16384 * 128) 128).ce = 0) ∧
    (let s := State.reset.setTeller 0 { tellerIdle with half := some halfOf }
     TellerTurn s 0 ∧ (s.teller 0).half = some halfOf ∧ halfOf.ue = false ∧ halfOf.done = false ∧ halfOf.entry = none ∧
       s.bankMark = [] ∧ s.ras.copy = none) ∧
    (let s := later 9 (State.reset.setTeller 0 { tellerIdle with holder := .entry 1, busy := some 8 })
     TellerTurn s 0 ∧ (s.teller 0).half = none ∧ (s.teller 0).entries = [] ∧
       (∀ k ∈ (s.teller 0).busy, k < s.clk.tc)) ∧
    (let s := State.reset.setTeller 255 { tellerIdle with acted := some 0 }
     Live s (dHome (255 / 8)) ∧ (s.teller 255).acted = some s.clk.tc) := by decide +kernel

/-- Bank 255 with one active entry, turned to a holder in the tc before. -/
def activeAt (x : Flight) (p : Nat) (h : Holder) : State :=
  (later 5 (flown x)).setTeller 255 { tellerIdle with holder := h, busy := some 4, entries := [entryOf 1 .active p] }

theorem test_met_TellerDecides_entry :
    (let s := activeAt { flightOf read255 .sending 0 with sent := 14, pos := [13] } 14 (.entry 1)
     TellerTurn s 255 ∧ bankSlc s 255 = false ∧ (s.teller 255).half = none ∧ holderNow s 255 = .entry 1 ∧
       (s.teller 255).entries = [entryOf 1 .active 14] ∧
       s.flight 1 = some { flightOf read255 .sending 0 with sent := 14, pos := [13] } ∧ read255.kind = .read ∧
       (14 : Nat) < nth 0 [13] 0 + 2 ∧ 14 + 1 < read255.count) ∧
    (let s := activeAt (flightOf read255 .accepted 0) 0 .owner
     TellerTurn s 255 ∧ holderNow s 255 ≠ .entry 1 ∧ (s.teller 255).entries = [entryOf 1 .active 0] ∧
       (0 : Nat) < nth 0 [] 0 + 2) := by decide +kernel

/-- Bank 255's teller with n waiting entries, a header of flight 1 before it. -/
def before255 (n : Nat) (x : Flight) : State :=
  hdrCome .request 31 ((flown x).setTeller 255 { tellerIdle with entries := (List.range n).map (fun i => entryOf (2 + i) .waiting 0) })

theorem test_met_TellerQueue_headers :
    (let x := flightOf read255 .header 0
     let s := before255 15 x
     Live s (dHome (255 / 8)) ∧ bankSt s 255 true = .ok ∧
       (firstRanked (fun p => hdrRank s p.1) (headersAt s 255)).map (fun p => (p.1.id, p.2)) = some (1, x) ∧
       entriesTaken s 255 < 16 ∧ (s.teller 255).headTc ≠ some s.clk.tc ∧ x.seg.id = 1) ∧
    (let s := (before255 0 (flightOf read255 .header 0)).setTeller 255 { tellerIdle with headTc := some 0 }
     Live s (dHome (255 / 8)) ∧ bankSt s 255 true = .ok ∧ entriesTaken s 255 < 16 ∧ (s.teller 255).headTc = some s.clk.tc) ∧
    (let x := flightOf read255 .header 0
     let s := before255 16 x
     bankSt s 255 true = .ok ∧ (headersAt s 255).map (fun p => (p.1.id, p.2)) = [(1, x)] ∧ 16 ≤ entriesTaken s 255) := by
  decide +kernel

theorem test_met_TellerQueue_sources :
    (let x := flightOf { read255 with dl := (30000 + 100000) % 2 ^ 24 } .refused 0
     let s := hdrCome .refusal 0 (flown x)
     Live s dFAB ∧ s.flight 1 = some x ∧ (hdrHere s .refusal 1).isSome = true ∧ urgent s x = false) ∧
    (let x := flightOf { read255 with dl := 30000 } .refused 0
     let s := hdrCome .refusal 0 (flown x)
     s.flight 1 = some x ∧ x.seg.id = 1 ∧ (hdrHere s .refusal 1).isSome = true ∧ urgent s x = true) ∧
    (let x := flightOf read255 .backoff 0
     (flown x).flight 1 = some x ∧ x.state = .backoff ∧ x.retryAt ≤ (flown x).clk.tc) ∧
    (let x := { flightOf read255 .backoff 0 with retryAt := 1 }
     (flown x).flight 1 = some x ∧ (flown x).clk.tc < x.retryAt) ∧
    (let x := flightOf read8 .header 0
     Live (flown x) (dHome (8 / 8)) ∧ (flown x).flight 1 = some x ∧ x.path = 0 ∧ bankOf x.seg = 8 ∧ ownerSeg (flown x) x.seg = false ∧
       ((flown x).teller 8).busy ≠ some (flown x).clk.tc) ∧
    (let x := flightOf read8 .header 0
     let s := (flown x).setTeller 8 { tellerIdle with busy := some 0 }
     s.flight 1 = some x ∧ (s.teller 8).busy = some s.clk.tc) ∧
    (let x := flightOf write8 .called 0
     let s := hdrCome .call 0 (flown x)
     s.flight 1 = some x ∧ (hdrHere s .call 1).isSome = true ∧ x.answered = false ∧ x.path < 2) := by decide +kernel

/-- Whether a segment meets what SEGMENT_ISSUE asks of one that its issue point decides. -/
def issuable (s : State) (g : Segment) : Bool :=
  let u := touch s dFAB
  (u.flight g.id).isNone && segShape g && (!ownerSeg u g || g.count == 1) && !quarantined u (entryUnit u g) &&
    checkPPA u (segCheckAt u g) 128 (if segReads g then .read else .write) (issued u g).sealedMark == .ok &&
    !nodeClash u (issued u g)

/-- A read of two granules of a stack. -/
def readStack : Segment := { segTo 1 .read (diePPA 0 8 0) with count := 2 }

/-- A state in which a stack segment of the scalar port of node 0 waits at its issue point. -/
def behind (s : State) : State :=
  { s with regu := { s.regu with waiting := [{ who := .seg { readStack with id := 9 }, unit := 3, cls := 0, held := true,
                                               capped := false, tagged := false }] } }

theorem test_met_SegmentLife_issue :
    (Live State.reset dFAB ∧ issuable State.reset read255 = true ∧ segPath State.reset read255 = none ∧
      (issueGate (touch State.reset dFAB) (.seg (issued State.reset read255)) (segIssue State.reset (issued State.reset read255))).2 = true) ∧
    (issuable State.reset readStack = true ∧ segBank State.reset readStack = false ∧ segPath State.reset readStack = some 0 ∧
      checkPPA State.reset (segGranule readStack 0) 128 .read (issued State.reset readStack).sealedMark = .ok ∧
      (issueGate (touch State.reset dFAB) (.seg (issued State.reset readStack)) (segIssue State.reset (issued State.reset readStack))).2 = true) ∧
    (let s := behind State.reset
     let u := touch s dFAB
     Live s dFAB ∧ issuable s read255 = true ∧
       (issueGate u (.seg (issued u read255)) (segIssue u (issued u read255))).2 = false) ∧
    (let s := withRegs [(Reg.meshQuar 0, 8)] State.reset
     s.flight 1 = none ∧ segShape read255 = true ∧ OwnSource s read255.src ∧ ownerSeg s read255 = false ∧
       quarantined s (entryUnit s read255) = true) ∧
    (let s := withRegs [(Reg.bankMap 255, 2 ^ 9 + 255)] State.reset
     let u := touch s dFAB
     OwnSource s read255.src ∧ quarantined s (entryUnit s read255) = false ∧
       checkPPA u (segCheckAt u read255) 128 .read (issued u read255).sealedMark = .faultProt) := by decide +kernel

/-- The rails of a way through all its stages. -/
def railsAll (s : State) (x : Flight) : Flight := { x with rails := (stages s x).map (fun p => railKey p.1 p.2 0) }

theorem test_met_SegmentLife_data :
    (let x := railsAll State.reset { flightOf write8 .sending 0 with sent := 2, pos := [2, 2, 2] }
     let s := (flown x).setTeller 8 { tellerIdle with entries := [entryOf 1 .active 0] }
     s.flight 1 = some x ∧ x.seg.id = 1 ∧ x.path ≤ 1 ∧ Live s (sinkDom s 1) ∧ segReads x.seg = false ∧ x.state = .sending ∧
       x.arrived < x.seg.count ∧ sinkReady s x = true ∧ sinkRoom s x = true ∧ x.path = 0) ∧
    (let x := railsAll State.reset { flightOf read8 .sending 0 with sent := 2, pos := [2, 1] }
     let s := flown x
     Live s dFAB ∧ s.flight 1 = some x ∧ x.seg.id = 1 ∧ OwnSource s x.seg.src ∧ dataReady s x = true ∧
       x.back + 1 < x.seg.count ∧ x.ans = [] ∧ x.answered = false) ∧
    (let x := railsAll State.reset { flightOf read8 .sending 0 with sent := 2, pos := [2, 2], back := 1 }
     dataReady (flown x) x = true ∧ x.back + 1 = x.seg.count ∧ x.ans = []) ∧
    (let x := { flightOf { readStack with src := 3 } .returning 1 with sent := 2, tags := 1, back := 1 }
     let y := railsAll State.reset { x with pos := (stages State.reset x).map (fun _ => 2) }
     dataReady (flown y) y = true ∧ y.back + 1 = y.seg.count ∧ y.path ≠ 0) ∧
    (let x := flightOf write8 .acked 0
     let s := hdrCome .ack 0 (flown x)
     Live s dFAB ∧ s.flight 1 = some x ∧ OwnSource s x.seg.src ∧ (hdrHere s .ack 1).isSome = true ∧ x.ans = []) := by
  decide +kernel

/-- A bank read whose first granule waits at its teller's rail. -/
def railWaits : Flight := { flightOf read8 .sending 0 with sent := 1, pos := [0, 0] }

/-- A bank read whose first granule waits at LOCAL, its way's other rails taken. -/
def railLast : Flight := { railWaits with pos := [1, 1], rails := [railKey 1 5 0, railKey 1 3 0] }

theorem test_met_MeshFairness_rails :
    (let s := flown railWaits
     Live s dFAB ∧ firstRanked (flightRank s) (headsAt s 1 5) = some railWaits ∧ freeRail s 1 5 railWaits = some 0) ∧
    (let s := flown railLast
     firstRanked (flightRank s) (headsAt s 0 4) = some railLast ∧ freeRail s 0 4 railLast = some 15 ∧
       ((next (.meshRailGrant 0 0 4) s).flight 1).map (fun y => y.rails.length) = some 3) ∧
    headsAt State.reset 31 3 = [] := by decide +kernel

/-- A read in its bank whose hold began at tc 0. -/
def heldRead : Flight := { railWaits with holdStart := some 0 }

/-- A called write whose source has offered nothing. -/
def heldWrite : Flight := { flightOf write8 .sending 0 with holdStart := some 0 }

theorem test_met_MeshFairness_cuts :
    (let s := later 1000 (flown heldRead)
     Live s dFAB ∧ s.flight 1 = some heldRead ∧ cutDue s heldRead = true ∧ cutCause s heldRead ≠ 0 ∧
       quarantined (next (.cutOff 1) s) 3 = false) ∧
    (let s := later 1000 ((flown heldWrite).setTeller 8 { tellerIdle with entries := [entryOf 1 .called 0] })
     let at14 := { s with mesh := { s.mesh with quarCount := [(3, (14, 29999))] } }
     let at15 := { s with mesh := { s.mesh with quarCount := [(3, (15, 29999))] } }
     s.flight 1 = some heldWrite ∧ cutDue s heldWrite = true ∧ cutCause s heldWrite = 0 ∧
       supplierUnit s heldWrite.seg = 3 ∧ canQuarantine 3 = true ∧
       tget (0, 0) at14.mesh.quarCount 3 = (14, 29999) ∧ tget (0, 0) at15.mesh.quarCount 3 = (15, 29999) ∧
       at15.now < 29999 + 1000000 ∧ quarantined (next (.cutOff 1) at14) 3 = false ∧
       quarantined (next (.cutOff 1) at15) 3 = true) := by decide +kernel

theorem test_met_MeshFairness :
    (let s := { State.reset with
        mesh := { State.reset.mesh with quarCount := [(159, (15, 0))] },
        pt := { State.reset.pt with raw := 16 * 1000000 } }
     Live s dFAB ∧ tget (0, 0) s.mesh.quarCount 159 = (15, 0) ∧ 0 + 1000000 ≤ s.now) ∧
    (159 < 160 ∧ quarantined (withRegs [(Reg.meshQuar 4, 2 ^ 31)] State.reset) 159 = true) ∧
    (let s := withRegs [(Reg.meshQuar 5, 2 ^ 5)] (linksUp State.reset)
     3 < 4 ∧ Live s dFAB ∧ quarantined s (162 + 3) = true ∧ (s.link 3).state ≠ .inactive) ∧
    (let x := { flightOf read255 .refused 0 with firstTry := 0 }
     let s := { withRegs [(Reg.tellerStarveNs, 1000)] (flown x) with pt := { State.reset.pt with raw := 16 * 1001 } }
     Live s (dHome (255 / 8)) ∧ starved s 255 1 = true ∧ s.rgBit (Reg.tellerStarveFlag (255 / 32)) (255 % 32) = false ∧
       s.flight 1 = some x) ∧
    (let x := flightOf { read255 with dl := 29999 } .accepted 0
     x.path = 0 ∧ remaining (flown x).now x.seg.dl < 0) := by decide +kernel

theorem test_met_Regulation :
    (frozen State.reset = false ∧ State.reset.regu.window < State.reset.now / 2 ^ windowExp State.reset) ∧
    (let s := { State.reset with regu := { State.reset.regu with window := 29 } }
     s.now / 2 ^ windowExp s ≤ s.regu.window) ∧
    (Live State.reset dFAB ∧ bit 1 0 = true ∧ bit 1 1 = false) ∧
    (let s := withRegs [(Reg.reguCtl, 1)] { State.reset with regu := { State.reset.regu with
        charging := true, balance := [(purseKey 159 15, 3)], odCap := [(purseKey 159 15, 2)], holds := [5] } }
     s.regu.charging = true ∧ s.rgBit Reg.reguCtl 0 = true ∧ 159 < 160 ∧ 3 ≤ tget 0 s.regu.balance (purseKey 159 15) ∧
       tget 0 s.regu.balance (purseKey 159 15) < 4 ∧ odCapOf s (purseKey 159 15) ≠ 0xFFFFF ∧
       odCapOf s (purseKey 159 15) < tget 0 s.regu.odUsed (purseKey 159 15) + 4 ∧
       tget 0 s.regu.balance (purseKey 158 0) < 1 ∧
       tget 0 s.regu.odUsed (purseKey 158 0) + 1 ≤ odCapOf s (purseKey 158 0)) := by decide +kernel

/-- A stack entry of a segment. -/
def gEntryOf (id : Nat) : GEntry :=
  { id := id, tag := 0, reserved := false, order := 0, overdue := false, taken := false, mirrored := false }

/-- State.reset with one entry in channel 0 of stack 0. -/
def queuedAt (reads : Bool) (x : Flight) : State :=
  let s := flown x
  s.setChan 0 0 { s.chan 0 0 with entries := if reads then [] else [gEntryOf 1], reads := if reads then [gEntryOf 1] else [] }

/-- The clamps of the edge released. -/
def unclamped (s : State) : State := withRegs [(Reg.pwrClampLo, 0), (Reg.pwrClampHi, 0)] s

theorem test_met_GatewayQueue_headers :
    (let x := flightOf readStack .header 1
     let s := hdrCome .request 3 (flown x)
     s.flight 1 = some x ∧ x.seg.id = 1 ∧ (hdrHere s .request 1).isSome = true ∧ flightChan s x = (0, some 0) ∧
       Live s (dSG (0 / 32)) ∧ x.path = 1 ∧ stackSt s (ppaOff x.seg.target / 2 ^ 21) = .ok ∧
       (s.chan (0 / 32) 0).entries.length < 512 ∧ gatewayTurn s x 0 = true ∧
       ((next (.gatewayHeader 1) s).chan 0 0).entries.length = 1) ∧
    (let x := flightOf readStack .header 1
     let s := hdrCome .request 3 (flown x)
     let t := s.setChan 0 0 { s.chan 0 0 with headTc := some 0 }
     t.flight 1 = some x ∧ (hdrHere t .request 1).isSome = true ∧ flightChan t x = (0, some 0) ∧ gatewayTurn t x 0 = false) ∧
    (let x := flightOf readStack .header 1
     let s := hdrCome .request 3 (flown x)
     let t := s.setChan 0 0 { s.chan 0 0 with entries := List.replicate 512 (gEntryOf 2) }
     t.flight 1 = some x ∧ flightChan t x = (0, some 0) ∧ 512 ≤ (t.chan (0 / 32) 0).entries.length) := by decide +kernel

theorem test_met_GatewayQueue :
    (let x := flightOf readStack .accepted 1
     let s := unclamped (queuedAt false x)
     0 < 2 ∧ Live s (dSG 0) ∧ clampOn s (32 + 0) = false ∧ (s.chan 0 0).state = .active ∧ (s.chan 0 0).entries = [gEntryOf 1] ∧
       gReads s (gEntryOf 1) = true ∧ ((next (.stackEntryAccept 0 0) s).chan 0 0).entries = []) ∧
    (let x := flightOf readStack .accepted 1
     ((queuedAt true x).chan 0 0).reads = [gEntryOf 1] ∧ (gEntryOf 1).tag = 0 ∧ (queuedAt true x).flight 1 = some x ∧
       x.seg.data = [] ∧ 1 < x.seg.count ∧ x.sent = 0 ∧
       ((next (.stackReadData 0 0 0 0#2) (queuedAt true x)).flight 1).any (fun y => y.sent == 1) = true) ∧
    (1 < 2 ∧ Live State.reset (dSG 1) ∧ 15 < 16 ∧ (State.reset.chan 1 31).die = some 63 ∧
      inService (State.reset.chan 1 31) = true ∧ (State.reset.chan 1 31).levelAt + 4096 ≤ State.reset.now ∧
      (State.reset.chan 1 31).level ≠ 31) := by decide +kernel

/-- Channel 31 of stack 0 changed. -/
def chan31 (f : Chan → Chan) (s : State) : State := s.setChan 0 31 (f (s.chan 0 31))

theorem test_met_Retraining :
    (Live State.reset (dSG 0) ∧ (State.reset.chan 0 31).state = .active ∧ (State.reset.chan 0 31).die = some 31) ∧
    (let s := chan31 (fun x => { x with state := .noticed, e := 30000, b := 40000 }) State.reset
     (s.chan 0 31).state = .noticed ∧ (s.chan 0 31).die = some 31 ∧ (s.chan 0 31).b ≠ 0 ∧
       retrainStart s 31 (s.chan 0 31) ≤ s.now ∧ retrainCount s 0 < s.rgField (Reg.gwCfg 0) 12 2 + 1) ∧
    (let s := chan31 (fun x => { x with state := .retraining, went := 1 }) State.reset
     31 < 32 ∧ (s.chan 0 31).state = .retraining ∧ (s.chan 0 31).die = some 31 ∧ (s.chan 0 31).wasMirror = false ∧
       (s.chan 0 31).kept = none ∧ (s.chan 0 31).entries = [] ∧ (s.chan 0 31).reads = [] ∧ (s.chan 0 31).went ≠ 0 ∧
       (s.chan 0 31).went + s.rgField Reg.gwRetrainTo 0 16 ≤ s.now) := by decide +kernel

theorem test_met_ChannelRepair :
    (Live State.reset (dSG 0) ∧ bit (2 ^ 31 + 31) 31 = true ∧ (State.reset.repair 0).state ≠ 1 ∧
      (State.reset.chan 0 32).state = .spareIdle ∧ (State.reset.chan 0 (bits (2 ^ 31 + 31) 0 5)).state = .active) ∧
    (let s := next (.gwRepairGo 0 (BitVec.ofNat 32 (2 ^ 31 + 31)) 167) State.reset
     (s.repair 0).state = 1 ∧ (s.repair 0).chan = 31 ∧ (s.chan 0 31).state = .mirror ∧ (s.chan 0 31).die = some 31 ∧
       (s.chan 0 32).state = .spareMirror ∧ (s.chan 0 32).b = 0 ∧ (s.chan 0 31).b = 0 ∧ s.edge.badRows = []) ∧
    (isSealedDie State.reset = false ∧ (State.reset.chan 0 (bits (2 ^ 31 + 31) 0 5)).die = some 31 ∧
      (State.reset.chan 0 32).b = 0 ∧ (State.reset.chan 0 31).b = 0) ∧
    (bit (State.reset.rg (Reg.gwBootWd 0)) 31 = false ∧ (State.reset.chan 0 31).die = some 31 ∧
      (State.reset.chan 0 31).entries = [] ∧ (State.reset.chan 0 31).reads = []) ∧
    (let s := State.reset.setChan 0 32 { State.reset.chan 0 32 with state := .spareFailed }
     Live s (dSG 0) ∧ (s.chan 0 31).state = .active ∧ (s.chan 0 31).die = some 31 ∧ (s.chan 0 32).state = .spareFailed) ∧
    (2 ^ 32 - 1 < 2 ^ 32 ∧ 32 ≤ 32 ∧ (State.reset.chan 1 32).state ≠ .spareFailed) ∧
    (let s := mapped7
     let g := (stackPlace s (7 * 2 ^ 21)).1
     let o := (stackPlace s (7 * 2 ^ 21)).2
     (s.chan (g / 32) (g % 32)).die = some g ∧ inService (s.chan (g / 32) (g % 32)) = true ∧ g / 32 < 2 ∧
       (s.frame (frameOf s g o)).state = .mapped) ∧
    (let s := withRegs [(Reg.gwWithdrawnLo, 0xFFFFFFFF)] mapped7
     s.xl.waitMaps = [] ∧ frameMasked s (frameMode s 7) 7 = true ∧ (s.frame 7).state = .mapped) := by decide +kernel

theorem test_met_FarTier :
    (let x := { flightOf (segTo 1 .read (2 ^ 55)) .accepted 2 with halves := 1 }
     Live (flown x) dEDGE ∧ (flown x).flight 1 = some x ∧ x.path = 2 ∧ segReads x.seg = true ∧ x.state = .accepted ∧
       x.sent < x.seg.count ∧ x.status = .ok ∧ (flown x).edge.farTable = []) ∧
    (let x := flightOf (segTo 1 .read (2 ^ 55)) .accepted 2
     (flown x).flight 1 = some x ∧ x.state = .accepted ∧ x.halves = 0 ∧ x.sent < x.seg.count) ∧
    (let x := { flightOf (segTo 1 .write (2 ^ 55)) .sending 2 with arrived := 1 }
     let s := { flown x with edge := { (flown x).edge with farTable := [(4, 1, true)] } }
     Live s dEDGE ∧ s.edge.farTable = [(4, 1, true)] ∧ s.flight 1 = some x ∧ x.state = .sending ∧ x.arrived = x.seg.count) ∧
    (let s := { State.reset with edge := { State.reset.edge with farTable := [(4, 1, true), (5, 1, true)] } }
     Live s dEDGE ∧ s.edge.farTable = [(4, 1, true), (5, 1, true)]) := by decide +kernel

/-- A flit for a die. -/
def flitTo (die : Nat) (ok : Bool) : Flit :=
  { send := 0, net := false, lane := 15, dest := die, crcOk := ok, io := false, st := .ok, relay := none,
    seg := segTo 1 .write (diePPA die 0 0) }

/-- State.reset with a die-link port in a state. -/
def linkIn (p : Nat) (st : LinkState) : State :=
  State.reset.setLink p { State.reset.link p with state := st }

theorem test_met_LinkPorts_flits :
    (let s := withRegs [(Reg.linkCfg, 1)] (linkIn 3 .up)
     3 < 4 ∧ Live s dEDGE ∧ linkUp s 3 = true ∧ (flitTo 0 false).crcOk = false ∧ (s.link 3).replays = 0 ∧
       1 ≤ s.rgField Reg.linkCfg 0 16 ∧ (s.link 3).waiting = []) ∧
    (let s := withRegs [(Reg.linkCfg, 1)] (linkIn 3 .up)
     let t := s.setLink 3 { s.link 3 with replays := 1, replayFrom := s.now }
     linkUp t 3 = true ∧ (t.link 3).replays ≠ 0 ∧ t.now < (t.link 3).replayFrom + 1000000 ∧
       t.rgField Reg.linkCfg 0 16 < (t.link 3).replays + 1) ∧
    (let s := withRegs [(Reg.pwrClampHi, 0)] (linksUp State.reset)
     Live s dEDGE ∧ linkUp s 3 = true ∧ (flitTo 1 true).crcOk = true ∧ (flitTo 1 true).relay = none ∧
       (flitTo 1 true).dest ≠ s.pwr.dieId ∧ linkUp s (routePort s 1) = true ∧ (s.link (routePort s 1)).waiting = [] ∧
       creditsUsed s (routePort s 1) 15 false < 32 ∧ clampOn s 34 = false ∧
       (next (.linkFlitReceive 3 (flitTo 1 true)) s).out.length = s.out.length + 1) ∧
    (let x := flightOf (segTo 1 .read (diePPA 1 0 0)) .accepted 4
     let s := flying x (linksUp State.reset)
     let f := { flitTo 0 true with net := true, seg := { segTo 1 .read (diePPA 1 0 0) with data := [(5#1024, 0#128)] } }
     linkUp s 1 = true ∧ f.dest = s.pwr.dieId ∧ s.flight f.seg.id = some x ∧ 3 ≤ x.path ∧ segReads x.seg = true ∧
       x.state = .accepted ∧ x.sent < x.seg.count ∧ x.status = .ok ∧
       ((next (.linkFlitReceive 1 f) s).flight 1).any (fun y => y.sent == 1) = true) := by decide +kernel

theorem test_met_LinkPorts :
    (let s := State.reset.setDom dEDGE { domUp with state := .down }
     frozen s = false ∧ (s.dom dEDGE).state = .down ∧ (s.dom dFAB).state = .up ∧ 1 ≠ s.pwr.dieId) ∧
    (let s := linkIn 0 .training
     Live s dEDGE ∧ (s.link 0).state = .training ∧ (s.link 0).waiting = [] ∧
       (s.link 0).since + 1000 * max 1 (s.rgField Reg.linkCfg 16 8) ≤ s.now) ∧
    (let s := (linkIn 1 .up).setFlight 1 (flightOf (segTo 1 .read (diePPA 1 0 0)) .accepted 4)
     (s.link 1).state = .up ∧ (s.link 1).state ≠ .inactive ∧ ∀ f ∈ s.mesh.flights, f.2.seg.id = f.1) := by decide +kernel

/-- An enabled running ring 1023 of 32 entries with HEAD and TAIL. -/
def ringState (head tail : Nat) (st : RingState) : State :=
  (withRegs [(Reg.cmdrCtl 1023, 1), (Reg.cmdrCfg 1023, 5), (Reg.cmdrHead 1023, head), (Reg.cmdrTail 1023, tail)]
    State.reset).setRing 1023 { state := st, err := 0, fetched := [], batches := [] }

theorem test_met_CommandRingControl :
    (let s := withRegs [(Reg.cmdrCfg 1023, 5)] State.reset
     1023 < 1024 ∧ Live s dFAB ∧ bit 1 0 = true ∧ bit 1 1 = false ∧ cmdEn s 1023 = false ∧ cmdBusy s 1023 = false ∧
       5 ≤ s.rgField (Reg.cmdrCfg 1023) 0 5 ∧ s.rgField (Reg.cmdrCfg 1023) 0 5 ≤ 16 ∧
       ringBaseOk s (s.rgBit (Reg.cmdrCfg 1023) 31) (s.rg64 (Reg.cmdrBaseLo 1023) (Reg.cmdrBaseHi 1023)) 2048 = true) ∧
    (16 < (withRegs [(Reg.cmdrCfg 0, 17)] State.reset).rgField (Reg.cmdrCfg 0) 0 5 ∧
      (withRegs [(Reg.cmdrCfg 0, 4)] State.reset).rgField (Reg.cmdrCfg 0) 0 5 < 5) ∧
    (let s := ringState 0xFFFFFFFF 3 .running
     Live s dFAB ∧ cmdEn s 1023 = true ∧ disableWaits s 1023 = false ∧
       (30 + 2 ^ 32 - s.rg (Reg.cmdrHead 1023)) % 2 ^ 32 ≤ cmdSize s 1023 ∧
       (s.rg (Reg.cmdrTail 1023) + 2 ^ 32 - s.rg (Reg.cmdrHead 1023)) % 2 ^ 32 ≤
         (30 + 2 ^ 32 - s.rg (Reg.cmdrHead 1023)) % 2 ^ 32 ∧
       (s.ring 1023).state ≠ .error ∧ cmdSize s 1023 < (32 + 2 ^ 32 - s.rg (Reg.cmdrHead 1023)) % 2 ^ 32 ∧
       (2 + 2 ^ 32 - s.rg (Reg.cmdrHead 1023)) % 2 ^ 32 <
         (s.rg (Reg.cmdrTail 1023) + 2 ^ 32 - s.rg (Reg.cmdrHead 1023)) % 2 ^ 32 ∧
       (s.ring 1023).state = .running ∧ cmdBusy s 1023 = false) ∧
    (disableWaits (queued [.cmdrDisable 1023 0#32] (ringState 0 0 .running)) 1023 = true) ∧
    ((4 : Nat) ≠ 0 ∨ (8 : Nat) ≠ 8) ∧ (bit 3 0 = true ∧ bit 3 1 = true) ∧
    ((ringState 0 0 .stopped).ring 1023).state = .stopped ∧ ((ringState 0 0 .stopped).ring 1023).fetched = [] ∧
    bit 2 0 = false := by decide +kernel

/-- A fetched command with no wait and a not-before time. -/
def cmdOf (nb : Nat) : Cmd :=
  { seq := 0, desc := [8#64, BitVec.ofNat 64 nb, 0#64, 0#64, 0#64, 0#64, 0#64, 0#64], notBefore := false, wflag := none, polled := 0 }

/-- Ring 1023 with batches in flight. -/
def batched (l : List (Nat × Nat)) : State :=
  (ringState 31 40 .running).setRing 1023 { state := .running, err := 0, fetched := [], batches := l }

theorem test_met_CommandFetch :
    (let s := ringState 31 40 .running
     Live s dFAB ∧ withheldNow s = false ∧ fetchOk s 1023 = true ∧
       31 = (s.rg (Reg.cmdrHead 1023) + inFlight (s.ring 1023)) % 2 ^ 32 ∧
       1 = min ((s.rg (Reg.cmdrTail 1023) + 2 ^ 32 - 31) % 2 ^ 32) (32 - 31 % 32) ∧ 0 < 1) ∧
    (let s := batched [(31, 1)]
     Live s dFAB ∧ (s.ring 1023).batches = [(31, 1)] ∧ s.ctxs = [] ∧
       (match unitRead s (s.rgBit (Reg.cmdrCfg 1023) 31) 18
          (s.rg64 (Reg.cmdrBaseLo 1023) (Reg.cmdrBaseHi 1023) + 31 % cmdSize s 1023 * 64) 64 with
        | (u, none, l) => (u.ring 1023).fetched == [] && u.ctxs == [] && l.length == 64
        | _ => false) = true ∧ ((next (.batchArrive 1023 .ok) s).ring 1023).fetched.length = 1) ∧
    (stOk .eccUncorr = false ∧ ((batched [(31, 1)]).ring 1023).state ≠ .error ∧ 0 < 1) ∧
    ((batched [(31, 0), (32, 8)]).ring 1023).batches = (31, 0) :: [(32, 8)] ∧
    (let s := (ringState 0 0 .running).setRing 1023 { state := .running, err := 0, fetched := [cmdOf 30000], batches := [] }
     Live s dFAB ∧ (s.ring 1023).fetched = [cmdOf 30000] ∧ cmdEn s 1023 = true ∧ (s.ring 1023).state = .running ∧
       dNotBefore (cmdOf 30000).desc ≤ s.now ∧ (cmdOf 30000).wflag = none ∧ wflagOf s (cmdOf 30000).desc = none ∧
       s.now < dNotBefore (cmdOf 30001).desc) := by
  decide +kernel

/-- A descriptor of an opcode with CRING 1023; QUIET or not. -/
def quietDsc (op : Nat) (quiet : Bool) : Desc := dsc op (2 ^ 24 * (1023 + 2 ^ 10 * b2n quiet)) 0 0 0 0 0

/-- A settled command in program context 255, with its SFLAG. -/
def settled (quiet : Bool) (f : Option Nat) (s : State) : State :=
  s.setPctx 255 { pctxStart 1023 0 0 (cmdFor 7 (quietDsc 8 quiet)) with done := true, sflag := f }

/-- Completion ring 1023 enabled with 64 records and a level. -/
def cringAt (level : Nat) (s : State) : State :=
  withRegs [(ringReg false 1023 8, 2 ^ 29 + 2 ^ 24 * 6), (ringReg false 1023 0x14, level)] s

/-- A record that waits for completion ring 1023. -/
def cwaitOf : CWait :=
  { ring := 1023, stamp := 0, seq := 7, status := .ok, cmdr := 0, op := 8, irq := false, owner := some 255 }

/-- State.reset with that record. -/
def cwaiting : State := { settled false none State.reset with work := { (settled false none State.reset).work with cwait := [cwaitOf] } }

/-- Whether the settled command of ring 1023 and sequence 7 passes a test. -/
def settledB (s : State) (P : PCtx → Bool) : Bool :=
  (s.work.pctxs.find? (fun e => e.2.ring == 1023 && e.2.seq == 7 && pctxSettled s e.1 e.2)).any (fun e =>
    e.1 == 255 && e.2.status == none && e.2.stream == none && P e.2)

theorem test_met_CommandCompletion :
    (let s := settled true none State.reset
     Live s dFAB ∧ settledB s (fun x => x.sflag == none && dDeadline x.desc == 0 && dQuiet x.desc && dScope x.desc == 0 &&
       dOp x.desc != 0x0A) = true ∧ (next (.commandComplete 1023 7) s).pctx 255 = none) ∧
    (let s := settled false none (cringAt 63 State.reset)
     Live s dFAB ∧ settledB s (fun x => x.sflag == none && !dQuiet x.desc && ringEn s false (dCring x.desc) &&
       !ringFull s false (dCring x.desc)) = true ∧ s.work.cwait = [] ∧
       (next (.commandComplete 1023 7) s).rg (ringReg false 1023 0x14) = 64) ∧
    (let s := settled true (some 16383) State.reset
     settledB s (fun x => x.sflag == some 16383 && dScope x.desc == 0) = true ∧ flagSt s 16383 = .ok ∧ s.sync.waiters = [] ∧
       ((next (.commandComplete 1023 7) s).flag 16383).value = true) ∧
    (cwaiting.work.cwait = [cwaitOf] ∧ ringEn cwaiting false 1023 = false ∧ cwaitOf.ring = 1023) ∧
    (ringEn (cringAt 63 cwaiting) false 1023 = true ∧ ringFull (cringAt 63 cwaiting) false 1023 = false ∧
      (next (.cringRecordPlace 1023) (cringAt 63 cwaiting)).work.cwait = []) ∧
    (ringEn (cringAt 64 cwaiting) false 1023 = true ∧ ringFull (cringAt 64 cwaiting) false 1023 = true) := by decide +kernel

theorem test_met_RingRegisters :
    (Live State.reset dFAB ∧ bit (2 ^ 29 + 2 ^ 24 * 20) 29 = true ∧ ringEn State.reset false 1023 = false ∧
      6 ≤ bits (2 ^ 29 + 2 ^ 24 * 20) 24 5 ∧ bits (2 ^ 29 + 2 ^ 24 * 20) 24 5 ≤ 20 ∧
      ringBaseOk State.reset (bit (2 ^ 29 + 2 ^ 24 * 20) 31)
        (State.reset.rg64 (ringReg false 1023 0) (ringReg false 1023 4)) 128 = true) ∧
    (20 < bits (2 ^ 29 + 2 ^ 24 * 21) 24 5 ∧ ringEn State.reset true 15 = false ∧ 15 < 16 ∧
      ringBaseOk State.reset false (State.reset.rg64 (ringReg true 15 0) (ringReg true 15 4)) 128 = true) ∧
    (let s := cringAt 63 State.reset
     (63 + 2 ^ 32 - s.rg (ringReg false 1023 0x10)) % 2 ^ 32 ≤
         (s.rg (ringReg false 1023 0x14) + 2 ^ 32 - s.rg (ringReg false 1023 0x10)) % 2 ^ 32 ∧
       (s.rg (ringReg false 1023 0x14) + 2 ^ 32 - s.rg (ringReg false 1023 0x10)) % 2 ^ 32 <
         (64 + 2 ^ 32 - s.rg (ringReg false 1023 0x10)) % 2 ^ 32 ∧ ringLevel s false 1023 ≠ 0) ∧
    (let s := withRegs [(ringReg false 1023 0xC, 30000)] (cringAt 63 State.reset)
     ringEn s false 1023 = true ∧ ringLevel s false 1023 ≠ 0 ∧ s.rg (ringReg false 1023 0xC) ≠ 0 ∧
       (s.irq false 1023).since + s.rg (ringReg false 1023 0xC) ≤ s.now) ∧
    (tfind (next (.pstoreLowWrite 32767 5#32) State.reset).work.pstoreLow 32767 = some 5#32 ∧
      tfind State.reset.work.pstoreLow 0 = none) := by decide +kernel

/-- A privileged ring 0 whose head is a command that names PPAs. -/
def cmdState (op src dst len aux0 w6 w7 : Nat) : State :=
  headed 0 0 (dsc op 0 src dst (len + 2 ^ 32 * aux0) w6 w7) State.reset

/-- Whether a transfer left a program context's command active. -/
def idleErr (v : State) (k : Nat) (e : Option XErr) : Bool := e.isNone && (v.pctx k).any (fun y => y.status.isNone)

theorem test_met_DataCommands_copy :
    (∃ k x u w, Live (cmdState 1 0 (2 ^ 21) 5 0 0 0) dFAB ∧ Begins (cmdState 1 0 (2 ^ 21) 5 0 0 0) 0 1 anyDesc k x u ∧
      Issues copyEff u k x w ∧
      (let r := copySpan w (pctxVia w k x) false false none (dSrc x.desc) (dDst x.desc) (dLen x.desc)
       idleErr r.1 k r.2.1 && doneB (next (.copy 0) (cmdState 1 0 (2 ^ 21) 5 0 0 0)) k none) = true) ∧
    (∃ k x u w, Live (cmdState 1 (7 * 2 ^ 47) 0 5 0 0 0) dFAB ∧ Begins (cmdState 1 (7 * 2 ^ 47) 0 5 0 0 0) 0 1 anyDesc k x u ∧
      Issues copyEff u k x w ∧
      (match copySpan w (pctxVia w k x) false false none (dSrc x.desc) (dDst x.desc) (dLen x.desc) with
       | (v, some e, _) => !stOk e.st && (v.pctx k).any (fun y => y.status.isNone) &&
           doneB (next (.copy 0) (cmdState 1 (7 * 2 ^ 47) 0 5 0 0 0)) k (some e.st)
       | _ => false) = true) := ⟨begun_met (by decide +kernel), begun_met (by decide +kernel)⟩

theorem test_met_DataCommands_fill :
    (∃ k x u w, Live (cmdState 2 0 0 9 3 0 5) dFAB ∧ Begins (cmdState 2 0 0 9 3 0 5) 0 2 anyDesc k x u ∧
      Issues fillEff u k x w ∧
      (let r := writeSpan w (pctxVia w k x) false none (dDst x.desc) (allOn (fillBytes x.desc))
       idleErr r.1 k r.2.1 && doneB (next (.fill 0) (cmdState 2 0 0 9 3 0 5)) k none) = true) ∧
    (∃ k x u, Live (cmdState 2 0 0 0 0 0 5) dFAB ∧ Begins (cmdState 2 0 0 0 0 0 5) 0 2 anyDesc k x u ∧
      (dLen x.desc == 0 && x.status.isNone && doneB (next (.fill 0) (cmdState 2 0 0 0 0 0 5)) k none) = true) :=
  ⟨begun_met (by decide +kernel), begins_met (by decide +kernel)⟩

/-- Whether the lane of a REDUCE divides its length and its stride. -/
def lanesOk (x : PCtx) : Bool :=
  dLen x.desc % laneBytes (bits (dAux0 x.desc) 0 3 + 3) == 0 && dAux1 x.desc % laneBytes (bits (dAux0 x.desc) 0 3 + 3) == 0

theorem test_met_DataCommands_reduce :
    (∃ k x u w, Live (cmdState 3 0 (2 ^ 21) 8 2 (2 ^ 32 * 8) 0) dFAB ∧
      Begins (cmdState 3 0 (2 ^ 21) 8 2 (2 ^ 32 * 8) 0) 0 3 anyDesc k x u ∧ Issues reduceEff u k x w ∧
      (lanesOk x && (accBad (pctxVia w k x) (dLen x.desc / 128 + 2) (dDst x.desc) (dLen x.desc) w).isNone &&
       (let r := reduceBlocks (pctxVia w k x) (bits (dAux0 x.desc) 0 3 + 3) (dSrc x.desc) (dDst x.desc) (dLen x.desc)
          (dAux1 x.desc) (bits (dAux0 x.desc) 8 8 + 1) 0 w
        idleErr r.1 k r.2)) = true) ∧
    (∃ k x u w, Live (cmdState 3 0 (8 * 2 ^ 47) 8 2 (2 ^ 32 * 8) 0) dFAB ∧
      Begins (cmdState 3 0 (8 * 2 ^ 47) 8 2 (2 ^ 32 * 8) 0) 0 3 anyDesc k x u ∧ Issues reduceEff u k x w ∧
      (lanesOk x && x.status.isNone &&
        (accBad (pctxVia w k x) (dLen x.desc / 128 + 2) (dDst x.desc) (dLen x.desc) w).isSome &&
        doneB (next (.reduce 0) (cmdState 3 0 (8 * 2 ^ 47) 8 2 (2 ^ 32 * 8) 0)) k (some .faultProt)) = true) ∧
    (∃ k x u, Live (cmdState 3 0 (2 ^ 21) 9 3 0 0) dFAB ∧ Begins (cmdState 3 0 (2 ^ 21) 9 3 0 0) 0 3 anyDesc k x u ∧
      (x.status == none && dLen x.desc % laneBytes (bits (dAux0 x.desc) 0 3 + 3) != 0) = true) ∧
    (∃ k x u, Live (cmdState 3 0 (2 ^ 21) 8 3 (2 ^ 32 * 9) 0) dFAB ∧
      Begins (cmdState 3 0 (2 ^ 21) 8 3 (2 ^ 32 * 9) 0) 0 3 anyDesc k x u ∧
      (x.status == none && dAux1 x.desc % laneBytes (bits (dAux0 x.desc) 0 3 + 3) != 0) = true) :=
  ⟨begun_met (by decide +kernel), begun_met (by decide +kernel), begins_met (by decide +kernel), begins_met (by decide +kernel)⟩

/-- Whether the conversion of n units of a CONVERT ends with no error. -/
def convertsB (w : State) (k n : Nat) (x : PCtx) : Bool :=
  let g := mintRead w (pctxVia w k x) false (dMint x.desc) true (dSrc x.desc) n
  let r := mintRun g.1 (pctxVia w k x) false (dMint x.desc) true (dSrc x.desc) (dDst x.desc) n (dAux2 x.desc) g.2
  idleErr r.1 k r.2.err

/-- A ZERO block of 32 elements of a CWS stream at the start of bank 0 (R221). -/
def zeroBlock (s : State) : State := { s with bankMem := s.bankMem.writeN 0 [2#8, 0#8, 0#8, 0#8, 1#8, 0#8, 0#8, 0#8] }

theorem test_met_DataCommands_convert :
    (∃ k x u, Live (cmdState 4 0 (2 ^ 21) 0 0 0 0) dFAB ∧ Begins (cmdState 4 0 (2 ^ 21) 0 0 0 0) 0 4 anyDesc k x u ∧
      (dLen x.desc == 0 && x.status == none) = true) ∧
    (∃ k x u w, Live (cmdState 4 0 (2 ^ 21) 8 0 0 0) dFAB ∧ Begins (cmdState 4 0 (2 ^ 21) 8 0 0 0) 0 4 anyDesc k x u ∧
      Issues convertEff u k x w ∧
      (let f := mfmt (dMint x.desc).inF (dMint x.desc).gsz
       decide (0 < dLen x.desc) && (dMint x.desc).inF != 13 && dLen x.desc % f.bytes == 0 &&
         convertsB w k (dLen x.desc / f.bytes * f.unit) x) = true) ∧
    (∃ k x u w, Live (zeroBlock (cmdState 4 0 (2 ^ 21) 8 13 0 0)) dFAB ∧
      Begins (zeroBlock (cmdState 4 0 (2 ^ 21) 8 13 0 0)) 0 4 anyDesc k x u ∧
      Issues convertEff u k x w ∧
      (decide (0 < dLen x.desc) && (dMint x.desc).inF == 13 && convertsB w k (dLen x.desc) x) = true) :=
  ⟨begins_met (by decide +kernel), begun_met (by decide +kernel), begun_met (by decide +kernel)⟩

theorem test_met_ControlCommands_signal :
    ∃ k x u, Live (cmdState 8 0 0 0 16383 0 0) dFAB ∧ Begins (cmdState 8 0 0 0 16383 0 0) 0 8 anyDesc k x u ∧
      (dFlag u x.desc (bits (dAux0 x.desc) 0 14) == some 16383 && !bit (dAux0 x.desc) 20 && x.status == none &&
        flagSt u 16383 == .ok && u.sync.waiters == []) = true := begins_met (by decide +kernel)

/-- The head of ring 0 signals flag 16383 of die 1, the links up. -/
def farSignal : State := unclamped (linksUp (cmdState 8 0 0 0 (16383 + 2 ^ 16 + 2 ^ 20) 0 0))

theorem test_met_ControlCommands_far :
    ∃ k x u, Live farSignal dFAB ∧ Begins farSignal 0 8 anyDesc k x u ∧
      (dFlag u x.desc (bits (dAux0 x.desc) 0 14) == some 16383 && bits (dAux0 x.desc) 16 4 == 1 && bit (dAux0 x.desc) 20 &&
        u.pwr.dieId == 0 && decide (1 ∈ u.build.dies) && !portQuar u (routePort u 1) && x.status == none &&
        laneOrdered u (pctxSrc u k) 1 (dClass x.desc) (2 ^ 64) && linkUp u (routePort u 1) &&
        (u.link (routePort u 1)).waiting == [] && decide (creditsUsed u (routePort u 1) (dClass x.desc) false < 32) &&
        !clampOn u 34 && doneB (next (.signal 0) farSignal) k none) = true := begins_met (by decide +kernel)

/-- Whether the WAIT at the head names flag 16383 of the store, in a mode. -/
def waitsOn (u : State) (x : PCtx) (mode : Nat) : Bool :=
  dFlag u x.desc (bits (dAux0 x.desc) 0 14) == some 16383 && flagSt u 16383 == .ok && bits (dAux0 x.desc) 14 2 == mode

theorem test_met_ControlCommands_wait :
    (∃ k x u, Live (cmdState 9 0 0 0 16383 0 0) dFAB ∧ Begins (cmdState 9 0 0 0 16383 0 0) 0 9 anyDesc k x u ∧
      (waitsOn u x 0 && !waitHolds u 16383 0 && !dSpin u x.desc) = true) ∧
    (∃ k x u, Live (flagUp 16383 (cmdState 9 0 0 0 (16383 + 2 ^ 15) 0 0)) dFAB ∧
      Begins (flagUp 16383 (cmdState 9 0 0 0 (16383 + 2 ^ 15) 0 0)) 0 9 anyDesc k x u ∧
      (waitsOn u x 2 && waitHolds u 16383 2 && x.status == none && u.sync.waiters == []) = true) :=
  ⟨begins_met (by decide +kernel), begins_met (by decide +kernel)⟩

/-- The head of ring 0 is a WAIT of a spinning context. -/
def spinHead : State :=
  headed 0 0 (dsc 9 (inCtx 5) 0 0 (2 ^ 32 * 7) 0 0) (State.reset.setCtx 5 { ctxOf 0 0 with spin := true })

theorem test_met_ControlCommands_spin :
    ∃ k x u, Live spinHead dFAB ∧ Begins spinHead 0 9 anyDesc k x u ∧
      (dFlag u x.desc (bits (dAux0 x.desc) 0 14) == some 7 && flagSt u 7 == .ok && !waitHolds u 7 (bits (dAux0 x.desc) 14 2) &&
        dSpin u x.desc) = true := begins_met (by decide +kernel)

/-- Barrier channel 31 enabled with a COUNT field. -/
def barState (n : Nat) (s : State) : State := withRegs [(Reg.barCfg 31, 1 + 2 * n)] s

theorem test_met_ControlCommands_fence_barrier :
    (∃ k x u, Live (cmdState 0x0A 0 0 0 0 0 0) dFAB ∧ Begins (cmdState 0x0A 0 0 0 0 0 0) 0 0x0A anyDesc k x u ∧
      (x.status == none && doneB (next (.fence 0) (cmdState 0x0A 0 0 0 0 0 0)) k none) = true) ∧
    (∃ k x u, Live (barState 1 (cmdState 0x0B 0 0 0 31 0 0)) dFAB ∧
      Begins (barState 1 (cmdState 0x0B 0 0 0 31 0 0)) 0 0x0B anyDesc k x u ∧
      (bits (dAux0 x.desc) 0 5 == 31 && barEn u 31 && dScope x.desc == 0 && releaseReady u (pctxSrc u k) (dScope x.desc) &&
        decide ((u.bar 31).arrived + 1 < barCount u 31)) = true) ∧
    (∃ k x u, Live (barState 0 (cmdState 0x0B 0 0 0 31 0 0)) dFAB ∧
      Begins (barState 0 (cmdState 0x0B 0 0 0 31 0 0)) 0 0x0B anyDesc k x u ∧
      (barEn u 31 && releaseReady u (pctxSrc u k) (dScope x.desc) && (u.bar 31).arrived + 1 == barCount u 31) = true) :=
  ⟨begins_met (by decide +kernel), begins_met (by decide +kernel), begins_met (by decide +kernel)⟩

theorem test_met_ControlCommands_stamp_stream :
    (∃ k x u, Live (withRegs [(Reg.evlCtl, 1)] (later 3 (cmdState 0x13 0 0 0 0 0 5))) dFAB ∧
      Begins (withRegs [(Reg.evlCtl, 1)] (later 3 (cmdState 0x13 0 0 0 0 0 5))) 0 0x13 anyDesc k x u ∧
      (x.status == none && u.rgBit Reg.evlCtl 0 && decide (evlWaiting u (u.src 128) < 8) &&
        decide (tget 0 u.evl.stamped (u.src 128) < 32) && k / 8 == 0) = true) ∧
    (∃ k x u, Live (headed 0 0 (dsc 6 (inCtx 5) 0 0 0 0 0) (State.reset.setCtx 5 (ctxOf 0 0))) dFAB ∧
      Begins (headed 0 0 (dsc 6 (inCtx 5) 0 0 0 0 0) (State.reset.setCtx 5 (ctxOf 0 0))) 0 6 anyDesc k x u ∧
      (dCtxV x.desc && decide (dSrc x.desc < 2 ^ 48) && decide (dDst x.desc < 2 ^ 48) && decide (dAux2 x.desc < 2 ^ 48)) = true) :=
  ⟨begins_met (by decide +kernel), begins_met (by decide +kernel)⟩

/-- One SLC bank in service, no line. -/
def withSlc (s : State) : State := withRegs [(Reg.slcSel 7, 2 ^ 31)] s

/-- One SLC bank in service with a clean line. -/
def cached (s : State) : State :=
  { withSlc s with slc := { s.slc with lines := [(1, { data := 0#1024, dirty := false, fill := 0, stale := false })] } }

theorem test_met_SweepCommands_lines :
    (∃ k x u, Live (cmdState 0x10 0 0 128 0 0 0) dFAB ∧ Begins (cmdState 0x10 0 0 128 0 0 0) 0 0x10 anyDesc k x u ∧
      (slcBanks u == 0 && x.status == none) = true) ∧
    (∃ k x u, Live (cmdState 0x11 0 0 128 0 0 0) dFAB ∧ Begins (cmdState 0x11 0 0 128 0 0 0) 0 0x11 anyDesc k x u ∧
      (slcBanks u == 0 && x.status == none) = true) ∧
    (∃ k x u, Live (cached (cmdState 0x10 0 0 0 1 0 0)) dFAB ∧
      Begins (cached (cmdState 0x10 0 0 0 1 0 0)) 0 0x10 anyDesc k x u ∧
      (slcBanks u != 0 && bit (dAux0 x.desc) 0 && x.status == none && u.slc.lines.all (fun l => !l.2.dirty) &&
        (next (.invalidate 0) (cached (cmdState 0x10 0 0 0 1 0 0))).slc.lines.isEmpty) = true) ∧
    (∃ k x u, Live (cached (cmdState 0x11 0 0 0 1 0 0)) dFAB ∧
      Begins (cached (cmdState 0x11 0 0 0 1 0 0)) 0 0x11 anyDesc k x u ∧
      (slcBanks u != 0 && bit (dAux0 x.desc) 0 && x.status == none && tsorted u.slc.lines) = true) ∧
    (∃ k x u, Live (cached (cmdState 0x10 0 0 128 0 0 0)) dFAB ∧
      Begins (cached (cmdState 0x10 0 0 128 0 0 0)) 0 0x10 anyDesc k x u ∧
      (slcBanks u != 0 && !bit (dAux0 x.desc) 0) = true) ∧
    (∃ k x u, Live (cached (cmdState 0x11 0 0 128 0 0 0)) dFAB ∧
      Begins (cached (cmdState 0x11 0 0 128 0 0 0)) 0 0x11 anyDesc k x u ∧
      (slcBanks u != 0 && !bit (dAux0 x.desc) 0) = true) :=
  ⟨begins_met (by decide +kernel), begins_met (by decide +kernel), begins_met (by decide +kernel), begins_met (by decide +kernel),
   begins_met (by decide +kernel), begins_met (by decide +kernel)⟩

theorem test_met_SweepCommands_digest :
    ∃ k x u w, Live (cmdState 0x12 0 0 0 15 0 0) dFAB ∧ Begins (cmdState 0x12 0 0 0 15 0 0) 0 0x12 anyDesc k x u ∧
      Issues digestReadEff u k x w ∧
      (let r := writeSpan (digestClear w (k / 8) (bits (dAux0 x.desc) 0 3)) (pctxVia w k x) false none (dDst x.desc)
          (allOn (digestRecord w (k / 8) (bits (dAux0 x.desc) 0 3)))
       bit (dAux0 x.desc) 3 && idleErr r.1 k r.2.1) = true := begun_met (by decide +kernel)

/-- A package that lacks the dies of a relay's chain. -/
def lone (s : State) : State := { s with build := { s.build with dies := [] } }

/-- What the read of a RELAY's chain gives. -/
def chainOf (w : State) (k : Nat) (x : PCtx) : State × Option XErr × List Byte :=
  readSpan w (pctxVia w k x) false (dAux2 x.desc) (16 + 8 * bits (dAux0 x.desc) 0 10)

/-- The ring of the chain's one link enabled, of one granule a slot. -/
def linkRing (s : State) : State := s.setSlotRing 0 { ringEmpty with cfg := 0x803#64 }

theorem test_met_SweepCommands_relay :
    (∃ k x u w, Live (cmdState 5 0 0 0 1 0 0) dFAB ∧ Begins (cmdState 5 0 0 0 1 0 0) 0 5 anyDesc k x u ∧
      Issues relayEff u k x w ∧
      (let r := chainOf w k x
       r.2.1.isNone && dLen x.desc == 0 && dAux2 x.desc % 8 == 0) = true) ∧
    (∃ k x u w, Live (linkRing (cmdState 5 0 0 128 1 0 0)) dFAB ∧ Begins (linkRing (cmdState 5 0 0 128 1 0 0)) 0 5 anyDesc k x u ∧
      Issues relayEff u k x w ∧
      (let r := chainOf w k x
       r.2.1.isNone && decide (0 < dLen x.desc) && chainCheck r.1 (relayOf x.desc r.2.2) == .ok) = true) ∧
    (∃ k x u w, Live (lone (cmdState 5 0 0 128 1 0 0)) dFAB ∧ Begins (lone (cmdState 5 0 0 128 1 0 0)) 0 5 anyDesc k x u ∧
      Issues relayEff u k x w ∧
      (let r := chainOf w k x
       r.2.1.isNone && decide (0 < dLen x.desc) && (relayOf x.desc r.2.2).links.any (fun e => !decide (e.1 ∈ r.1.build.dies)) &&
         doneB (next (.relay 0) (lone (cmdState 5 0 0 128 1 0 0))) k (some .chainGap)) = true) :=
  ⟨begun_met (by decide +kernel), begun_met (by decide +kernel), begun_met (by decide +kernel)⟩

/-- Whether an opcode is fetched with operands that pass a test. -/
def Met (s : State) (op : Nat) (P : PCtx → Stream → Nat → Bool) : Prop :=
  ∃ x y i, Live s dFAB ∧ Fetches s 31 7 op x y i ∧ P x y i = true

theorem test_met_StreamRegisters_plain :
    Met (progState (5 + 2 ^ 6 * 15 + 2 ^ 11 * (2 ^ 48 - 1)) streamAt State.reset) 5 (fun _ _ i => bits i 6 5 == 15) ∧
    Met (progState (6 + 2 ^ 6 * 15 + 2 ^ 11) streamAt State.reset) 6 (fun _ _ i => bits i 6 5 == 15 && bit i 11) ∧
    Met (progState (6 + 2 ^ 20 * (2 ^ 32 - 1)) streamAt State.reset) 6 (fun _ _ i => decide (bits i 6 5 < 16) && !bit i 11) ∧
    Met (progState (6 + 2 ^ 6 * 16 + 2 ^ 11) streamAt State.reset) 6 (fun _ _ i => decide (16 ≤ bits i 6 5) && bit i 11) ∧
    Met (progState (6 + 2 ^ 6 * 23) streamAt State.reset) 6 (fun _ _ i => bits i 6 5 == 23 && !bit i 11) ∧
    Met (progState (7 + 2 ^ 6 * 15 + 2 ^ 10 * 5) streamAt State.reset) 7 (fun _ _ i => bits i 10 3 == 5) ∧
    Met (progState 0x19 streamAt State.reset) 0x19 (fun _ y _ => !y.crossed) :=
  ⟨fetches_met (by decide +kernel), fetches_met (by decide +kernel), fetches_met (by decide +kernel),
   fetches_met (by decide +kernel), fetches_met (by decide +kernel), fetches_met (by decide +kernel),
   fetches_met (by decide +kernel)⟩

/-- A LOOP whose ENDL stands two instructions on, of a count. -/
def loopState (lreg : Nat) : State :=
  let s := progState (3 + 2 ^ 6 * lreg + 2 ^ 10 * 2) streamAt State.reset
  { s with work := { s.work with pstore := tput s.work.pstore 102 4#64 } }

/-- A level whose ENDL stands at instruction 100. -/
def levelOf (trips : Nat) : Stream :=
  { streamAt with front := { frontAt with levels := [{ trips := trips, body := 90, endl := 100 }] } }

theorem test_met_StreamRegisters_loops :
    Met (loopState 0) 3 (fun _ y i => decide (y.front.levels.length < 6) &&
      bits ((loopState 0).instr (y.front.pc + bits i 10 10)).toNat 0 6 == 4 && !bit i 6 && decide (0 < bits i 20 32 + 1)) ∧
    Met (loopState 1) 3 (fun _ y i => bits ((loopState 1).instr (y.front.pc + bits i 10 10)).toNat 0 6 == 4 && bit i 6 &&
      y.front.rn (bits i 7 3) == 0) ∧
    Met (progState 4 (levelOf 2) State.reset) 4 (fun _ y _ => y.front.levels == [{ trips := 2, body := 90, endl := 100 }] &&
      y.front.pc == 100) ∧
    Met (progState 4 (levelOf 1) State.reset) 4 (fun _ y _ => y.front.levels == [{ trips := 1, body := 90, endl := 100 }]) :=
  ⟨fetches_met (by decide +kernel), fetches_met (by decide +kernel), fetches_met (by decide +kernel),
   fetches_met (by decide +kernel)⟩

/-- The reading of a program's only item and the state after it, where its reads pass the issue point. -/
def readsTo (u : State) (k : Nat) (y : Stream) (f : Front) (op : BackOp) : Option (Reading × State) :=
  match u.program k with
  | none => none
  | some (z, m) =>
    match issueRun u (.pctx k false) (pctxRq u k z) 0 (fun t => (fetchItem t k z m op).1) with
    | (u1, _, true) =>
      match fetchItem { u1 with taking := some [] } k z m op with
      | (v, r) =>
        if v.taking = some [] ∧ r.got.err = none ∧ r.got.took = [] ∧
            ((takeReads { v with taking := none } k 0 (itemAt y.front op) r).program k).map (·.2) = some (held y f op r) then
          some (r, takeReads { v with taking := none } k 0 (itemAt y.front op) r)
        else none
    | _ => none

/-- The reads of an item pass where `readsTo` gives them. -/
theorem reads_met {u q : State} {k : Nat} {y : Stream} {f : Front} {op : BackOp} {r : Reading}
    (h : readsTo u k y f op = some (r, q)) : ReadsPass u k y f op r q := by
  unfold readsTo at h
  split at h
  · exact absurd h (by simp)
  · next z m e =>
    split at h
    · next u1 n e1 =>
      split at h
      next v g e2 =>
      split at h
      · next c =>
        obtain ⟨c1, c2, c3, c4⟩ := c
        simp only [Option.some.injEq, Prod.mk.injEq] at h
        obtain ⟨rfl, rfl⟩ := h
        obtain ⟨p, hp, hq⟩ := Option.map_eq_some_iff.mp c4
        exact ⟨z, m, u1, n, v, e, e1, e2, c1, c2, c3, rfl, p.1, by rw [hp, ← hq]⟩
      · exact absurd h (by simp)
    · exact absurd h (by simp)

/-- The program of a program context and the state in which its back performs an item, where its writes pass the issue
point. -/
def writesTo (q : State) (k : Nat) (b : BackItem) : Option (PCtx × Stream × State) :=
  match q.program k with
  | none => none
  | some (z, m) =>
    match issueRun q (.pctx k true) (pctxRq q k z) 0 (fun t => backDo t k z m b) with
    | (w, _, true) => some (z, m, backWait w k none)
    | _ => none

/-- The writes of an item pass where `writesTo` gives a state. -/
theorem writes_met {q w : State} {k : Nat} {z : PCtx} {m : Stream} {b : BackItem} (h : writesTo q k b = some (z, m, w)) :
    WritesPass q k z m b w := by
  unfold writesTo at h
  split at h
  · exact absurd h (by simp)
  · next z1 m1 e =>
    split at h
    · next w1 n e1 =>
      simp only [Option.some.injEq, Prod.mk.injEq] at h
      obtain ⟨rfl, rfl, rfl⟩ := h
      exact ⟨e, w1, n, e1, rfl⟩
    · exact absurd h (by simp)

/-- Whether an item of program context 255 reads and may write, a test of its reading, its program and the state in which
the back performs it passing. -/
def movesB (s : State) (x : PCtx) (y : Stream) (f : Front) (op : BackOp) (P : Reading → PCtx → State → Bool) : Bool :=
  match readsTo (fronted s 255 x y f op) 255 y f op with
  | none => false
  | some (r, q) =>
    match writesTo q 255 { itemAt y.front op with got := some r.got } with
    | none => false
    | some (z, m, w) => m == held y f op r && P r z w

/-- Whether a transfer ended with no error, its program as given. -/
def endedB (v : State) (e : Option XErr) (m : Stream) : Bool := e.isNone && (v.program 255).map (·.2) == some m

/-- A program with 8 bytes in its stage. -/
def staged8 : Stream := { streamAt with front := { frontAt with unclaimed := 8, n := [(0, 2)] }, stage := List.replicate 8 1#8 }

/-- A state whose program stands at an instruction, 8 bytes in its stage. -/
def stagedState (i : Nat) : State := progState i staged8 State.reset

theorem test_met_StreamData_moves :
    Met (progState (8 + 2 ^ 15 + 2 ^ 16 * 32768) streamAt State.reset) 8 (fun _ y i =>
      let n := lenOf y.front (bit i 10) (bits i 11 3) (bits i 16 32)
      y.folds.isEmpty && !bit i 14 && decide (y.front.unclaimed + n ≤ 32768)) ∧
    Met (progState (8 + 2 ^ 15 + 2 ^ 16 * 5) streamAt State.reset) 8 (fun x y i =>
      let n := lenOf y.front (bit i 10) (bits i 11 3) (bits i 16 32)
      let f := { (if bit i 15 then y.front.addA (bits i 6 4) n else y.front) with unclaimed := y.front.unclaimed + n }.stepped
      let op := .rd (y.front.ra (bits i 6 4)) n (bit i 14)
      y.folds.isEmpty && !bit i 14 && decide (y.front.unclaimed + n ≤ 32768) &&
        (readsTo (fronted (progState (8 + 2 ^ 15 + 2 ^ 16 * 5) streamAt State.reset) 255 x y f op) 255 y f op).any
          (fun r => r.1.got.bytes.length == 5)) ∧
    Met (stagedState (9 + 2 ^ 16 * 8)) 9 (fun x y i =>
      let n := lenOf y.front (bit i 10) (bits i 11 3) (bits i 16 32)
      let f := { (if bit i 15 then y.front.addA (bits i 6 4) n else y.front) with unclaimed := y.front.unclaimed - n }.stepped
      let op := .wr (y.front.ra (bits i 6 4)) n (bit i 14)
      let m := { y with front := f, back := [itemAt y.front op] }
      !bit i 14 && decide (n ≤ y.front.unclaimed) &&
        (writesTo (fronted (stagedState (9 + 2 ^ 16 * 8)) 255 x y f op) 255 (itemAt y.front op)).any (fun w => w.2.1 == m &&
          (let r := writeSpan (onStream w.2.2 255 (fun b => { b with stage := b.stage.drop n })) (pctxVia w.2.2 255 w.1)
            (bit i 14) none (y.front.ra (bits i 6 4)) (allOn (y.stage.take n))
           endedB r.1 r.2.1 { m with stage := y.stage.drop n }))) ∧
    Met (progState (0x0A + 2 ^ 20 + 2 ^ 10 + 2 ^ 21 * 5) streamAt State.reset) 0x0A (fun x y i =>
      let n := lenOf y.front (bit i 14) (bits i 15 3) (bits i 21 32)
      let f := (if bit i 20 then (y.front.addA (bits i 6 4) n).addA (bits i 10 4) n else y.front).stepped
      let op := .copy (y.front.ra (bits i 6 4)) (y.front.ra (bits i 10 4)) n (bit i 18) (bit i 19)
      !bit i 18 && !bit i 19 &&
      movesB (progState (0x0A + 2 ^ 20 + 2 ^ 10 + 2 ^ 21 * 5) streamAt State.reset) x y f op (fun r z w =>
        let v := writeSpan { w with freeCtr := w.freeCtr + 1 } (pctxVia w 255 z) (bit i 19) none (y.front.ra (bits i 10 4))
          (allOn (overlapBytes w.freeCtr (y.front.ra (bits i 6 4)) n (y.front.ra (bits i 10 4)) (bit i 18 == bit i 19)
            (gotPart (y.front.ra (bits i 10 4)) n r.got)))
        endedB v.1 v.2.1 (held y f op r))) ∧
    Met (progState (0x0B + 2 ^ 21 * 8) streamAt State.reset) 0x0B (fun x y i =>
      let n := lenOf y.front (bit i 14) (bits i 15 3) (bits i 21 32)
      let op := .red (y.front.ra (bits i 6 4)) (y.front.ra (bits i 10 4)) n (bits i 18 2)
      n % laneBytes (bits i 18 2 + 3) == 0 && y.front.ra (bits i 6 4) % laneBytes (bits i 18 2 + 3) == 0 &&
      y.front.ra (bits i 10 4) % laneBytes (bits i 18 2 + 3) == 0 && !bit i 20 &&
      movesB (progState (0x0B + 2 ^ 21 * 8) streamAt State.reset) x y y.front.stepped op (fun r z w =>
        let v := writeSpan w (pctxVia w 255 z) false (some (bits i 18 2 + 3)) (y.front.ra (bits i 10 4))
          (allOn (gotPart (y.front.ra (bits i 10 4)) n r.got))
        endedB v.1 v.2.1 (held y y.front.stepped op r))) :=
  ⟨fetches_met (by decide +kernel), fetches_met (by decide +kernel), fetches_met (by decide +kernel),
   fetches_met (by decide +kernel), fetches_met (by decide +kernel)⟩

/-- A state whose program stands at a GATH, SCAT, PWALK or MINT, n0 = 2. -/
def pickState (i : Nat) : State := progState i { staged8 with stage := [] } State.reset

/-- A state whose program stands at a PWALK, the context's first page-list entry valid. -/
def walkState : State :=
  let s := progState (0x0E + 2 ^ 10 * 1 + 2 ^ 14 * 1)
    { staged8 with front := { staged8.front with a := [(1, 8192)] } } State.reset
  { s with bankMem := s.bankMem.writeN 0 [0#8, 0x10#8, 0#8, 0#8, 0#8, 0#8, 0#8, 0x80#8] }

theorem test_met_StreamData_picks :
    Met (pickState (0x0C + 2 ^ 21 * 2)) 0x0C (fun x y i =>
      let n := y.front.rn (bits i 18 3)
      let op := .gath (y.front.ra (bits i 6 4)) (y.front.ra (bits i 10 4)) (y.front.ra (bits i 14 4)) n (bits i 21 3)
      y.front.ra (bits i 6 4) % 4 == 0 && y.front.ra (bits i 10 4) % 2 ^ bits i 21 3 == 0 && n == 2 && !bit i 24 &&
      movesB (pickState (0x0C + 2 ^ 21 * 2)) x y y.front.stepped op (fun r z w =>
        let v := writeSpan w (pctxVia w 255 z) false none (y.front.ra (bits i 14 4))
          (allOn (gotPart (y.front.ra (bits i 14 4)) (n * 2 ^ bits i 21 3) r.got))
        endedB v.1 v.2.1 (held y y.front.stepped op r))) ∧
    Met (pickState (0x0D + 2 ^ 21 * 2)) 0x0D (fun x y i =>
      let n := y.front.rn (bits i 18 3)
      let op := .scat (y.front.ra (bits i 6 4)) (y.front.ra (bits i 10 4)) (y.front.ra (bits i 14 4)) n (bits i 21 3)
      y.front.ra (bits i 10 4) % 4 == 0 && y.front.ra (bits i 14 4) % 2 ^ bits i 21 3 == 0 && !bit i 24 &&
      movesB (pickState (0x0D + 2 ^ 21 * 2)) x y y.front.stepped op (fun r z w =>
        let v := scatWrite (pctxVia w 255 z) (2 ^ bits i 21 3) (places (y.front.ra (bits i 14 4)) (2 ^ bits i 21 3) r.got.idx)
          r.got.bytes w
        endedB v.1 v.2.1 (held y y.front.stepped op r))) ∧
    Met (walkState) 0x0E (fun x y i =>
      let np := y.front.rn (bits i 14 3)
      let nc := y.front.rn (bits i 17 3)
      let g := bits i 20 4 + 1
      let c := walkState.ctx (dCtx x.desc)
      let op := .pwalk (y.front.ra (bits i 6 4)) (y.front.ra (bits i 10 4)) np nc g
      c.kvLen != 0 && decide (np ≤ 16777215) && decide (np + nc ≤ c.kvLen * 2 ^ c.kvShift) && nc == 2 &&
      y.front.ra (bits i 6 4) % 128 == 0 && !bit i 24 &&
      movesB walkState x y y.front.stepped op (fun r z w =>
        let v := writeSpan w (pctxVia w 255 z) false none (y.front.ra (bits i 10 4))
          (allOn (gotPart (y.front.ra (bits i 10 4)) (nc * g * 128) r.got))
        endedB v.1 v.2.1 (held y y.front.stepped op r))) :=
  ⟨fetches_met (by decide +kernel), fetches_met (by decide +kernel), fetches_met (by decide +kernel)⟩

/-- Whether the MINT at the front of a state, without PI, converts with no error. -/
def mintsB (s : State) (x : PCtx) (y : Stream) (i : Nat) : Bool :=
  let n := y.front.rn (bits i 14 3)
  let fc := y.front.rn (bits i 17 3)
  let rc := y.front.rn (bits i 20 3)
  let op := .mint (y.front.ra (bits i 6 4)) (y.front.ra (bits i 10 4)) n fc rc none (bit i 28)
  let f := ((y.front.addA (bits i 6 4) 0).addA (bits i 10 4) 0).stepped
  !bit i 29 && !bit i 28 && n == 2 && !bit i 27 &&
  movesB s x y f op (fun r z w =>
    let v := mintRun w (pctxVia w 255 z) (bit i 28) (mcode fc rc) false (y.front.ra (bits i 6 4)) (y.front.ra (bits i 10 4)) n
      y.gen r.got
    endedB v.1 v.2.err (held y f op r) && v.2.cause == 0)

theorem test_met_StreamData_mint :
    Met (pickState (0x0F + 2 ^ 17 * 7 + 2 ^ 20 * 7)) 0x0F (mintsB (pickState (0x0F + 2 ^ 17 * 7 + 2 ^ 20 * 7))) ∧
    Met (pickState (0x0F + 2 ^ 17 * 1)) 0x0F (mintsB (pickState (0x0F + 2 ^ 17 * 1))) :=
  ⟨fetches_met (by decide +kernel), fetches_met (by decide +kernel)⟩

/-- An enabled ring of 8 slots, one produced, one full and one consumed by program context 7 of mover 31. -/
def ringOn : Slots :=
  { ringEmpty with
    cfg := 0x803#64, heldP := 1, full := 1, heldC := 1, holders := [(255, 0, 3), (255, 1, 1)] }

/-- A program at an instruction, with ring 4095 enabled. -/
def slotState (i : Nat) (x : Slots) : State := (progState i streamAt State.reset).setSlotRing 4095 x

/-- A transfer that is out, of the mover's source. -/
def outFlight (src : Nat) (ctx : Option Nat) : Flight := flightOf { segTo 0 .read 0 with src := src, ctx := ctx } .sending 0

/-- A state with a read of program context 7 of mover 31 out. -/
def readOut (s : State) : State :=
  { s with mesh := { s.mesh with flights := [(0, outFlight (pctxSrc s 255) (some 5))] } }

/-- Whether a ring admits a program context of a state, with nothing before it. -/
def ringFor (s : State) (x : PCtx) (r side : Nat) : Bool :=
  !relayDenied (s.slotRing r) (some (pctxDom s x)) && (s.slotRing r).standing.isEmpty && (slotWaiters s r side).isEmpty

/-- Ring 4095 with a consumer's acquire in this tc. -/
def ringTook : Slots := { ringOn with tookC := some 0 }

theorem test_met_StreamSync_slots :
    Met (slotState (0x10 + 2 ^ 6 * 4095 + 2 ^ 18) ringOn) 0x10 (fun x y i =>
      let s := slotState (0x10 + 2 ^ 6 * 4095 + 2 ^ 18) ringOn
      y.fwait.isNone && ringFor s x (bits i 6 12) 1 && bits i 18 1 == 1 && (s.slotRing 4095).avail 1 &&
        (s.slotRing 4095).open s.clk.tc 1) ∧
    Met (slotState (0x10 + 2 ^ 6 * 4095 + 2 ^ 18) ringTook) 0x10 (fun x y i =>
      let s := slotState (0x10 + 2 ^ 6 * 4095 + 2 ^ 18) ringTook
      y.fwait.isNone && ringFor s x (bits i 6 12) 1 && !(s.slotRing 4095).open s.clk.tc 1) ∧
    Met (slotState (0x10 + 2 ^ 6 * 4095) { ringOn with heldP := 6 }) 0x10 (fun x _ i =>
      let s := slotState (0x10 + 2 ^ 6 * 4095) { ringOn with heldP := 6 }
      ringFor s x (bits i 6 12) 0 && bits i 18 1 == 0 && !(s.slotRing 4095).avail 0) ∧
    Met (slotState (0x11 + 2 ^ 6 * 4095) ringOn) 0x11 (fun x _ i =>
      let s := slotState (0x11 + 2 ^ 6 * 4095) ringOn
      bits i 6 12 == 4095 && bits i 18 1 == 0 && bits i 19 3 == 0 && !relayDenied (s.slotRing 4095) (some (pctxDom s x)) &&
        (s.slotRing 4095).oldest 0 255 == some 3 && releaseReady s (pctxSrc s 255) 0) ∧
    Met (readOut (slotState (0x11 + 2 ^ 6 * 4095 + 2 ^ 18) ringOn)) 0x11 (fun x _ i =>
      let s := readOut (slotState (0x11 + 2 ^ 6 * 4095 + 2 ^ 18) ringOn)
      bits i 18 1 == 1 && !relayDenied (s.slotRing 4095) (some (pctxDom s x)) && (s.slotRing 4095).oldest 1 255 == some 1 &&
        !(readsDue s (pctxSrc s 255) (some (dCtx x.desc))).isEmpty) ∧
    Met (slotState (0x11 + 2 ^ 6 * 4095 + 2 ^ 18) ringOn) 0x11 (fun x _ _ =>
      let s := slotState (0x11 + 2 ^ 6 * 4095 + 2 ^ 18) ringOn
      (readsDue s (pctxSrc s 255) (some (dCtx x.desc))).isEmpty) :=
  ⟨fetches_met (by decide +kernel), fetches_met (by decide +kernel), fetches_met (by decide +kernel),
   fetches_met (by decide +kernel), fetches_met (by decide +kernel), fetches_met (by decide +kernel)⟩

/-- A program at an instruction, queue 1023 holding some cheques and pool 0 enabled. -/
def chqState (i : Nat) (l : List (Nat × Nat)) : State :=
  ((progState i streamAt State.reset).setQueue 1023 { queueEmpty with cfg := 0x803#64, cheques := l }).setPool 0
    { poolEmpty with cfg := 5#64, size := BitVec.ofNat 64 (1 + 2 ^ 32 * 4) }

/-- Whether a queue admits a program context of a state, with nothing before it on a side. -/
def queueFor (s : State) (x : PCtx) (q : Nat) (put : Bool) : Bool :=
  !(s.queue q).denied (some (pctxDom s x)) && (s.queue q).standing.isEmpty && (queueWaiters s q put).isEmpty

theorem test_met_StreamSync_cheques :
    Met (chqState (0x12 + 2 ^ 6 * 1023) [(3, 0)]) 0x12 (fun x y i =>
      let s := chqState (0x12 + 2 ^ 6 * 1023) [(3, 0)]
      y.fwait.isNone && bits i 6 10 == 1023 && queueFor s x 1023 false && (s.queue 1023).cheques == [(3, 0)] &&
        (s.queue 1023).takeTc != some s.clk.tc && chqCurrent s 3 && (s.pool (chqPool 3)).permits (pctxDom s x)) ∧
    Met (chqState (0x12 + 2 ^ 6 * 1023) []) 0x12 (fun x _ i =>
      let s := chqState (0x12 + 2 ^ 6 * 1023) []
      queueFor s x (bits i 6 10) false && (s.queue 1023).cheques.isEmpty) ∧
    Met (chqState (0x13 + 2 ^ 6 * 1023) []) 0x13 (fun x y i =>
      let s := chqState (0x13 + 2 ^ 6 * 1023) []
      let c := y.front.rn (bits i 16 3)
      bits i 6 10 == 1023 && releaseReady s (pctxSrc s 255) (s.queue 1023).scope && queueFor s x 1023 true &&
        chqCurrent s c && !recalled s c && decide ((s.queue 1023).cheques.length < (s.queue 1023).depth) &&
        (s.queue 1023).putTc != some s.clk.tc && (s.queue 1023).scope == 0) :=
  ⟨fetches_met (by decide +kernel), fetches_met (by decide +kernel), fetches_met (by decide +kernel)⟩

/-- A WAITF of physical flag 63 in a mode. -/
def waitfAt (mode : Nat) (s : State) : State := progState (0x14 + 2 ^ 6 * 63 + 2 ^ 24 * mode) streamAt s

/-- A WAITF of a program of a spinning context. -/
def waitfSpin : State :=
  let s := waitfAt 0 State.reset
  s.setPctx 255 { (s.pctx 255).getD (pctxStart 0 0 0 (cmdFor 0 [])) with spin := true }

/-- Whether the instruction names flag 63, nothing of its program waiting. -/
def flag63 (s : State) (x : PCtx) (y : Stream) (i : Nat) : Bool := y.fwait.isNone && insFlag s x y.front i == some 63

/-- A SETF or CLRF of flag 63 on die 1, the links up. -/
def farFlag (op : Nat) : State := unclamped (linksUp (progState (op + 2 ^ 6 * 63 + 2 ^ 28 + 2 ^ 29) streamAt State.reset))

/-- Whether the flag write of the instruction can leave for die 1 now. -/
def farReady (s : State) (x : PCtx) (y : Stream) (i : Nat) : Bool :=
  let l := routePort s 1
  flag63 s x y i && bit i 28 && bits i 29 4 == 1 && s.pwr.dieId == 0 && decide (1 ∈ s.build.dies) && !portQuar s l &&
    !bit i 24 && laneOrdered s (pctxSrc s 255) 1 (dClass x.desc) (2 ^ 64) && linkUp s l && (s.link l).waiting.isEmpty &&
    decide (creditsUsed s l (dClass x.desc) false < 32) && !clampOn s 34

theorem test_met_StreamSync_flags :
    Met (flagUp 63 (waitfAt 0 State.reset)) 0x14 (fun x y i =>
      flag63 (flagUp 63 (waitfAt 0 State.reset)) x y i && bits i 24 2 == 0 && waitHolds (flagUp 63 State.reset) 63 0) ∧
    Met (flagUp 63 (waitfAt 2 State.reset)) 0x14 (fun x y i =>
      flag63 (flagUp 63 (waitfAt 2 State.reset)) x y i && bits i 24 2 == 2 && waitHolds (flagUp 63 State.reset) 63 2) ∧
    Met (waitfAt 0 State.reset) 0x14 (fun x y i =>
      flag63 (waitfAt 0 State.reset) x y i && !waitHolds (waitfAt 0 State.reset) 63 0 && !x.spin) ∧
    Met waitfSpin 0x14 (fun x y i => flag63 waitfSpin x y i && !waitHolds waitfSpin 63 0 && x.spin) ∧
    Met (progState (0x15 + 2 ^ 6 * 63) streamAt State.reset) 0x15 (fun x y i =>
      flag63 (progState (0x15 + 2 ^ 6 * 63) streamAt State.reset) x y i && !bit i 28 && !bit i 24) ∧
    Met (progState (0x16 + 2 ^ 6 * 63 + 2 ^ 24) streamAt State.reset) 0x16 (fun x y i =>
      let s := progState (0x16 + 2 ^ 6 * 63 + 2 ^ 24) streamAt State.reset
      flag63 s x y i && bit i 24 && releaseReady s (pctxSrc s 255) (bits i 25 3) && bits i 25 3 == 0 && s.sync.waiters.isEmpty) ∧
    Met (farFlag 0x15) 0x15 (farReady (farFlag 0x15)) ∧ Met (farFlag 0x16) 0x16 (farReady (farFlag 0x16)) :=
  ⟨fetches_met (by decide +kernel), fetches_met (by decide +kernel), fetches_met (by decide +kernel),
   fetches_met (by decide +kernel), fetches_met (by decide +kernel), fetches_met (by decide +kernel),
   fetches_met (by decide +kernel), fetches_met (by decide +kernel)⟩

theorem test_met_StreamSync_rest :
    Met (progState 0x17 streamAt State.reset) 0x17 (fun _ _ i =>
      bits i 6 3 == 0 && releaseReady (progState 0x17 streamAt State.reset) (pctxSrc State.reset 255) 0) ∧
    Met (readOut (progState (0x17 + 2 ^ 6 * 2) streamAt State.reset)) 0x17 (fun _ _ i =>
      !releaseReady (readOut (progState (0x17 + 2 ^ 6 * 2) streamAt State.reset)) (pctxSrc State.reset 255) (bits i 6 3)) ∧
    Met (withRegs [(Reg.evlCtl, 1)] (later 1 (progState 0x18 streamAt State.reset))) 0x18 (fun _ _ _ =>
      let s := withRegs [(Reg.evlCtl, 1)] (later 1 (progState 0x18 streamAt State.reset))
      s.rgBit Reg.evlCtl 0 && s.evl.waiting.isEmpty && s.evl.stampTc != s.clk.tc) ∧
    Met (progState 0x18 streamAt State.reset) 0x18 (fun _ _ _ => !(progState 0 streamAt State.reset).rgBit Reg.evlCtl 0) ∧
    Met (progState (0x1A + 2 ^ 9 + 2 ^ 14) streamAt State.reset) 0x1A (fun _ y i => y.fwait.isNone && bit i 9 && bit i 14) ∧
    Met (progState 0x1A streamAt State.reset) 0x1A (fun _ _ i => !bit i 9 && !bit i 14) :=
  ⟨fetches_met (by decide +kernel), fetches_met (by decide +kernel), fetches_met (by decide +kernel),
   fetches_met (by decide +kernel), fetches_met (by decide +kernel), fetches_met (by decide +kernel)⟩

/-- A program behind an open seam. -/
def seamOpen : Stream := { streamAt with front := { frontAt with guardSet := { seamClosed with isOpen := true } } }

/-- A NEXT to instruction 200 on the flag of index 63. -/
def nextFlag (cond : Nat) : Nat := 2 + 2 ^ 6 * 200 + 2 ^ 21 * cond + 2 ^ 27 * 63

theorem test_met_StreamControl_ends :
    Met (progState 1 streamAt State.reset) 1 (fun x _ _ => x.status.isNone) ∧
    Met (progState (2 + 2 ^ 6 * 200) streamAt State.reset) 2 (fun _ y i => y.front.levels.isEmpty &&
      !y.front.guardSet.isOpen && decide (bits i 21 3 ≤ 2)) ∧
    Met (progState (nextFlag 3) streamAt State.reset) 2 (fun x y i => y.front.levels.isEmpty && !y.front.guardSet.isOpen &&
      bits i 21 3 == 3 && flagOfIndex (progState 0 streamAt State.reset) (dCtx x.desc) (bits i 27 14) == some 63) ∧
    Met (progState (2 + 2 ^ 6 * 200) seamOpen State.reset) 2 (fun _ y i => y.front.levels.isEmpty && y.front.guardSet.isOpen &&
      bits i 21 3 == 0) ∧
    Met (progState (nextFlag 4) seamOpen State.reset) 2 (fun x y i => y.front.levels.isEmpty && y.front.guardSet.isOpen &&
      bits i 21 3 == 4 && flagOfIndex (progState 0 streamAt State.reset) (dCtx x.desc) (bits i 27 14) == some 63) :=
  ⟨fetches_met (by decide +kernel), fetches_met (by decide +kernel), fetches_met (by decide +kernel),
   fetches_met (by decide +kernel), fetches_met (by decide +kernel)⟩

/-- A back item at instruction 99. -/
def item99 (op : BackOp) : BackItem := { op := op, pc := 99, prog := 90, got := none, readSegs := 0, writeSegs := 0 }

/-- A read of one byte whose read is made. -/
def readMade : BackItem := { item99 (.rd 0 1 false) with got := some { bytes := [0#8], err := none } }

/-- Whether program context 255 runs the one program of its mover, with operands that pass a test. -/
def runsB (s : State) (P : PCtx → Stream → Bool) : Bool :=
  match s.program 255 with
  | some (x, y) => moverPrograms s 31 == [(255, x)] && P x y
  | none => false

/-- A program whose back keeps a CHQOUT that waits, and items behind it. -/
def heldBack (l : List BackItem) : State :=
  (progState 0x08 streamAt State.reset).setPctx 255
    { pctxStart 0 0 0 (cmdFor 0 (dsc 6 (inCtx 5) 0 0 0 0 0)) with
        stream := some { streamAt with back := item99 (.chqout 0 0) :: l }, wait := some (.put 0) }

theorem test_met_StreamControl_back :
    (let s := progState 0 { streamAt with back := [item99 (.next 1 0 200 101 false)] } State.reset
     Live s dFAB ∧ releaseReady s (pctxSrc s 255) 1 = true ∧ runsB s (fun x y => !backWaits x && y.back.length == 1) = true) ∧
    (let s := progState 0 { streamAt with back := [item99 (.next 3 5 200 101 true)], check := some frontAt, crossed := true }
       State.reset
     Live s dFAB ∧ true = !(s.flag 5).value ∧ releaseReady s (pctxSrc s 255) 1 = true ∧
       runsB s (fun x y => !backWaits x && y.check == some frontAt && y.crossed) = true) ∧
    (let s := progState 0 { streamAt with back := [item99 (.next 3 5 200 101 true), readMade], check := some frontAt,
                                          crossed := true } State.reset
     runsB s (fun _ y => (y.back.drop 1).all (fun a => !isWaitf a && (!itemReads a || a.got.isSome))) = true) ∧
    (let s := progState 0 { streamAt with back := [item99 (.fault .faultAlign 5#64 false false)] } State.reset
     Live s dFAB ∧ stOk .faultAlign = false ∧ runsB s (fun x _ => x.status.isNone) = true ∧
       doneB (next (.pendingFaultTake 31 7) s) 255 (some .faultAlign) = true) ∧
    (let s := progState 0 { streamAt with front := { frontAt with pc := 1124 } } State.reset
     Live s dFAB ∧ runsB s (fun _ y => y.back.isEmpty && !frontStands y && y.check.isNone && !y.crossed &&
       decide (y.front.prog + 1023 < y.front.pc)) = true) ∧
    (let s := heldBack (List.replicate 64 (item99 (.wr 0 1 false)))
     Live s dFAB ∧ streamGo s 31 = s ∧ runsB s (fun _ y => decide (64 ≤ (y.back.filter itemWrites).length)) = true) := by
  decide +kernel

theorem test_met_StreamControl_ahead :
    (let l := item99 (.chqout 0 0) :: List.replicate 256 readMade
     let b := item99 (.rd 0 1 false)
     let s := withRegs [(Reg.strmCfg, 256)] (heldBack (List.replicate 256 readMade ++ [b]))
     Live s dFAB ∧ streamGo s 31 = s ∧ itemFails b = false ∧ itemReads b = true ∧ b.got = none ∧
       (∀ a ∈ l, itemFails a = false ∧ (itemReads a = false ∨ a.got.isSome = true)) ∧
       runsB s (fun x y => y.back == l ++ [b] && !readHeld s 255 x y l b.op &&
         !runFits s 255 y (l.any isNext) (itemHeld { b with got := some (fetchItem s 255 x y b.op).2.got })) = true) := by
  decide +kernel

/-- A program context that has started nothing. -/
def bare : PCtx := pctxStart 0 0 0 (cmdFor 0 (dsc 4 (inCtx 5) 0 0 0 0 0))

/-- State.reset with program context 255 of context 5 as given. -/
def at255 (x : PCtx) : State := (State.reset.setCtx 5 (ctxOf 2 0)).setPctx 255 x

/-- A waiting program context. -/
def waitFor (w : PWait) (y : Stream) : PCtx := { bare with wait := some w, stream := some y }

/-- A program whose front waits. -/
def frontFor (w : PWait) : PCtx := { bare with stream := some { streamAt with fwait := some w } }

theorem test_met_SlotRings_enable :
    Live State.reset dFAB ∧ bit (0x303#64).toNat 0 = true ∧ (State.reset.slotRing 4095).en = false ∧
    slotSetupOk State.reset { State.reset.slotRing 4095 with cfg := BitVec.ofNat 64 ((0x303#64).toNat &&& slotCfgMask) } = true ∧
    bit (0x203#64).toNat 0 = true ∧
    slotSetupOk State.reset { State.reset.slotRing 4095 with cfg := BitVec.ofNat 64 ((0x203#64).toNat &&& slotCfgMask) } = false ∧
    (let s := State.reset.setSlotRing 4095 ringOn
     Live s dFAB ∧ bit (0x802#64).toNat 0 = false ∧ (s.slotRing 4095).en = true ∧ slotWaiters s 4095 0 = [] ∧
     slotWaiters s 4095 1 = [] ∧ (s.slotRing 4095).engP = [] ∧ (s.slotRing 4095).engC = []) := by decide +kernel

theorem test_met_SlotRings_retry :
    (let s := (at255 (frontFor (.slot 4095 1 15))).setSlotRing 4095 ringOn
     Live s dFAB ∧ (s.slotRing 4095).en = true ∧ (s.slotRing 4095).avail 1 = true ∧ (s.slotRing 4095).open s.clk.tc 1 = true ∧
     (slotWaiters s 4095 1).map (·.who) = [.front 255 15] ∧ s.pctx 255 = some (frontFor (.slot 4095 1 15)) ∧
     ((next (.slotAcquireRetry 4095 1) s).pctx 255).any (fun x => x.stream.any (fun y => y.fwait.isNone)) = true) ∧
    (let s := (at255 bare).setSlotRing 0 { ringOn with heldP := 6 }
     Live s dFAB ∧ (s.slotRing 0).avail 0 = false ∧ (s.slotRing 0).standing = []) ∧
    (let s := State.reset.setSlotRing 4095 ringTook
     (s.slotRing 4095).avail 1 = true ∧ (s.slotRing 4095).open s.clk.tc 1 = false) ∧
    (let s := State.reset.setSlotRing 4095 { ringOn with creads := [(0, [7])] }
     Live s dFAB ∧ (s.slotRing 4095).en = true ∧ (s.slotRing 4095).creads = [(0, [7])] ∧ readsDone s [7] = true ∧
     (s.slotRing 4095).cdone = [] ∧ (s.slotRing 4095).cr = 0 ∧ 0 < (s.slotRing 4095).heldC) ∧
    (let s := (readOut State.reset).setSlotRing 4095 { ringOn with creads := [(0, [0])] }
     Live s dFAB ∧ readsDone s [0] = false) := by decide +kernel

/-- Pool 255 with a count and a free queue, as written. -/
def poolOf (cfg count gbase : Nat) : Pool :=
  { poolEmpty with cfg := BitVec.ofNat 64 cfg, size := BitVec.ofNat 64 (128 + 2 ^ 32 * count), gbase := gbase }

/-- Queue 1023 enabled with depth 8 and some cheques; pool 255 with 4 buffers. -/
def cheques (cfg : Nat) (l : List (Nat × Nat)) (s : State) : State :=
  (s.setQueue 1023 { queueEmpty with cfg := 0x803#64, cheques := l }).setPool 255 (poolOf cfg 4 1048572)

/-- The CHQ value of buffer 3 of pool 255, generation 0. -/
def chq3 : Nat := 255 * 2 ^ 20 + 3

theorem test_met_Cheques_pools :
    (let s := cheques 0 [] State.reset
     Live s dFAB ∧ (s.pool 255).en = false ∧
     poolSetupOk s 255 { s.pool 255 with cfg := BitVec.ofNat 64 ((BitVec.ofNat 64 (7 + 2 ^ 9 * 1023)).toNat % 2 ^ 19 / 2 * 2) } = true ∧
     { s.pool 255 with cfg := BitVec.ofNat 64 ((BitVec.ofNat 64 (7 + 2 ^ 9 * 1023)).toNat % 2 ^ 19 / 2 * 2) : Pool }.seed = true ∧
     poolSetupOk s 255 { s.pool 255 with cfg := BitVec.ofNat 64 ((5#64).toNat % 2 ^ 19 / 2 * 2) } = true ∧
     { s.pool 255 with cfg := BitVec.ofNat 64 ((5#64).toNat % 2 ^ 19 / 2 * 2) : Pool }.seed = false ∧
     poolSetupOk s 255 { s.pool 255 with cfg := BitVec.ofNat 64 ((7#64).toNat % 2 ^ 19 / 2 * 2) } = false ∧
     (3#64).toNat % 2 ^ 20 < (s.pool 255).count ∧ (s.pool 255).gbase + (3#64).toNat % 2 ^ 20 < 1048576 ∧
     (s.pool 255).count ≤ (4#64).toNat % 2 ^ 20 ∧ HomesUp s) := by unfold HomesUp; decide +kernel

/-- Whether queue 1023 and pool 255 take a put of `chq3` in this tc, with nothing before it. -/
def putOpen (s : State) : Bool :=
  (s.queue 1023).en && releaseReady s 7 (s.queue 1023).scope && s.tableMark.isEmpty && chqCurrent s chq3 && !recalled s chq3 &&
    (s.queue 1023).standing.isEmpty && (queueWaiters s 1023 true).isEmpty && (s.queue 1023).putTc != some s.clk.tc

theorem test_met_Cheques_queues :
    Live State.reset dFAB ∧ (State.reset.queue 1023).en = false ∧ queueSetupOk State.reset (0x10003#64).toNat = true ∧
    queueSetupOk State.reset (0x10103#64).toNat = false ∧
    (let s := cheques 5 [] State.reset
     Live s dFAB ∧ putOpen s = true ∧ chqCurrent s (chq3 + 2 ^ 28) = false ∧
     (s.queue 1023).cheques.length < (s.queue 1023).depth ∧ (s.pool (chqPool chq3)).freeq ≠ 1023 ∧
     (s.queue 1023).engT = [] ∧ (s.queue 1023).engP = [] ∧ (s.queue 0).en = false ∧
     ((next (.put 1023 (BitVec.ofNat 64 chq3) 7) s).queue 1023).cheques = [(chq3, 7)]) ∧
    (let s := cheques (5 + 2 ^ 9 * 1023) [] State.reset
     Live s dFAB ∧ putOpen s = true ∧ (s.pool (chqPool chq3)).freeq = 1023) ∧
    (let s := queued [.recall 255 3#64] (cheques 5 [] State.reset)
     Live s dFAB ∧ recalled s chq3 = true) ∧
    (let s := cheques 5 (List.replicate 8 (chq3, 0)) State.reset
     Live s dFAB ∧ putOpen s = true ∧ (s.queue 1023).depth ≤ (s.queue 1023).cheques.length) := by decide +kernel

theorem test_met_Cheques_retry :
    (let x := waitFor (.put 1023) { streamAt with back := [item99 (.chqout 1023 chq3)] }
     let s := cheques 5 [] (at255 x)
     Live s dFAB ∧ s.pctx 255 = some x ∧ (queueWaiters s 1023 true).map (·.who) = [.back 255 chq3] ∧ s.tableMark = [] ∧
     (s.queue 1023).denied (some (dDomain s x.desc)) = false ∧ chqCurrent s chq3 = true ∧ recalled s chq3 = false ∧
     (s.queue 1023).cheques.length < (s.queue 1023).depth ∧ (s.queue 1023).putTc ≠ some s.clk.tc) ∧
    (let x := frontFor (.take 1023 7 15)
     let s := cheques 5 [(chq3, 9)] (at255 x)
     Live s dFAB ∧ s.pctx 255 = some x ∧ (queueWaiters s 1023 false).map (·.who) = [.front 255 15] ∧ (s.queue 1023).en = true ∧
     (s.queue 1023).takeTc ≠ some s.clk.tc ∧ (s.queue 1023).cheques = [(chq3, 9)] ∧
     chqCurrent s chq3 = true ∧ (s.pool (chqPool chq3)).permits (dDomain s x.desc) = true) := by decide +kernel

/-- A relay of one piece of one granule to ring 4095 of this die. -/
def relayAt : Relay :=
  { links := [(0, 0, 4095)], piece := 1, pieces := 1, len := 128, src := 0, srcRing := none, resv := 0, resvAt := 0,
    granted := false, srcSlot := none, sent := 0, slots := [], failed := false }

/-- Ring 4095 with slots of two granules. -/
def ringTwo : Slots := { ringOn with cfg := BitVec.ofNat 64 (0x803 + 2 ^ 16 + 2 ^ 48) }

/-- Program context 255 with a relay and ring 4095. -/
def relayState (y : Relay) (z : Slots) : State :=
  ((withRegs ([(Reg.domCtl 2, 1)] ++ segRegs 2 0 0x38 0 0x200000 0) (at255 { bare with relay := some y }))).setSlotRing 4095 z

/-- A header of die 15 at ring 4095 of this die, the last link of its chain. -/
def hopOf (size : Nat) : RelayHop :=
  { die := 15, dom := none, lane := 15, dl := 0, size := size, piece := 0, link := 0, chain := [(0, 0, 4095)], off := 0,
    data := [] }

/-- A state with its links up and unclamped, answers to die 15 leaving at once. -/
def linked (s : State) : State := unclamped (linksUp s)

/-- Whether an answer on lane 15 to die 15 leaves at once. -/
def answerOpen (s : State) : Bool :=
  let l := routePort s 15
  linkUp s l && (s.link l).waiting.isEmpty && decide (creditsUsed s l 15 true < 32) && !clampOn s 34

theorem test_met_Relays_reserve :
    (let s := relayState relayAt ringTwo
     Live s dFAB ∧ s.pctx 255 = some { bare with relay := some relayAt } ∧
     relayMoves s 255 { bare with relay := some relayAt } relayAt = true ∧ relayAt.resvAt < relayAt.links.length ∧
     relayFromHere s relayAt 0 = true ∧ relayAt.link 0 = (s.pwr.dieId, 0, 4095) ∧ s.tableMark = [] ∧
     relayDenied (s.slotRing 4095) (relayDom s { bare with relay := some relayAt }) = false ∧
     relayAt.piece ≤ (s.slotRing 4095).size ∧ (s.slotRing 4095).standing = [] ∧ slotWaiters s 4095 0 = [] ∧
     (s.slotRing 4095).avail 0 = true ∧ (s.slotRing 4095).open s.clk.tc 0 = true) ∧
    ((relayState relayAt { ringTwo with heldP := 6 }).slotRing 4095).avail 0 = false ∧
    ((relayState relayAt { ringTwo with tookP := some 0 }).slotRing 4095).open 0 0 = false ∧
    (let y := { relayAt with links := [(1, 0, 4095)] }
     let s := linked (relayState y ringTwo)
     Live s dFAB ∧ relayMoves s 255 { bare with relay := some y } y = true ∧ relayFromHere s y 0 = true ∧
     1 ≠ s.pwr.dieId ∧ portQuar s (routePort s 1) = false ∧ linkUp s (routePort s 1) = true ∧
     (s.link (routePort s 1)).waiting = [] ∧ creditsUsed s (routePort s 1) (dClass bare.desc) false < 32 ∧
     clampOn s 34 = false) := by decide +kernel

theorem test_met_Relays_hop :
    (let s := linked (relayState relayAt ringTwo)
     Live s dFAB ∧ (hopOf 2).die ≠ s.pwr.dieId ∧ hopRing (hopOf 2) = 4095 ∧ s.tableMark = [] ∧
     relayDenied (s.slotRing 4095) none = false ∧ (hopOf 2).size ≤ (s.slotRing 4095).size ∧
     (let t := next (.relayReservation 31 7 (some (hopOf 2))) s
      (slotWaiters t 4095 0).map (·.who) = [.hop 255 (hopOf 2)] ∧ (t.slotRing 4095).en = true ∧
      (t.slotRing 4095).avail 0 = true ∧ (t.slotRing 4095).open t.clk.tc 0 = true ∧ (hopNext (hopOf 2)).chain = [] ∧
      answerOpen t = true ∧ (next (.slotAcquireRetry 4095 0) t).out.length = 1)) ∧
    (let s := linked (relayState relayAt ringEmpty)
     relayDenied (s.slotRing 4095) none = true ∧ answerOpen s = true) := by decide +kernel

/-- The relay's one piece granted, its header at the end of the chain. -/
def relayGranted : Relay := { relayAt with resvAt := 1, slots := [(0, 0, 0)] }

theorem test_met_Relays_grant :
    (let x := { bare with relay := some relayGranted }
     let s := relayState relayGranted ringTwo
     let g := { relayGranted.passed 1 with granted := true }
     let z := { x with relay := some g }
     let i := issueRun (s.setPctx 255 z) (.pctx 255 false) (pctxRq s 255 z) x.issued (fun t => (pieceRead t 255 z g).1)
     let v := pieceRead i.1 255 z g
     let a := v.1.setPctx 255 { z with
       relay := some { g with resv := 1, resvAt := 0, granted := false, srcSlot := none, sent := 1 }, wait := none, issued := 0 }
     Live s dFAB ∧ s.pctx 255 = some x ∧ relayMoves s 255 x relayGranted = true ∧ moverQuar s 31 = false ∧ i.2.2 = true ∧
       v.2.1 = none ∧ v.2.2.length = 128 ∧ v.1.pwr.dieId = s.pwr.dieId ∧
       (linkWrite { src := s.pwr.dieId * 256 + 128 + 255 / 8, ctx := none, cls := some (dClass x.desc),
                    dl := some (shortStamp s.now (dDeadline x.desc)) }
         (v.2.2.length / 128 + 2) ((a.slotRing 4095).ppa 0) v.2.2 a).2 = none) := by decide +kernel

theorem test_met_Relays_release :
    (let y := { relayAt with resv := 1, sent := 1, slots := [(0, 0, 3)] }
     let s := relayState y ringTwo
     Live s dFAB ∧ s.pctx 255 = some { bare with relay := some y } ∧ 0 < y.sent ∧ y.pieces ≤ y.resv ∧
     releaseReady s (pctxSrc s 255) (s.slotRing 4095).scope = true ∧
     relayDenied (s.slotRing 4095) (relayDom s { bare with relay := some y }) = false ∧
     (255, 0, 3) ∈ (s.slotRing 4095).holders ∧ doneB (next (.relayLinkRelease 31 7 0 none) s) 255 none = true) ∧
    (let z := { ringTwo with holders := [(holdFar 15 255, 0, 3)] }
     let s := linked (relayState relayAt z)
     Live s dFAB ∧ relayDenied (s.slotRing 4095) none = false ∧ (s.slotRing 4095).oldest 0 (holdFar 15 255) = some 3 ∧
     releaseReady s (15 * 256 + 128 + 255 / 8) (s.slotRing 4095).scope = true ∧ answerOpen s = true ∧
     (next (.relayLinkRelease 31 7 0 (some (hopOf 2))) s).out.length = 1) ∧
    (let s := relayState { relayAt with slots := [(0, 0, 3)] } ringTwo
     Live s dFAB ∧ stOk .faultProt = false ∧
     s.pctx 255 = some { bare with relay := some { relayAt with slots := [(0, 0, 3)] } } ∧
     doneB (next (.relayErrorReport 31 7 0 .faultProt) s) 255 (some .faultProt) = true) := by decide +kernel

/-- A wait for flag 16383. -/
def waiterOf (mode : Nat) (w : Who) : Waiter :=
  { flag := 16383, mode := mode, who := w, acq := false, scope := 0, dl := 0, src := 0, ctx := none, order := 0, overdue := false }

/-- A state with one registered wait. -/
def waitedBy (w : Waiter) (s : State) : State := { s with sync := { s.sync with waiters := [w] } }

/-- A state whose one table error is an uncorrectable word. -/
def badWord (k : Tab) (e : Nat) (s : State) : State := { s with tableMark := [(k.key e, .ue)] }

/-- A write of another die's port, on lane 3, that is not performed yet. -/
def laneWrite : State :=
  { State.reset with mesh := { State.reset.mesh with
      flights := [(0, { outFlight (State.reset.pwr.dieId * 256 + 256) none with
                          seg := { segTo 0 .write 0 with src := 256, cls := 3 } })] } }

theorem test_met_FlagStore_writes :
    131064 = 8 * 16383 ∧ (toBytes 8 1).length = 8 ∧ Live State.reset dFAB ∧ State.reset.tableMark = [] ∧
    (∀ w ∈ State.reset.sync.waiters, w.flag ≠ 16383) ∧ laneBusy State.reset 3 = false ∧
    (let x := { bare with wait := some (.flag 16383) }
     let s := waitedBy (waiterOf 2 (.pctx 255)) (at255 x)
     Live s dFAB ∧ s.tableMark = [] ∧ bit (ofBytes (toBytes 8 1)) 0 = true ∧ s.pctx 255 = some x ∧ x.stream = none ∧
     (next (.flagsWrite 131064 (toBytes 8 1) 0) s).sync.waiters = [] ∧ doneB (next (.flagsWrite 131064 (toBytes 8 1) 0) s) 255 none = true) ∧
    (let s := waitedBy (waiterOf 1 (.engine 9 3 5 31)) (flagUp 16383 State.reset)
     Live s dFAB ∧ s.tableMark = [] ∧ bit (ofBytes (toBytes 8 0)) 0 = false ∧ isUp s (dHome 31) = true ∧
     (next (.flagsWrite 131064 (toBytes 8 0) 0) s).sync.wakes.length = 1) ∧
    ((toBytes 4 0).length ≠ 8 ∧ 0x1FFF8 < 0x20000) ∧
    (let s := badWord .flag 16383 State.reset
     Live s dFAB ∧ tableBad s .flag 16383 = true) ∧ Live laneWrite dFAB ∧ laneBusy laneWrite 3 = true := by decide +kernel

/-- A program context that spins on flag 16383 with WAIT-SET-THEN-CLR. -/
def spinner : PCtx := { bare with desc := dsc 0x0A 0 0 0 (2 ^ 46 * 2) 0 0, wait := some (.flag 16383), spin := true }

theorem test_met_FlagStore_spin :
    spinWait spinner = some (16383, 2, spinner.since) ∧ spinner.stream = none ∧
    (let s := later 8 (at255 spinner)
     Live s dFAB ∧ s.pctx (31 * 8 + 7) = some spinner ∧ s.tableMark = [] ∧
     (firstRanked (pollRank s) (pollsDue s 16383)).map (·.1) = some (31 * 8 + 7) ∧ waitHolds s 16383 2 = false ∧
     waitHolds (flagUp 16383 s) 16383 2 = true ∧ (∀ w ∈ s.sync.waiters, w.flag ≠ 16383)) ∧
    (let s := later 7 (at255 spinner)
     (firstRanked (pollRank s) (pollsDue s 16383)).map (·.1) ≠ some (31 * 8 + 7)) := by decide +kernel

/-- A release of flag 16383 that waits. -/
def releaseOf : Release :=
  { src := pctxSrc State.reset 255, ctx := none, scope := 2, effect := .flag 16383 true, owner := .pctx 255 }

theorem test_met_FlagStore_release :
    (let s := { at255 { bare with wait := some (.release 5) } with sync := { State.reset.sync with releases := [(5, releaseOf)] } }
     Live s dFAB ∧ s.tableMark = [] ∧ tfind s.sync.releases 5 = some releaseOf ∧
     s.pctx 255 = some { bare with wait := some (.release 5) } ∧
     (∀ w ∈ s.sync.waiters, w.flag ≠ 16383) ∧ dirtyRecord s (releaseOf.src % 256) = [] ∧
     releaseReady s releaseOf.src releaseOf.scope = true ∧
     releaseReady (readOut s) releaseOf.src releaseOf.scope = false) := by decide +kernel

theorem test_met_FlagStore_lend :
    (let s := withRegs [(Reg.syncLendCfg, 2 ^ 31)] { State.reset with sync := { State.reset.sync with allWait := [31] } }
     Live s dFAB ∧ nodeQuiet s 31 = true ∧ s.rgBit Reg.syncLendCfg 31 = true ∧
     tget 0 s.sync.quietSince 31 + s.rgField Reg.syncLendCfg 0 16 ≤ s.now) ∧
    nodeQuiet State.reset 31 = false ∧ Live State.reset (dHome 31) := by decide +kernel

/-- A state at a PT. -/
def nsAt (n : Nat) (s : State) : State := { s with pt := { s.pt with raw := 16 * n } }

/-- An arrival of program context 255. -/
def arrivalOf : Arrival := { src := pctxSrc State.reset 255, scope := 2, ctx := none, who := some (.pctx 255) }

/-- Channel 31 enabled with COUNT 2, and as given. -/
def bar31 (b : Bar) (s : State) : State := (withRegs [(Reg.barCfg 31, 3)] s).setBar 31 b

theorem test_met_Barriers_enable :
    frozen State.reset = false ∧ bit (0x1FF#32).toNat 0 = true ∧ barEn State.reset 31 = false ∧
    (let s := bar31 barReset State.reset
     frozen s = false ∧ barEn s 31 = true ∧ (s.bar 31).arrivals = [] ∧ (s.bar 31).heldBy = [] ∧
     bit (BitVec.ofNat 32 (0x100 + 31)).toNat 8 = true ∧ bits (BitVec.ofNat 32 (0x100 + 31)).toNat 0 5 = 31 ∧
     (s.bar 31).arrived < barCount s 31) ∧
    (let s := bar31 { barReset with arrived := 1, arrivals := [arrivalOf] } (at255 { bare with wait := some (.barrier 31) })
     frozen s = false ∧ barEn s 31 = true ∧ (s.bar 31).arrivals = [arrivalOf] ∧ (s.bar 31).heldBy = [] ∧
     s.pctx 255 = some { bare with wait := some (.barrier 31) } ∧ bare.stream = none ∧ bare.status = none) ∧
    bit (BitVec.ofNat 32 (0x200 + 31)).toNat 8 = false ∧ bit (BitVec.ofNat 32 (0x200 + 31)).toNat 9 = true := by decide +kernel

theorem test_met_Barriers_count :
    (let s := bar31 { barReset with waiting := [arrivalOf], arrived := 1 } State.reset
     Live s dFAB ∧ (s.bar 31).waiting = [arrivalOf] ∧ barEn s 31 = true ∧ (s.bar 31).arrived < barCount s 31 ∧
     dirtyRecord s (arrivalOf.src % 256) = [] ∧ releaseReady s arrivalOf.src arrivalOf.scope = true ∧
     releaseReady (readOut s) arrivalOf.src arrivalOf.scope = false) ∧
    (let s := bar31 { barReset with toggle := true, expect := true, held := 2 } State.reset
     frozen s = false ∧ (s.bar 31).quiet = .off ∧ barEn s 31 = true ∧ (s.bar 31).toggle = (s.bar 31).expect ∧
     (s.bar 31).arrivals = []) ∧
    (let s := nsAt 64 (bar31 { barReset with quiet := .high 0 } State.reset)
     (s.bar 31).quiet = .high 0 ∧ 0 + 64 ≤ s.now) ∧
    (let s := nsAt 63 (bar31 { barReset with quiet := .high 0 } State.reset)
     (s.bar 31).quiet = .high 0 ∧ s.now < 0 + 64) ∧
    (let s := nsAt 128 (bar31 { barReset with quiet := .low 0 } State.reset)
     (s.bar 31).quiet = .low 0 ∧ 0 + 128 ≤ s.now ∧ frozen s = false) := by decide +kernel

/-- Scrubbing of every bank each 100 ns, with some marks. -/
def scrubState (marks : List (Nat × EccMark)) : State :=
  nsAt 100 { (withRegs [(Reg.rasCfg, 100)] State.reset) with bankMark := marks }

theorem test_met_Scrubbing :
    (let s := scrubState []
     Live s (dHome (255 / 8)) ∧ scrubs s 255 = true ∧ s.rgField Reg.rasCfg 0 20 ≠ 0 ∧
     tget 0 s.ras.scrubAt 255 + s.rgField Reg.rasCfg 0 20 ≤ s.now ∧ scrubMay s 255 = true ∧
     granuleMarks s .ce (bankPhys s 255) 0 = [] ∧ granuleMarks s .ue (bankPhys s 255) 0 = [] ∧
     scrubMay (s.setTeller 255 { s.teller 255 with busy := some s.clk.tc }) 255 = false) ∧
    (let s := scrubState [(bankAddr 255 0 / 8, .ce)]
     scrubMay s 255 = true ∧ granuleMarks s .ce (bankPhys s 255) 0 ≠ [] ∧ granuleMarks s .ue (bankPhys s 255) 0 = [] ∧
     s.rgField Reg.rasCfg 24 8 = 0) ∧
    (scrubs (withRegs [(Reg.bankMap 255, 255 + 512)] State.reset) 255 = false) ∧
    (let s := { State.reset with ras := { State.reset.ras with scrubBack := [(255, 16384)] } }
     Live s (dHome 31) ∧ tfind s.ras.scrubBack (bankPhys s 255) = some (16383 + 1)) ∧
    State.reset.ras.ceStart = State.reset.now / 2 ^ 30 * 2 ^ 30 ∧
    (nsAt (2 ^ 30) State.reset).ras.ceStart ≠ (nsAt (2 ^ 30) State.reset).now / 2 ^ 30 * 2 ^ 30 := by decide +kernel

/-- A sealed die. -/
def sealedDie : State := withRegs [(Reg.protSeal, 1)] State.reset

theorem test_met_BankSparing_map :
    Live State.reset dFAB ∧ isSealedDie State.reset = false ∧ (263#32).toNat % 512 < 264 ∧
    (∀ k, k < 256 → k ≠ 255 → bankPhys State.reset k ≠ (263#32).toNat % 512) ∧ 264 ≤ (264#32).toNat % 512 ∧
    (3 < 256 ∧ 3 ≠ 255 ∧ bankPhys State.reset 3 = (3#32).toNat % 512) ∧ Live sealedDie dFAB ∧
    isSealedDie sealedDie = true ∧ bankWd (next (.bankMapWrite 255 (BitVec.ofNat 32 (512 + 263))) State.reset) 255 = true := by
  decide +kernel

theorem test_met_BankSparing_copy :
    (let s := withRegs [(Reg.bankSpareOk, 128)] sealedDie
     let v := BitVec.ofNat 32 (2 ^ 31 + 7 * 2 ^ 8 + 255)
     Live s dFAB ∧ bit v.toNat 31 = true ∧ bit v.toNat 30 = false ∧ s.ras.copy = none ∧
     s.rgBit Reg.bankSpareOk (bits v.toNat 8 3) = true ∧ bankWd s (bits v.toNat 0 8) = false) ∧
    7 ≠ State.reset.srcClerk ∧ relief State.reset = false ∧
    (let v := BitVec.ofNat 32 (2 ^ 31 + 2 ^ 30 + 255)
     bit v.toNat 31 = true ∧ bit v.toNat 30 = true ∧ bankWd sealedDie 255 = false ∧ bankSlc sealedDie 255 = false ∧
     (sealedDie.teller 255).entries = [] ∧ sealedDie.ras.copy = none) ∧
    (let s := withRegs [(Reg.evtRoute0, 0)]
       { State.reset with ras := { State.reset.ras with copy := some { bank := 255, spare := 7 } } }
     Live s dFAB ∧ bankPhys s 255 ≠ 256 + 7 ∧ s.bankMem.wf = true ∧ s.bankMem.undef = [] ∧
     (∀ m ∈ s.bankMark, m.2 = .ce) ∧ relief s = false ∧ s.rg Reg.evtRoute0 = 0) := by decide +kernel

/-- Frame 40959 RETIRING, rescue frame 5 valid. -/
def retiring : State :=
  (withRegs [(Reg.rasRescue 0, 2 ^ 31 + 5)] State.reset).setFrame 40959 { frameReset State.reset 40959 with state := .retiring }

theorem test_met_FrameRescue :
    (let v := BitVec.ofNat 32 (2 ^ 31 + 40959)
     let n := BitVec.ofNat 32 (2 ^ 31 + 2 ^ 30 + 40959)
     Live retiring dFAB ∧ bit v.toNat 31 = true ∧ bit v.toNat 30 = false ∧ bits v.toNat 0 17 = 40959 ∧
     bit n.toNat 31 = true ∧ bit n.toNat 30 = true ∧ bits n.toNat 0 17 = 40959 ∧
     (retiring.frame 40959).state = .retiring ∧ (retiring.frame 40959).linked = false ∧ rescuing retiring = false ∧
     retiring.rgBit (Reg.rasRescue 0) 31 = true ∧ retiring.rgField (Reg.rasRescue 0) 0 17 = 5 ∧
     (retiring.frame 5).state = .free ∧ framePresent retiring 5 = true ∧ retiring.tableMark = [] ∧ retiring.xl.waitMaps = [] ∧
     (State.reset.frame 40959).state ≠ .retiring ∧ tableBad (badWord .frame 40959 retiring) .frame 40959 = true) ∧
    (let s := { retiring with ras := { retiring.ras with rescue := some { frame := 40959, rescue := 5 }, rescueState := 1 } }
     Live s dFAB ∧ (∀ h ∈ s.xl.shoots, h.retire = false) ∧ s.edge.badRows = [] ∧ s.stackMem.wf = true ∧
     s.stackMem.undef = [] ∧ (s.frame 40959).linked = false ∧ s.xl.waitMaps = [] ∧
     (next .rescueCopyEnd s).xl.shoots.length = 1) ∧
    (isSealedDie State.reset = false ∧ (State.reset.frame 40959).state = .free ∧ framePresent State.reset 40959 = true ∧
     State.reset.tableMark = [] ∧ State.reset.xl.waitMaps = [] ∧ 0 ≠ State.reset.srcClerk) := by decide +kernel

/-- A domain in a state that ends at a time. -/
def domAs (d : Nat) (x : DomState) (due : Nat) (s : State) : State := s.setDom d { domUp with state := x, due := due }

theorem test_met_VotesAndEntry_votes :
    State.reset.pwr.asserted = false ∧ frozen State.reset = false ∧ 0 ≠ State.reset.srcClerk ∧
    (let s := domAs 36 .down 0 State.reset
     domPresent s 36 = true ∧ s.pwr.asserted = false ∧ nodeVotes s 31 = 0 ∧ (s.dom 36).state = .down ∧
     (s.dom 1).state = .up) ∧
    (∀ d, d < 37 → bit (0#37).toNat d = true → bit (nodeVotes State.reset 31) d = true) := by decide +kernel

/-- A die that nobody votes for. -/
def noVotes : State := withRegs [(Reg.pwrVoteClerkLo, 0), (Reg.pwrVoteClerkHi, 0)] State.reset

theorem test_met_VotesAndEntry_entry :
    ((State.reset.dom 33).state = .up ∧ domPresent State.reset 33 = true ∧ (State.reset.dom 33).timer ≤ State.reset.now) ∧
    (let s := nsAt 0 (State.reset.setDom 33 { domUp with timer := 1 })
     s.now < (s.dom 33).timer ∧ (s.dom 33).state = .up) ∧
    (let s := noVotes.setDom 33 { domUp with expired := true }
     frozen s = false ∧ domPresent s 33 = true ∧ (s.dom 33).state = .up ∧ (s.dom 33).expired = true ∧
     bit (heldMask s) 33 = false ∧ domQuiet s 33 = true) ∧
    (let s := (List.range 35).foldl (fun t i => domAs (i + 2) .down 0 t) (noVotes.setDom 1 { domUp with expired := true })
     frozen s = false ∧ (s.dom 1).state = .up ∧ (s.dom 1).expired = true ∧ bit (heldMask s) 1 = false ∧
     domQuiet s 1 = true) ∧
    domQuiet noVotes 1 = false ∧
    (let s := nsAt 200 (domAs 33 .entering 200 State.reset)
     s.pwr.asserted = false ∧ (s.dom 33).state = .entering ∧ (s.dom 33).due ≤ s.now ∧ (s.dom 33).wake = none) ∧
    (let s := nsAt 199 (domAs 33 .entering 200 State.reset)
     s.now < (s.dom 33).due) ∧
    (let s := nsAt 1000 (State.reset.setDom 1 { domUp with state := .entering, due := 1000, wake := some (7, 3) })
     s.pwr.asserted = false ∧ (s.dom 1).state = .entering ∧ (s.dom 1).due ≤ s.now ∧ (s.dom 1).wake = some (7, 3)) ∧
    (let s := nsAt 1000 (domAs 36 .entering 1000 (linksUp State.reset))
     (s.dom 36).state = .entering ∧ (s.dom 36).due ≤ s.now ∧ (s.dom 36).wake = none ∧
     (s.link 3).state ≠ .inactive) := by decide +kernel

theorem test_met_DomainWake_start :
    (let s := domAs 33 .down 0 State.reset
     s.pwr.asserted = false ∧ domPresent s 33 = true ∧ (s.dom 33).state = .down ∧ (s.dom 1).state = .up) ∧
    (let s := domAs 33 .down 0 (domAs 1 .down 0 State.reset)
     s.pwr.asserted = false ∧ domPresent s 33 = true ∧ (s.dom 33).state = .down ∧ (s.dom 1).state = .down) ∧
    isUp State.reset 36 = true ∧ domPresent State.reset 37 = false ∧
    (let s := nsAt 399 (domAs 33 .waking 400 State.reset)
     (s.dom 33).state = .waking ∧ s.now < (s.dom 33).due) ∧
    (let s := withRegs [(Reg.pwrClampAutoLo, 2 ^ 31)] (nsAt 400 (domAs 33 .waking 400 State.reset))
     (s.dom 33).state = .waking ∧ (s.dom 33).due ≤ s.now ∧ clampGroups 33 = [31] ∧ clampAuto s 31 = true) ∧
    (let s := withRegs [(Reg.pwrClampAutoLo, 0)] (nsAt 400 (domAs 33 .waking 400 State.reset))
     clampAuto s 31 = false ∧ clampOn s 31 = true) := by decide +kernel

theorem test_met_DomainWake_rest :
    (let s := withRegs [(Reg.pwrBank 255, 4)] (nsAt 400 (domAs 33 .waking 400 State.reset))
     s.pwr.asserted = false ∧ (s.dom (dHome 31)).state = .waking ∧ (s.dom (dHome 31)).due ≤ s.now ∧
     s.rgBit (Reg.pwrBank (8 * 31 + 7)) 2 = true ∧ bankRun s (8 * 31 + 7) = 0 ∧
     (∀ j, j < 8 → j ≠ 7 → s.rgBit (Reg.pwrBank (8 * 31 + j)) 2 = false)) ∧
    (let s := nsAt 1000 (domAs 36 .waking 1000 (linksUp State.reset))
     s.pwr.asserted = false ∧ (s.dom 36).state = .waking ∧ (s.dom 36).due ≤ s.now ∧ (s.link 3).state ≠ .inactive) ∧
    (let s := nsAt 0 <| domAs 1 .down 0 { State.reset with obs := { State.reset.obs with tick := some 3000 } }
     s.pwr.asserted = false ∧ (s.dom 1).state = .down ∧ 3000 ∈ timedActions s ∧ 3000 ≤ s.now + 3000) ∧
    (let s := nsAt 0 { State.reset with obs := { State.reset.obs with tick := some 3001 } }
     (∀ a ∈ timedActions s, s.now + 3000 < a) ∧ timedStacks s = []) := by decide +kernel

theorem test_met_BankPower :
    frozen State.reset = false ∧ pwrBankRefused State.reset 255 3 = false ∧
    pwrBankRefused (withRegs [(Reg.slcSel 7, 2 ^ 31)] State.reset) 255 0 = true ∧
    bankRun (withRegs [(Reg.pwrBank 255, 2)] State.reset) 255 = 2 ∧ pwrBankRefused (withRegs [(Reg.pwrBank 255, 2)] State.reset) 255 0 = false ∧
    Live (withRegs [(Reg.pwrBank 255, 1)] State.reset) (dHome (255 / 8)) ∧
    bankRun (withRegs [(Reg.pwrBank 255, 1)] State.reset) 255 = 1 ∧ bankRun State.reset 255 ≠ 1 := by decide +kernel

theorem test_met_Governor :
    frozen State.reset = false ∧ State.reset.pwr.asserted = false ∧ State.reset.clk.step = none ∧
    (let s := withRegs [(Reg.pwrGov, 2 ^ 31 + 170)] { State.reset with pwr := { State.reset.pwr with clkMode := 0 } }
     frozen s = false ∧ s.rgBit Reg.pwrGov 31 = true ∧
     1000 * min 170 (s.rgField Reg.pwrGov 0 8) < ((List.range 37).map (fun d => nth 0 [170001] d % 2 ^ 20)).sum ∧
     s.clk.throttle < 7) ∧
    (let s := withRegs [(Reg.pwrDvfs, 3), (Reg.pwrGov, 0)] { State.reset with pwr := { State.reset.pwr with clkMode := 1 } }
     s.pwr.clkMode = 1 ∧ s.rgBit Reg.pwrGov 31 = false ∧ s.clk.step = none ∧ s.rgBit Reg.pwrCause 2 = false ∧
     s.clk.point < dvfsReq s ∧ frozen s = false) ∧
    (let s := withRegs [(Reg.pwrDvfs, 0), (Reg.pwrGov, 0)]
       { State.reset with pwr := { State.reset.pwr with clkMode := 1 }, clk := { State.reset.clk with point := 3 } }
     dvfsReq s < s.clk.point) ∧
    (let x : VStep := { target := 2, up := true, since := 0 }
     let s := nsAt 50000 { State.reset with clk := { State.reset.clk with step := some x, point := 3 } }
     s.clk.step = some x ∧ x.since + 50000 ≤ s.now) ∧
    (let x : VStep := { target := 2, up := false, since := 0 }
     let s := nsAt 49999 { State.reset with clk := { State.reset.clk with step := some x } }
     s.now < x.since + 50000) := by decide +kernel

theorem test_met_Resets :
    State.reset.pwr.backupLost = false ∧
    { State.reset with pwr := { State.reset.pwr with backupLost := true } : State }.pwr.backupLost = true ∧
    sealedList State.reset = [] ∧ frozen State.reset = false ∧ bit (0x800000A5#32).toNat 31 = true ∧
    (0x800000A5#32).toNat % 256 = 0xA5 ∧ (0x800000A4#32).toNat % 256 ≠ 0xA5 ∧ State.reset.pwr.asserted = false ∧
    (let s := { State.reset with pwr := { State.reset.pwr with asserted := true } }
     s.pwr.asserted = true ∧ bit (clerkVotes s) 1 = true) := by decide +kernel

/-- The clerk runs with a watchdog period of 10 ns and has run for some time. -/
def clerkRuns (stage watch : Nat) : State :=
  let s := withRegs [(Reg.clerkWdNs, 10)] State.reset
  { s with ras := { s.ras with boot := 4, wdStart := 0, wdStage := stage, clerkWatch := watch } }

/-- A command of program context 255 watched for 10 ns. -/
def watched (ctl stage watch : Nat) : State :=
  let s := withRegs [(Reg.cmdWdNs, 10), (Reg.cmdWdCtl, ctl)] (at255 { bare with wdStage := stage })
  { s with ras := { s.ras with watch := watch } }

theorem test_met_Watchdogs :
    Live State.reset dFAB ∧ 0 ≠ State.reset.srcClerk ∧
    (let s := clerkRuns 0 10
     Live s dFAB ∧ s.ras.boot = 4 ∧ s.rgBit Reg.auditCtl 1 = false ∧
     s.ras.wdStart + s.rg Reg.clerkWdNs * (s.ras.wdStage + 1) ≤ s.ras.clerkWatch) ∧
    (let s := clerkRuns 1 20
     Live s dFAB ∧ s.ras.wdStart + s.rg Reg.clerkWdNs * (s.ras.wdStage + 1) ≤ s.ras.clerkWatch ∧ s.ras.wdStage = 1) ∧
    (let s := clerkRuns 1 19
     s.ras.clerkWatch < s.ras.wdStart + s.rg Reg.clerkWdNs * (s.ras.wdStage + 1)) ∧ State.reset.ras.boot ≠ 4 ∧
    (let s := watched 0 0 10
     Live s dFAB ∧ s.pctx (31 * 8 + 7) = some { bare with wdStage := 0 } ∧ bare.record = false ∧ s.rg Reg.cmdWdNs ≠ 0 ∧
     bare.wdFrom + s.rg Reg.cmdWdNs * (0 + 1) ≤ s.ras.watch ∧ s.rgBit Reg.auditCtl 1 = false) ∧
    (let s := watched 1 1 20
     Live s dFAB ∧ bare.wdFrom + s.rg Reg.cmdWdNs * (1 + 1) ≤ s.ras.watch ∧ s.rgBit Reg.cmdWdCtl 0 = true) ∧
    (let s := watched 0 1 20
     Live s dFAB ∧ s.rgBit Reg.cmdWdCtl 0 = false) ∧
    (let s := watched 0 0 9
     s.ras.watch < bare.wdFrom + s.rg Reg.cmdWdNs * (0 + 1)) := by decide +kernel

/-- A teller of bank 255 with a waiting segment since PT 0, the lock-up detector at 1,000 ns. -/
def stuck (cfg : Nat) : State :=
  let s := readOut (nsAt 1000 (withRegs [(Reg.lockupCfg, cfg)] State.reset))
  { s.setTeller 255 { tellerIdle with entries := [entryOf 0 .waiting 0] } with ras := { s.ras with watch := 1000 } }

theorem test_met_Watchdogs_lockup :
    (let s := stuck 1
     Live s dFAB ∧ siteWaits s 0 31 7 15 = some 0 ∧ 0 < 1000 * s.rgField Reg.lockupCfg 0 24 ∧
     lockSite 0 31 7 15 ∉ s.ras.lockups ∧
     tget 0 s.ras.progress (lockSite 0 31 7 15) + 1000 * s.rgField Reg.lockupCfg 0 24 ≤ s.ras.watch ∧
     0 + 1000 * s.rgField Reg.lockupCfg 0 24 ≤ s.now ∧ s.rgBit Reg.auditCtl 1 = false ∧
     s.rgBit Reg.lockupCfg 31 = false) ∧
    (let s := stuck (1 + 2 ^ 31)
     Live s dFAB ∧ siteWaits s 0 31 7 15 = some 0 ∧ s.rgBit Reg.lockupCfg 31 = true) ∧
    (let s := { State.reset with ras := { State.reset.ras with lockups := [lockSite 3 0 3 15] } }
     Live s dFAB ∧ lockSite 3 0 3 15 ∈ s.ras.lockups) := by decide +kernel
/-- Bank 255 sealed. -/
def sealed255 : State := withRegs [(Reg.sealedBank 15, 2 ^ 31 + 255)] State.reset

theorem test_met_LifeCycle :
    (sealed255.pwr.lcState ≠ 3 % 8 ∧ sealedList sealed255 = [255] ∧
      (∀ b ∈ sealedList sealed255, isUp sealed255 (dHome (b / 8)) = true)) ∧ sealed255.pwr.tamper = false ∧
    { sealed255 with pwr := { sealed255.pwr with tamper := true } : State }.pwr.tamper = true ∧
    (let s := { sealed255 with pwr := { sealed255.pwr with wiping := true, wipeBanks := [255] } }
     s.pwr.asserted = false ∧ s.pwr.wiping = true ∧ (∀ b ∈ s.pwr.wipeBanks, isUp s (dHome (b / 8)) = true)) ∧
    State.reset.pwr.wiping = false := by decide +kernel

/-- A firmware image of 36 bytes: the key, the length, the entry, and the CRC of its last word. -/
def image : List Byte :=
  (List.range 4).map (fun i => BitVec.ofNat 8 (0x4B524C43 / 256 ^ i)) ++
  [36#8, 0#8, 0#8, 0#8, 32#8, 0#8, 0#8, 0#8, 0#8, 0#8, 0#8, 0#8] ++
  (List.range 4).map (fun i => BitVec.ofNat 8 (crc32 [1#8, 2#8, 3#8, 4#8] / 256 ^ i)) ++ List.replicate 12 0#8 ++
  [1#8, 2#8, 3#8, 4#8]

/-- A die after its release sequence. -/
def released (boot : Nat) (img : List Byte) : State :=
  nsAt 170000 { State.reset with
    pwr := { State.reset.pwr with fresh := true, releasedAt := 0, bootSrc := boot }, stackMem := Memory.empty.writeN 0 img }

theorem test_met_ClerkAndWatchdogs_boot :
    (let s := released 1 []
     Live s dFAB ∧ s.pwr.fresh = true ∧ s.pwr.releasedAt + (if s.pwr.clkMode = 2 then 170000 else 30000) ≤ s.now ∧
     s.pwr.bootSrc ≠ 0) ∧
    (let s := released 0 image
     Live s dFAB ∧ s.pwr.bootSrc = 0 ∧ imageOk s.stackMem 0 = true) ∧
    (let s := released 0 []
     imageOk s.stackMem 0 = false) ∧
    (let s := { State.reset with pwr := { State.reset.pwr with fresh := false } }
     Live s dFAB ∧ s.pwr.fresh = false) ∧
    (let s := { State.reset with clerkMem := Memory.empty.writeN 0 image, ras := { State.reset.ras with boot := 3 } }
     Live s dFAB ∧ s.ras.boot = 3 ∧ imageOk s.clerkMem 0 = true) ∧
    (let s := { State.reset with ras := { State.reset.ras with boot := 1 } }
     Live s dFAB ∧ s.ras.boot = 1 ∧ imageOk s.clerkMem 0 = false) ∧
    Live { State.reset with ras := { State.reset.ras with boot := 4 } } dFAB := by decide +kernel

/-- A die whose life cycle permits the invasive features. -/
def openLc (s : State) : State := { s with pwr := { s.pwr with lcState := 3 } }

/-- A stop armed for a tick. -/
def armed (tk : Nat) (s : State) : State := { s with obs := { s.obs with tick := some tk } }

theorem test_met_GlobalStop :
    frozen (openLc State.reset) = false ∧ invasive (openLc State.reset) = true ∧ invasive State.reset = false ∧
    (let s := withRegs [(Reg.stopAtLo, 30064)] (openLc State.reset)
     nowFine s + 1024 ≤ 16 * s.rg64 Reg.stopAtLo Reg.stopAtHi ∧ frozen s = false) ∧
    (let s := withRegs [(Reg.stopAtLo, 30063)] (openLc State.reset)
     16 * s.rg64 Reg.stopAtLo Reg.stopAtHi < nowFine s + 1024) ∧
    (let s := armed 30000 (openLc State.reset)
     frozen s = false ∧ s.obs.tick = some 30000 ∧ 30000 ≤ s.now ∧ invasive s = true ∧ s.evl.waiting = []) ∧
    invasive (armed 30000 State.reset) = false ∧ (armed 30001 State.reset).now < 30001 ∧
    (let s := stopped State.reset
     s.pwr.asserted = false ∧ s.obs.holds = true ∧ s.obs.held = [] ∧ s.sync.stopFlags = []) ∧
    bit (7#32).toNat 0 = true ∧ bit (7#32).toNat 1 = true ∧ bit (7#32).toNat 2 = true ∧ bit (5#32).toNat 1 = false := by
  decide +kernel

theorem test_met_DebugAndTap :
    (let s := stopped (openLc State.reset)
     s.pwr.asserted = false ∧ s.obs.holds = true ∧ invasive s = true ∧ (264 * 2 ^ 21 - 4) % 4 = 0) ∧
    (stopped State.reset).obs.holds = true ∧ invasive (stopped State.reset) = false ∧ State.reset.obs.holds = false ∧
    State.reset.pwr.asserted = false ∧
    (let s := domAs 1 .down 0 State.reset
     s.pwr.asserted = false ∧ isUp s (regDom Reg.cmdWdNs) = false) ∧
    (let s := stopped State.reset
     isUp s (regDom Reg.cmdWdNs) = true ∧ stopWord Reg.cmdWdNs = false ∧ Reg.cmdWdNs % 4 = 0 ∧
     (regBlock Reg.cmdWdNs).isSome = true ∧ s.obs.held.length < 64) ∧
    (isUp State.reset (regDom 0xB000) = true ∧ 0xB000 % 4 = 0 ∧ regBlock 0xB000 = none) := by decide +kernel

theorem test_met_AuditAndCounters :
    frozen State.reset = false ∧ State.reset.rgBit Reg.auditStatus 1 = false ∧ State.reset.obs.auditBusy = false ∧
    (withRegs [(Reg.auditStatus, 2)] State.reset).rgBit Reg.auditStatus 1 = true ∧
    State.reset.rgBit Reg.auditCtl 1 = false ∧ State.reset.rgBit Reg.auditCtl 2 = false ∧
    (let s := later 1024 { State.reset with obs := { State.reset.obs with auditBusy := true, auditEnd := 1024 } }
     frozen s = false ∧ s.obs.auditBusy = true ∧ s.obs.auditEnd ≤ s.clk.tc) ∧
    (let s := later 1023 { State.reset with obs := { State.reset.obs with auditBusy := true, auditEnd := 1024 } }
     s.clk.tc < s.obs.auditEnd) ∧
    bit (8#32).toNat 3 = true ∧ bit (8#32).toNat 0 = false ∧ Live State.reset dFAB ∧ bit (2#32).toNat 1 = true ∧
    bit (1#32).toNat 1 = false := by decide +kernel

/-- Port 127 open, context 5 of domain 2 with bank 0 behind its segment 0. -/
def portState : State :=
  (withRegs ([(Reg.pwrClampLo, 0), (Reg.domCtl 2, 1)] ++ segRegs 2 0 0x38 0 0x200000 0) State.reset).setCtx 5
    { ctxOf 2 0 with homeNode := 31 }

/-- A request of port 127 for context 5, its fields in their widths. -/
def req127 (addr : Nat) : PortReq :=
  { port := 127, tag := 255, ctx := 5, addr := addr, cnt := 0, stride := 1, dl := 0, scope := 0, vol := false, aop := 0,
    val := 0#32 }

/-- The state after a request's handshake. -/
def taken (s : State) (r : PortReq) : State :=
  (lendOff (touch s (dHome (r.port / 4))) (r.port / 4)).setPort r.port
    { s.port r.port with stands := none, took := some s.clk.tc }

/-- The state in which a request issues. -/
def issued (s : State) (r : PortReq) : State := portAccept (taken s r) r

/-- Whether a request completes its handshake. -/
def takesB (s : State) (r : PortReq) : Bool :=
  r == portNorm r && (!s.pwr.asserted && !s.obs.holds && isUp s (dHome (r.port / 4))) && !clampOn s (r.port / 4) &&
  portReady s r.port && ((s.port r.port).stands.isNone || (s.port r.port).stands == some r.tag)

/-- A request completes its handshake where `takesB` says so. -/
theorem takes_met {s : State} {r : PortReq} (h : takesB s r = true) : PortTakes s r r (taken s r) := by
  simp only [takesB, Bool.and_eq_true, Bool.or_eq_true, Option.isNone_iff_eq_none, beq_iff_eq, Bool.not_eq_true'] at h
  obtain ⟨⟨⟨⟨h1, ⟨h2, h3⟩, h4⟩, h5⟩, h6⟩, h7⟩ := h
  exact ⟨h1, ⟨h2, h3, h4⟩, h5, h6, h7, rfl⟩

/-- Whether a request finds its port ready for an operation. -/
def readyB (s : State) (r : PortReq) (op : Nat) : Bool := takesB s r && portCheck s r op == .ok

/-- A request is ready where `readyB` says so. -/
theorem ready_met {s : State} {r : PortReq} {op : Nat} (h : readyB s r op = true) : PortReady s r r op (issued s r) := by
  simp only [readyB, Bool.and_eq_true, beq_iff_eq] at h
  exact ⟨_, takes_met h.1, h.2, rfl⟩

/-- The state in which a port's request is performed, where it passes the issue point. -/
def passesTo (u : State) (w : PIssue) : Option State :=
  if portDrains u w ∨ portWalks u w ∨ portBehind u w then none
  else match issueRun u (.port w.q.port w.q.tag) (portRq u w.q) w.issued (fun t => portDo t w) with
    | (x, _, true) => some (portDequeue x w)
    | _ => none

/-- A port's request passes the issue point where `passesTo` gives a state. -/
theorem passes_met {u v : State} {w : PIssue} (h : passesTo u w = some v) : PortIssues u w v := by
  unfold passesTo at h
  split at h
  · exact absurd h (by simp)
  · next c =>
    simp only [not_or, Bool.not_eq_true] at c
    split at h
    · next x n e => exact ⟨c.1, c.2.1, c.2.2, x, n, e, (Option.some.inj h).symm⟩
    · exact absurd h (by simp)

/-- Whether a request is ready, its context serves, and it passes the issue point with a state that passes a test. -/
def issuesB (s : State) (r : PortReq) (op iop : Nat) (data : List WByte) (P : State → State → Bool) : Bool :=
  readyB s r op && portCtxSt (issued s r) r.ctx == .ok &&
    (passesTo (issued s r) (portItem (issued s r) r iop data)).any (P (issued s r))

/-- A request issues where `issuesB` says so. -/
theorem port_met {s : State} {r : PortReq} {op iop : Nat} {data : List WByte} {P : State → State → Bool}
    (h : issuesB s r op iop data P = true) :
    ∃ u v, PortReady s r r op u ∧ portCtxSt u r.ctx = .ok ∧ PortIssues u (portItem u r iop data) v ∧ P u v = true := by
  simp only [issuesB, Bool.and_eq_true, beq_iff_eq] at h
  obtain ⟨⟨h1, h2⟩, h3⟩ := h
  cases e : passesTo (issued s r) (portItem (issued s r) r iop data) with
  | none => rw [e] at h3; exact absurd h3 (by simp)
  | some v => rw [e] at h3; exact ⟨_, v, ready_met h1, h2, passes_met e, by simpa using h3⟩

/-- A VXP's request of node 31. -/
def req126 : PortReq := { req127 0 with port := 126, scope := 1 }

theorem test_met_PortAccess_reads :
    (∃ u v, PortReady portState req126 req126 0 u ∧ portCtxSt u req126.ctx = .ok ∧ PortIssues u (portItem u req126 0 []) v ∧
      ((portReadAll req126 (List.range (req126.cnt + 1)) none v).2.length == 1) = true) ∧ req126.port % 4 ≠ 3 ∧
    (∃ u v, PortReady portState (req127 0) (req127 0) 2 u ∧ portCtxSt u (req127 0).ctx = .ok ∧
      PortIssues u (portItem u (req127 0) 2 []) v ∧ (fun _ _ => true : State → State → Bool) u v = true) ∧
    (2 ≤ req126.port % 4 ∧ req126.scope ≠ 0) :=
  ⟨port_met (by decide +kernel), by decide +kernel, port_met (by decide +kernel), by decide +kernel⟩

/-- A context that unbinds. -/
def leaving : State := portState.setCtx 5 { ctxOf 2 0 with homeNode := 31, unbinding := true }

/-- An earlier write of the same granule waits in the issue queue of port 124 of the node. -/
def earlier : State :=
  portState.setPort 124 { portState.port 124 with
    tags := [(7, 5)], queue := [{ q := { req127 0 with port := 124, tag := 7 }, op := 1, order := 0, data := [], issued := 0 }] }

theorem test_met_PortAccess_waits :
    PortReady leaving (req127 0) (req127 0) 0 (issued leaving (req127 0)) ∧
    (portCtxSt (issued leaving (req127 0)) 5 = .faultXlate ∧ Status.faultXlate ≠ .ok) ∧
    PortReady earlier (req127 0) (req127 0) 0 (issued earlier (req127 0)) ∧
    (let u := issued earlier (req127 0)
     portCtxSt u 5 = .ok ∧ portDrains u (portItem u (req127 0) 0 []) = false ∧
     portWalks u (portItem u (req127 0) 0 []) = false ∧ portBehind u (portItem u (req127 0) 0 []) = true) ∧
    (req127 0 = portNorm (req127 0) ∧ Live State.reset (dHome (127 / 4)) ∧ clampOn State.reset (127 / 4) = true) ∧
    (let s := portState.setPort 127 { portState.port 127 with took := some 0 }
     Live s (dHome (127 / 4)) ∧ clampOn s (127 / 4) = false ∧ portReady s 127 = false) :=
  ⟨ready_met (by decide +kernel), by decide +kernel, ready_met (by decide +kernel), by decide +kernel, by decide +kernel,
   by decide +kernel⟩

/-- The port's own read in flight. -/
def portOut : State :=
  { portState with mesh := { portState.mesh with flights := [(0, outFlight (portState.src 127) none)] } }

theorem test_met_PortAccess_fences :
    (let r := { req127 0 with scope := 2 }
     let u := issued portState r
     PortReady portState r r 6 u ∧ portCtxSt u r.ctx = .ok ∧ PortReleases u r r.scope) ∧
    (let r := { req127 0 with scope := 2 }
     let u := issued portOut r
     PortReady portOut r r 6 u ∧ portCtxSt u r.ctx = .ok ∧
     releaseReady u (u.src r.port) r.scope (u.port r.port).count = false) :=
  ⟨⟨ready_met (by decide +kernel), by decide +kernel, by unfold PortReleases; decide +kernel⟩,
   ready_met (by decide +kernel), by decide +kernel, by decide +kernel⟩

/-- 128 B of write data. -/
def beats128 : List WByte := List.replicate 128 (1#8, true)

theorem test_met_PortAccess_writes :
    (∃ u v, PortReady portState (req127 0) (req127 0) 1 u ∧ portCtxSt u (req127 0).ctx = .ok ∧
      PortIssues u (portItem u (req127 0) 1 beats128) v ∧
      ((portWriteAll (req127 0) (List.range ((req127 0).cnt + 1)) beats128 v).2.1 == [.ok]) = true) ∧
    (portState.port 127).writes = [] ∧ beats128.length = writeBytes (req127 0) false ∧
    (∃ u v, PortReady portState (req127 0) (req127 0) 3 u ∧ portCtxSt u (req127 0).ctx = .ok ∧
      PortIssues u (portItem u (req127 0) 1 beats128) v ∧ (!portReleases u (u.src 127) u.sync.nextKey &&
        releaseReady u (u.src 127) (req127 0).scope (u.port 127).count) = true) ∧
    (∃ u v, PortReady portState (req127 0) (req127 0) 4 u ∧ portCtxSt u (req127 0).ctx = .ok ∧
      PortIssues u (portItem u (req127 0) 4 beats128) v ∧ (fun _ _ => true : State → State → Bool) u v = true) ∧
    Live portState (dHome (127 / 4)) ∧ clampOn portState (127 / 4) = false ∧
    (let s := portState.setPort 127 { portState.port 127 with
       tags := [(255, 5)],
       writes := [{ q := req127 0, release := false, atomic := false, refused := false, bytes := [], order := 0 }] }
     Live s (dHome (127 / 4)) ∧ clampOn s (127 / 4) = false ∧
     (List.replicate 64 ((1#8, true) : WByte)).length = beatBytes 127 ∧
     ([] : List WByte).length + beatBytes 127 < writeBytes (req127 0) false) :=
  ⟨port_met (by decide +kernel), by decide +kernel, by decide +kernel, port_met (by decide +kernel),
   port_met (by decide +kernel), by decide +kernel⟩

theorem test_met_PortAccess_refused :
    PortTakes portState (req127 5) (req127 5) (taken portState (req127 5)) ∧
    (portCheck portState (req127 5) 0 = .faultAlign ∧ Status.faultAlign ≠ .ok) :=
  ⟨takes_met (by decide +kernel), by decide +kernel⟩

/-- A SYNC request of a kind for an object. -/
def syncReq (kind obj : Nat) : PortReq := req127 (kind + 2 ^ 12 * obj)

/-- Whether a SYNC request is ready, its context serves, and no table word shows an error. -/
def syncB (s : State) (r : PortReq) : Bool := readyB s r 5 && portCtxSt (issued s r) r.ctx == .ok && s.tableMark.isEmpty

/-- The premises that every SYNC request shares. -/
theorem sync_met {s : State} {r : PortReq} {P : State → Prop} (h : syncB s r = true) (hp : P (issued s r)) :
    ∃ u, PortReady s r r 5 u ∧ portCtxSt u r.ctx = .ok ∧ s.tableMark = [] ∧ P u := by
  simp only [syncB, Bool.and_eq_true, beq_iff_eq, List.isEmpty_iff] at h
  exact ⟨_, ready_met h.1.1, h.1.2, h.2, hp⟩

/-- Flag 63 clear with ORD. -/
def clrOrd : PortReq := { req127 (1 + 2 ^ 5 + 2 ^ 12 * 63) with scope := 2 }

theorem test_met_PortSync_flags :
    (∃ u, PortReady portState (syncReq 0 63) (syncReq 0 63) 5 u ∧ portCtxSt u 5 = .ok ∧ portState.tableMark = [] ∧
      (flagOfIndex portState 5 (syncObj (syncReq 0 63)) = some 63 ∧ bit (syncReq 0 63).addr 6 = false ∧
       syncOrd (syncReq 0 63) = false ∧ fenceWaits u 127 = false ∧ (∀ w ∈ portState.sync.waiters, w.flag ≠ 63) ∧
       syncKind (syncReq 0 63) = 0)) ∧
    (∃ u, PortReady portState clrOrd clrOrd 5 u ∧ portCtxSt u 5 = .ok ∧ portState.tableMark = [] ∧
      (flagOfIndex portState 5 (syncObj clrOrd) = some 63 ∧ bit clrOrd.addr 6 = false ∧ syncOrd clrOrd = true ∧
       PortReleases u clrOrd clrOrd.scope ∧ syncKind clrOrd = 1)) ∧
    (∃ u, PortReady portState (syncReq 4 63) (syncReq 4 63) 5 u ∧ portCtxSt u 5 = .ok ∧ portState.tableMark = [] ∧
      (syncKind (syncReq 4 63) = 2 + 2 ∧ waitHolds portState 63 2 = false ∧ (portState.ctx 5).spin = false ∧
       poolUsed portState < 4096)) ∧
    (∃ u, PortReady (flagUp 63 portState) (syncReq 2 63) (syncReq 2 63) 5 u ∧ portCtxSt u 5 = .ok ∧
      (flagUp 63 portState).tableMark = [] ∧
      (syncKind (syncReq 2 63) = 2 + 0 ∧ waitHolds (flagUp 63 portState) 63 0 = true ∧
       (∀ w ∈ (flagUp 63 portState).sync.waiters, w.flag ≠ 63))) ∧
    (let s := portState.setCtx 5 { ctxOf 2 0 with spin := true }
     ∃ u, PortReady s (syncReq 2 63) (syncReq 2 63) 5 u ∧ portCtxSt u 5 = .ok ∧ s.tableMark = [] ∧
      (waitHolds s 63 0 = false ∧ (s.ctx 5).spin = true)) :=
  ⟨sync_met (P := fun _ => _) (by decide +kernel) (by decide +kernel),
   sync_met (P := fun _ => _) (by decide +kernel) (by unfold PortReleases; decide +kernel),
   sync_met (P := fun _ => _) (by decide +kernel) (by decide +kernel),
   sync_met (P := fun _ => _) (by decide +kernel) (by decide +kernel),
   sync_met (P := fun _ => _) (by decide +kernel) (by decide +kernel)⟩

/-- A wait of an engine. -/
def engineWait (i : Nat) : Waiter := { waiterOf 0 (.engine i 3 5 0) with flag := 0, src := 3, order := i }

/-- A full pool. -/
def poolFull : State := { portState with sync := { portState.sync with waiters := (List.range 4096).map engineWait } }

theorem test_met_PortSync_pool :
    ∃ u, PortReady poolFull (syncReq 2 63) (syncReq 2 63) 5 u ∧ portCtxSt u 5 = .ok ∧ poolFull.tableMark = [] ∧
      (waitHolds poolFull 63 0 = false ∧ (poolFull.ctx 5).spin = false ∧ 4096 ≤ poolUsed poolFull ∧
       (poolFull.ctx 5).homeNode < 32) := sync_met (P := fun _ => _) (by decide +kernel) (by decide +kernel)

/-- A WAIT_SET with ORD. -/
def waitOrd : PortReq := syncReq (2 + 2 ^ 5) 63

/-- R240, R262: a later read of the context waits until the wake of a wait with ORD has been sent; one of another context does
not. -/
theorem test_wait_acquire_holds :
    (let s := portState.setPort 126 { portState.port 126 with acquires := [(9, 5, 0)], count := 1 }
     let u := issued s (req127 0)
     portBehind u (portItem u (req127 0) 0 []) = true ∧
     portBehind u (portItem u { req127 0 with ctx := 4 } 0 []) = false ∧
     (let v := wakeSend s { node := 0, kind := 0, id := 9, status := .ok, acq := none }
      (v.port 126).acquires = [] ∧ (v.port 126).count = 1)) ∧
    (let u := issued portState waitOrd
     ((syncWait 0 u waitOrd).port 127).acquires = [(freeToken u, 5, (u.port 127).count)]) := by decide +kernel

/-- Ring 4095 with slots that the engine context holds. -/
def portRing (s : State) : State := s.setSlotRing 4095 { ringOn with holders := [(holdEng 127 5, 0, 3), (holdEng 127 5, 1, 1)] }

/-- Whether a ring admits a port's request, with nothing before it. -/
def ringAdmits (s : State) (r : PortReq) : Bool :=
  !relayDenied (s.slotRing (syncObj r)) (some (portDom s r)) && (s.slotRing (syncObj r)).standing.isEmpty &&
    (slotWaiters s (syncObj r) (syncSide r)).isEmpty

/-- An acquire of a consumer's slot. -/
def acqC : PortReq := req127 (5 + 2 ^ 4 + 2 ^ 12 * 4095)

theorem test_met_PortSync_slots :
    (∃ u, PortReady (portRing portState) (syncReq 5 4095) (syncReq 5 4095) 5 u ∧ portCtxSt u 5 = .ok ∧
      (portRing portState).tableMark = [] ∧
      (syncKind (syncReq 5 4095) = 5 ∧ ringAdmits (portRing portState) (syncReq 5 4095) = true ∧
       ((portRing portState).slotRing 4095).avail 0 = true ∧
       ((portRing portState).slotRing 4095).open (portRing portState).clk.tc 0 = true)) ∧
    (let s := portState.setSlotRing 4095 ringTook
     ∃ u, PortReady s acqC acqC 5 u ∧ portCtxSt u 5 = .ok ∧ s.tableMark = [] ∧
      (syncKind acqC = 5 ∧ ringAdmits s acqC = true ∧ (s.slotRing 4095).avail (syncSide acqC) = true ∧
       (s.slotRing 4095).open s.clk.tc (syncSide acqC) = false)) ∧
    (let s := portState.setSlotRing 4095 { ringOn with full := 0 }
     ∃ u, PortReady s acqC acqC 5 u ∧ portCtxSt u 5 = .ok ∧ s.tableMark = [] ∧
      (ringAdmits s acqC = true ∧ (s.slotRing (syncObj acqC)).avail (syncSide acqC) = false)) ∧
    (let r := req127 (6 + 2 ^ 4 + 2 ^ 12 * 4095)
     ∃ u, PortReady (portRing portState) r r 5 u ∧ portCtxSt u 5 = .ok ∧ (portRing portState).tableMark = [] ∧
      (syncKind r = 6 ∧ syncSide r = 1 ∧ HomesUp (portRing portState) ∧
       relayDenied ((portRing portState).slotRing (syncObj r)) (some (portDom (portRing portState) r)) = false ∧
       ((portRing portState).slotRing (syncObj r)).oldest (syncSide r) (holdEng r.port r.ctx) = some 1)) ∧
    (∃ u, PortReady (portRing portState) (syncReq 6 4095) (syncReq 6 4095) 5 u ∧ portCtxSt u 5 = .ok ∧
      (portRing portState).tableMark = [] ∧
      (PortReleases u (syncReq 6 4095) ((portRing portState).slotRing 4095).scope ∧
       ((portRing portState).slotRing 4095).oldest 0 (holdEng 127 5) = some 3)) :=
  ⟨sync_met (P := fun _ => _) (by decide +kernel) (by decide +kernel),
   sync_met (P := fun _ => _) (by decide +kernel) (by decide +kernel),
   sync_met (P := fun _ => _) (by decide +kernel) (by decide +kernel),
   sync_met (P := fun _ => _) (by decide +kernel) (by unfold HomesUp; decide +kernel),
   sync_met (P := fun _ => _) (by decide +kernel) (by unfold PortReleases; decide +kernel)⟩

/-- A put of `chq3`. -/
def putReq : PortReq := { syncReq 8 1023 with val := BitVec.ofNat 32 chq3 }

/-- What a put needs of its queue. -/
def putFor (s : State) : Bool :=
  !(s.queue 1023).denied (some (portDom s putReq)) && chqCurrent s putReq.val.toNat && !recalled s putReq.val.toNat

theorem test_met_PortSync_cheques :
    (let s := cheques 5 [(chq3, 0)] portState
     ∃ u, PortReady s (syncReq 7 1023) (syncReq 7 1023) 5 u ∧ portCtxSt u 5 = .ok ∧ s.tableMark = [] ∧
      (syncKind (syncReq 7 1023) = 7 ∧ (s.queue 1023).denied (some 2) = false ∧ (s.queue 1023).standing = [] ∧
       queueWaiters s 1023 false = [] ∧ (s.queue 1023).cheques = [(chq3, 0)] ∧ (s.queue 1023).takeTc ≠ some s.clk.tc ∧
       chqCurrent s chq3 = true ∧ (s.pool (chqPool chq3)).permits 2 = true ∧ HomesUp s)) ∧
    (let s := cheques 5 [] portState
     ∃ u, PortReady s (syncReq 7 1023) (syncReq 7 1023) 5 u ∧ portCtxSt u 5 = .ok ∧ s.tableMark = [] ∧
      (s.queue 1023).cheques = []) ∧
    (let s := cheques 5 [] portState
     ∃ u, PortReady s putReq putReq 5 u ∧ portCtxSt u 5 = .ok ∧ s.tableMark = [] ∧
      (syncKind putReq = 8 ∧ PortReleases u putReq (s.queue 1023).scope ∧ putFor s = true ∧
       (s.queue 1023).cheques.length < (s.queue 1023).depth ∧ (s.queue 1023).standing = [] ∧
       queueWaiters s 1023 true = [] ∧ (s.queue 1023).putTc ≠ some s.clk.tc)) ∧
    (let s := cheques 5 (List.replicate 8 (chq3, 0)) portState
     ∃ u, PortReady s putReq putReq 5 u ∧ portCtxSt u 5 = .ok ∧ s.tableMark = [] ∧
      (PortReleases u putReq (s.queue 1023).scope ∧ putFor s = true ∧ (s.queue 1023).depth ≤ (s.queue 1023).cheques.length)) ∧
    (let s := bar31 { barReset with arrived := 1 } portState
     ∃ u, PortReady s (syncReq 9 31) (syncReq 9 31) 5 u ∧ portCtxSt u 5 = .ok ∧ s.tableMark = [] ∧
      (syncKind (syncReq 9 31) = 9 ∧ syncObj (syncReq 9 31) = 31 ∧ barEn s 31 = true ∧ (syncReq 9 31).scope = 0 ∧
       releaseReady u (u.src 127) 0 = true ∧ poolUsed s < 4096 ∧ (s.bar 31).arrived < barCount s 31)) :=
  ⟨sync_met (P := fun _ => _) (by decide +kernel) (by unfold HomesUp; decide +kernel),
   sync_met (P := fun _ => _) (by decide +kernel) (by decide +kernel),
   sync_met (P := fun _ => _) (by decide +kernel) (by unfold PortReleases; decide +kernel),
   sync_met (P := fun _ => _) (by decide +kernel) (by unfold PortReleases; decide +kernel),
   sync_met (P := fun _ => _) (by decide +kernel) (by decide +kernel)⟩

theorem plain_cmdWdNs : PlainReg Reg.cmdWdNs :=
  ⟨by decide, by decide, by decide, fun _ _ _ _ => ⟨rfl, rfl, rfl, rfl⟩⟩

theorem plain_classRsv : PlainReg (Reg.classRsv 15) :=
  ⟨by decide, by decide, by decide, fun _ _ _ _ => ⟨rfl, rfl, rfl, rfl⟩⟩

theorem test_met_RegisterWrites :
    (Live State.reset (regDom Reg.cmdWdNs) ∧ Reg.cmdWdNs % 4 = 0 ∧ (regBlock Reg.cmdWdNs).isSome = true ∧
      PlainReg Reg.cmdWdNs ∧ State.reset.driven Reg.cmdWdNs = 0 ∧ State.reset.counted Reg.cmdWdNs = 0 ∧
      committed State.reset Reg.cmdWdNs = false ∧ committed (commitMark State.reset Reg.cmdWdNs) Reg.cmdWdNs = true ∧
      (commitMark State.reset Reg.cmdWdNs).driven Reg.cmdWdNs = 0 ∧
      (commitMark State.reset Reg.cmdWdNs).counted Reg.cmdWdNs = 0 ∧
      Live (commitMark State.reset Reg.cmdWdNs) (regDom Reg.cmdWdNs) ∧ ∃ r, regRow Reg.cmdWdNs = some r ∧ r.es = 0) ∧
    (Live State.reset (regDom (Reg.classRsv 15)) ∧ (regBlock (Reg.classRsv 15)).isSome = true ∧
      PlainReg (Reg.classRsv 15) ∧ State.reset.driven (Reg.classRsv 15) = 0 ∧
      State.reset.counted (Reg.classRsv 15) = 0 ∧ committed State.reset (Reg.classRsv 15) = false ∧
      ∃ r, regRow (Reg.classRsv 15) = some r ∧ r.es ≠ 0 ∧ r.rw = 0 ∧ r.bt = 0 ∧ r.w1c = 0 ∧ r.w1s = 0) ∧
    (Live State.reset (regDom 8) ∧ (regBlock 8).isSome = true ∧ 8 ≠ Reg.stopCtl ∧ regRow 8 = none) ∧
    Live State.reset (regDom 9) ∧ (Live State.reset (regDom 0xB000) ∧ regBlock 0xB000 = none) :=
  ⟨⟨by decide +kernel, by decide, by decide +kernel, plain_cmdWdNs, by decide +kernel, by decide +kernel, by decide +kernel,
    by decide +kernel, by decide +kernel, by decide +kernel, by decide +kernel, _, rfl, by decide⟩,
   ⟨by decide +kernel, by decide +kernel, plain_classRsv, by decide +kernel, by decide +kernel, by decide +kernel, _, rfl, by decide, by decide, by decide, by decide, by decide⟩,
   by decide +kernel⟩

/-- Session 3 in a state, of owner 9, with its writes. -/
def sess3 (x : SessState) (w : List (Nat × Word)) : State :=
  State.reset.setSess 3 { sessIdle with state := x, owner := 9, writes := w }

/-- COMMIT, ABORT or BEGIN of session 3 by owner 9. -/
def by9 : Word := BitVec.ofNat 32 (9 * 2 ^ 24 + 3)

theorem test_met_EscrowSessions :
    frozen State.reset = false ∧ (State.reset.sess (by9.toNat % 4)).state = .idle ∧
    ((sess3 .opened []).sess (by9.toNat % 4)).state = .opened ∧
    (let s := withRegs [(Reg.escrowStageAddr 3, 9 * 2 ^ 24 + Reg.cmdWdNs)] (sess3 .opened [])
     frozen s = false ∧ s.rgField (Reg.escrowStageAddr 3) 24 8 = (s.sess 3).owner ∧ (s.sess 3).writes.length < 256) ∧
    (let s := withRegs [(Reg.escrowStageAddr 3, 9 * 2 ^ 24)] (sess3 .opened (List.replicate 256 (0, 0#32)))
     s.rgField (Reg.escrowStageAddr 3) 24 8 = (s.sess 3).owner ∧ 256 ≤ (s.sess 3).writes.length) ∧
    ({ sessIdle with overflow := true } : Session).overflow = true ∧ (State.reset.sess 3).state ≠ .opened ∧
    (sess3 .opened []).rgField (Reg.escrowStageAddr 3) 24 8 ≠ ((sess3 .opened []).sess 3).owner ∧
    bits by9.toNat 24 8 = ((sess3 .pending []).sess (by9.toNat % 4)).owner ∧
    ((sess3 .checking []).sess (by9.toNat % 4)).state = .checking := by decide +kernel

theorem test_met_EscrowCommit_checks :
    bits by9.toNat 24 8 = ((sess3 .opened []).sess (by9.toNat % 4)).owner ∧
    bits (3#32).toNat 24 8 ≠ ((sess3 .opened []).sess ((3#32).toNat % 4)).owner ∧
    ((sess3 .checking []).sess 3).abort = false ∧ frozen (sess3 .checking []) = false ∧
    validate (sess3 .checking []) 3 = none ∧ validate (sess3 .checking [(1, 0#32)]) 3 ≠ none := by decide +kernel

/-- Every bank of node 31 in the SLC, session 3 that empties its selection. -/
def slcSess (x : SessState) : State := withRegs [(Reg.slcSel 7, 0xFF000000)] (sess3 x [(Reg.slcSel 7, 0#32)])

theorem test_met_EscrowCommit_time :
    (let s := sess3 .pending [(Reg.cmdWdNs, 77#32)]
     Live s dFAB ∧ (s.sess 3).state = .pending ∧ (s.sess 3).time ≤ s.now ∧ escBehind s 3 = false ∧
     slcChanges s 3 = false ∧ validate s 3 = none ∧ (s.sess 3).writes = [(Reg.cmdWdNs, 77#32)] ∧
     s.driven Reg.cmdWdNs = 0 ∧ s.counted Reg.cmdWdNs = 0 ∧
     PlainReg Reg.cmdWdNs ∧ (∃ r, regRow Reg.cmdWdNs = some r) ∧ isSlc Reg.cmdWdNs = false ∧
     isRsv Reg.cmdWdNs = false ∧ retrainWord Reg.cmdWdNs = none ∧ s.rgBit Reg.evlCtl 0 = false) ∧
    (let s := sess3 .pending [(1, 0#32)]
     slcChanges s 3 = false ∧ validate s 3 ≠ none ∧ escBehind s 3 = false) ∧
    (let s := slcSess .pending
     Live s dFAB ∧ escBehind s 3 = false ∧ slcChanges s 3 = true ∧ slcBanks s ≠ 0) ∧
    (let s := slcSess .draining
     (s.sess (by9.toNat % 4)).state = .draining ∧ bits by9.toNat 24 8 = (s.sess (by9.toNat % 4)).owner) :=
  ⟨⟨by decide +kernel, by decide +kernel, by decide +kernel, by decide +kernel, by decide +kernel, by decide +kernel,
    by decide +kernel, by decide +kernel, by decide +kernel, plain_cmdWdNs, ⟨_, rfl⟩, by decide +kernel⟩, by decide +kernel⟩

/-- The state whose drain is over. -/
def drained (s : State) : State := let w := slcEmpty s; { w with slc := { w.slc with draining := false } }

theorem test_met_EscrowCommit_drained :
    (Live (slcSess .draining) dFAB ∧ ((slcSess .draining).sess 3).state = .draining ∧
      validate (drained (slcSess .draining)) 3 = none) ∧
    (let s := sess3 .draining [(1, 0#32)]
     Live s dFAB ∧ (s.sess 3).state = .draining ∧ validate (drained s) 3 ≠ none) := by decide +kernel

/-! ## Ill-formed commands are refused -/

theorem test_wf_refuses_units :
    Instr.wf (.copy 1024) = false ∧ Instr.wf (.evrEnable 16 0#32) = false ∧ Instr.wf (.cringHeadWrite true 16 0#32) = false ∧
    Instr.wf (.rd 32 0) = false ∧ Instr.wf (.rd 0 8) = false ∧ Instr.wf (.lendAssert 32) = false ∧
    Instr.wf (.scrubWriteBack 256) = false ∧ Instr.wf (.quarantineWindowEnd 256) = false ∧
    Instr.wf (.clerkAlert 0#32 4096) = false ∧ Instr.wf (.wakePattern 16) = false ∧ Instr.wf (.ctxUnbindFinish 40960) = false ∧
    Instr.wf (.tallyWalkDone 0 65536 0) = false ∧ Instr.wf (.tallyWalkDone 0 0 (2 ^ 27)) = false ∧
    Instr.wf (.frameSetWithdrawn 81920) = false ∧ Instr.wf (.groupModeSwitch 1280) = false ∧
    Instr.wf (.repairSwitch 2) = false ∧ Instr.wf (.retrainDone 0 33) = false := by decide +kernel

theorem test_wf_refuses_values :
    Instr.wf (.rowRepaired 0 0 (2 ^ 32)) = false ∧ Instr.wf (.stackReadData 0 0 512 0#2) = false ∧
    Instr.wf (.stackLevel 0 0 16) = false ∧ Instr.wf (.ptSyncMark (2 ^ 64)) = false ∧ Instr.wf (.linkUp 4) = false ∧
    Instr.wf (.remoteFlagWrite 0 0#64 0 16) = false ∧ Instr.wf (.portWriteBeat 128 []) = false ∧
    Instr.wf (.slotRingEnable 4096 0#64) = false ∧ Instr.wf (.slotConsumerReleaseDone 0 64) = false ∧
    Instr.wf (.slotAcquireRetry 0 2) = false ∧ Instr.wf (.put 1024 0#64 0) = false ∧ Instr.wf (.recall 256 0#64) = false ∧
    Instr.wf (.flagsWrite 0x20000 (toBytes 8 0) 0) = false ∧ Instr.wf (.flagsWrite 0 [] 0) = false ∧ Instr.wf (.barDisable 32 0#32) = false ∧
    Instr.wf (.relayErrorReport 0 0 512 .faultProt) = false ∧ Instr.wf (.relayErrorReport 0 0 0 .okLate) = false ∧
    Instr.wf (.commandComplete 0 (2 ^ 32)) = false ∧ Instr.wf (.pstoreLowWrite 32768 0#32) = false := by decide +kernel

theorem test_wf_refuses_rest :
    Instr.wf (.domainWake 37 0 0) = false ∧ Instr.wf (.domainWake 0 16 0) = false ∧
    Instr.wf (.quarantineRelease 6 0#32) = false ∧ Instr.wf (.lockup 4 0 0 0) = false ∧ Instr.wf (.lockup 0 0 64 0) = false ∧
    Instr.wf (.escrowDrainDone 4) = false ∧ Instr.wf (.lifeCycleChange 8) = false ∧ Instr.wf (.auditTake 5 0) = false ∧
    Instr.wf (.registerWrite (2 ^ 24) 0#32 0) = false ∧ Instr.wf (.debugAccess (2 ^ 47) none) = false ∧
    Instr.wf (.tapInstrumentAccess false (2 ^ 24) none) = false ∧ Instr.wf (.slotChequeControlWrite 0x54000 0#64 0) = false ∧
    Instr.wf (.doorbell 0 4096 8 0#64) = false ∧ Instr.wf (.doorbell 0 0 0 0#64) = false ∧
    Instr.wf (.ptNowLoRead (2 ^ 24)) = false ∧ Instr.wf (.thermUpdate []) = false ∧
    Instr.wf (.powerEstimateUpdate [1] 0) = false := by decide +kernel

/-- A header's segment of n granules at a target. -/
def segN (n target : Nat) : Segment := { segTo 0 .read target with count := n }

theorem test_wf_refuses_compound :
    Instr.wf (.segmentIssue (segN 17 0)) = false ∧ Instr.wf (.segmentIssue (segN 0 0)) = false ∧
    Instr.wf (.segmentIssue (segN 2 1920)) = false ∧ Instr.wf (.segmentIssue (segN 1 64)) = false ∧
    Instr.wf (.segmentIssue { segTo 0 .write 0 with data := List.replicate 2 (1#1024, BitVec.allOnes 128) }) = false ∧
    Instr.wf (.portRd { portReq with addr := 2 ^ 48 }) = false ∧ Instr.wf (.portRd { portReq with stride := 8388608 }) = false ∧
    Instr.wf (.portWr portReq (List.replicate 2049 (0#8, true))) = false ∧
    Instr.wf (.linkControlFlit 0 none [(0, true, 64)]) = false ∧
    Instr.wf (.relayGrant 0 8) = false ∧
    Instr.wf (.relayReservation 0 0 (some { hopOf 1 with die := 16 })) = false ∧
    Instr.wf (.flagOperationPerform 0 [(4096, true)]) = false ∧
    Instr.wf (.meshRailGrant 0 0 0) = false ∧ Instr.wf (.meshRailGrant 3 7 1) = false ∧ Instr.wf (.segmentIssue (segN 16 2048)) = true := by decide +kernel

theorem test_wf_refuses_more :
    Instr.wf (.ptProbeDone [] [] [] []) = false ∧ Instr.wf (.quarantineWindowEnd 170) = false ∧ Instr.wf (.evlRecordPlace 170) = false ∧
    Instr.wf (.lockup 1 0 0 0) = false ∧ Instr.wf (.lockup 3 0 4 0) = false ∧ Instr.wf (.lockup 2 64 0 0) = false ∧
    Instr.wf (.segmentIssue { segTo 0 .read 0 with data := [(1#1024, BitVec.allOnes 128)] }) = false ∧
    Instr.wf (.segmentIssue { segTo 0 .read 0 with src := 170 }) = false ∧
    Instr.wf (.linkFlitReceive 0 { flitTo 15 true with lane := 16 }) = false ∧
    Instr.wf (.linkFlitReceive 0 { flitTo 15 true with relay := some (256, hopOf 1) }) = false ∧
    Instr.wf (.tellerGrant 0 [{ ownerRead with row := 16384 }]) = false ∧ Instr.wf (.relayGrant 32 0) = false ∧
    Instr.wf (.relayReservation 0 0 (some { hopOf 1 with chain := [] })) = false := by
  decide +kernel

/-! ## Worked examples of the spec -/

/-- R18: the VXP port of node 21 on die 6 is source 1,622. -/
theorem test_source_number :
    { State.reset with pwr := { State.reset.pwr with dieId := 6 } : State }.src 86 = 1622 := by decide +kernel

/-- R41's example: a deadline 1,000 ns ahead near a wrap, one 300 ns past, one clamped. -/
theorem test_short_stamps :
    shortStamp 0x100FFFF00 (0x100FFFF00 + 1000) = 744 ∧ remaining 0x100FFFF00 744 = 1000 ∧
    shortStamp 0x100FFFF00 (0x100FFFF00 - 300) = 16776660 ∧ remaining 0x100FFFF00 16776660 = -300 ∧
    shortStamp 0x100FFFF00 (0x100FFFF00 + 20000000) = 8388351 ∧ remaining 0x100FFFF00 8388351 = 8388607 := by
  decide +kernel

/-- The example of R53: θ = −1.125 ns and δ = 20.375 ns, in sixteenths, of probes that average to its times. -/
theorem test_probe_example :
    (let l (a b : Int) := List.replicate 32 a ++ List.replicate 32 b
     let s := next (.ptProbeDone (l 16000 16000) (l 16342 16346) (l 16480 16480) (l 16790 16786)) { State.reset with pt := { State.reset.pt with probe := some 1 } }
     s.rg Reg.ptProbeTheta = 2 ^ 24 - 18 ∧ s.rg Reg.ptProbeDelay = 326) := by decide +kernel

/-- The translation example of Chapter 3: the set, the bucket, the die channel and its offset, the PPA. -/
theorem test_translation_example :
    tallySet 0x0123 0x2051 = 0x32 ∧ ledgerHash 0x0123 0x2051 = 8562 ∧
    stackPlace (withRegs [(Reg.fgrpMode (78 / 16), 0)] State.reset) (5034 * 2 ^ 21 + 0x1C2880) = (50, 0x09CE1480) ∧
    diePPA 6 8 (5034 * 2 ^ 21 + 0x1C2880) = 0x340002755C2880 := by decide +kernel

/-- The boost example of Chapter 5, and its withdrawn channel: L_1 = 5,356 GB/s. -/
theorem test_regulation_example :
    newBoost 2000 0 15600000 10000 = 1 ∧ newBoost 2000 1 14200000 10000 = 1 ∧ newBoost 2000 1 9400000 10000 = 0 ∧
    (let s := { State.reset with pwr := { State.reset.pwr with clkMode := 0 } }
     admitLimit s 0 = 5529 ∧ admitLimit (s.setChan 1 5 { s.chan 1 5 with state := .withdrawn }) 1 = 5356) := by
  decide +kernel

/-- Reservations 3,200, 1,800 and 400 on both stacks, and channel 37 withdrawn. -/
def reserved : State :=
  let s := withRegs [(Reg.classRsv 1, 3200 * 65537), (Reg.classRsv 4, 1800 * 65537), (Reg.classRsv 12, 400 * 65537)]
    { State.reset with pwr := { State.reset.pwr with clkMode := 0 } }
  s.setChan 1 5 { s.chan 1 5 with state := .withdrawn }

/-- The cut of Chapter 5's example falls on class 12: EFF12,1 = 356, SHORTFALL1 = 44. -/
theorem test_rescale_example :
    (let s := rescale reserved
     rsvEff s 12 1 = 356 ∧ rsvEff s 12 0 = 400 ∧ rsvEff s 4 1 = 1800 ∧ shortfall s 1 = 44 ∧ shortfall s 0 = 0) := by
  decide +kernel

/-- The commit of Chapter 17's example: 1,900 and 300 are refused with CAUSE 4 at the first write, 1,900 and 244 pass. -/
theorem test_escrow_example :
    validate (reserved.setSess 1 { sessIdle with writes := [(0x4090, 0x076C076C#32), (0x40B0, 0x012C012C#32)] }) 1 =
      some (4, 0) ∧
    validate (reserved.setSess 1 { sessIdle with writes := [(0x4090, 0x076C076C#32), (0x40B0, 0x00F400F4#32)] }) 1 =
      none := by decide +kernel

/-- The doorbell of Chapter 6's example: 3 descriptors more than TAIL 254 in a ring of 256. -/
theorem test_doorbell_example :
    (let s := withRegs [(Reg.cmdrCfg 7, 8), (Reg.cmdrCtl 7, 1), (Reg.cmdrHead 7, 254), (Reg.cmdrTail 7, 254)]
       (State.reset.setRing 7 { state := .running, err := 0, fetched := [], batches := [] })
     (next (.doorbell 7 0 8 257#64) s).rg (Reg.cmdrTail 7) = 257) := by decide +kernel

/-- The header of Chapter 9's CODED block, and the bytes after it. -/
def cwsBlock : List Byte :=
  [0x3C#8, 0xBC#8, 0x3D#8] ++ List.replicate 8 0#8 ++ List.replicate 7 0x11#8 ++ [0xF2#8] ++ List.replicate 31 0x80#8 ++
  [0x20#8, 0x40#8, 0#8, 0#8, 0#8, 0#8]

/-- Chapter 9's block decodes to 0x3C80 16 times, 0xBC80 14 times, 0x3D80 and 0x4020, with its check 0x94A0. -/
theorem test_cws_example :
    cwsBad 0x94A000080001_0C00 none = false ∧
    cwsElems 0x94A000080001_0C00 cwsBlock =
      some (List.replicate 16 0x3C80 ++ List.replicate 14 0xBC80 ++ [0x3D80, 0x4020]) ∧
    (List.replicate 16 0x3C80 ++ List.replicate 14 0xBC80 ++ [0x3D80, 0x4020]).sum % 65536 = 0x94A0 := by decide +kernel

/-- Minted to MXFP6_E2M3 the block has scale 0x7E and the codes +0, −0, 0b000001 and 0b011010. -/
theorem test_mint_example :
    (let c := mcode (13 + 7 * 16) 0
     let vals := (List.replicate 16 0x3C80 ++ List.replicate 14 0xBC80 ++ [0x3D80, 0x4020]).map (decodeF bf16)
     let r := encGroup c (mfmt 7 0) 0 vals { gen := 0, sat := 0, nan := 0 }
     r.1 = List.replicate 16 0 ++ List.replicate 14 32 ++ [1, 26] ∧ r.2.1 = 0x7E) := by decide +kernel

/-- Pool 5 of Chapter 8's example: queue 201 is its FREEQ, buffer 9 has generation 3. -/
def pool5 : State :=
  ((((State.reset.setPool 5 { poolEmpty with cfg := BitVec.ofNat 64 (5 + 2 ^ 9 * 201), size := BitVec.ofNat 64 (16384 + 2 ^ 32 * 64) }).setGen 9 3).setQueue
    201 { queueEmpty with cfg := 0x4003#64 }).setQueue 200 { queueEmpty with cfg := 0x4003#64 })

/-- Chapter 8's example: the put into FREEQ advances the generation and stores 0x4050_0009; the old cheque is stale. -/
theorem test_cheque_example :
    chqCva pool5 0x30500009 = 0x24000 ∧
    (let s := next (.put 201 0x30500009#64 86) pool5
     (s.queue 201).cheques.map (·.1) = [0x40500009] ∧ s.gen 9 = 4 ∧
     ((next (.put 200 0x30500009#64 86) s).queue 200).cheques = [] ∧
     ((next (.put 200 0x30500009#64 86) s).queue 200).putStale = true) := by decide +kernel

/-- Chapter 11's example: at the release of round 40 the four held arrivals move to ARRIVED and TOGGLE is EXPECT again. -/
theorem test_barrier_example :
    (let s := (withRegs [(Reg.barCfg 5, 7)] State.reset).setBar 5
       { barReset with toggle := true, expect := true, arrived := 4, held := 4, round := 40 }
     let b := (next (.barrierReleaseSeen 5) s).bar 5
     b.expect = false ∧ b.round = 41 ∧ b.arrived = 4 ∧ b.held = 0 ∧ b.toggle = false) := by decide +kernel

/-- Chapter 13's example: ARG0 and ARG1 of a RAS_ERROR record. -/
theorem test_ras_example :
    (let s := withRegs [(Reg.evtRoute0, 2 ^ 14)] State.reset
     (rasError s 1622 none 0x02 0x00300000_15A1F400 1 173 0x18 0).ras.clerkQ.map (fun r => (r.arg0, r.arg1)) =
       [(0x02300000_15A1F400#64, 0x001802AD#64)]) := by decide +kernel

/-- R10's example hops: node 21 to node 16 is 5. -/
theorem test_hops : hops 21 16 = 5 ∧ hops 0 31 = 10 ∧ hops 7 7 = 0 := by decide +kernel

/-- The invariant of StepKeepsMemoryCanonical holds at reset. -/
theorem reset_inv : memCanonical State.reset = true := by decide

/-- No word spells a command: the table gives its rows no bits. -/
theorem test_no_words : decodeTableWord 32 7 = none ∧ (State.reset.withFetchWord 32 7).pending = [] := by decide +kernel

end Sys2Proof.Tests
end

/-! SUPPORT. The statements of regulation (Chapter 5) and of the audit and the event counters (Chapter 15) that rest on R12:
first what a run of table updates and one bit read back as, then the rule of each operation, then the two obligations. -/

namespace Sys2Proof.Machine

/-! ## Tables and bits -/

/-- Entries set one after another where a condition holds: a key of the list that meets it reads its value, every other key
reads as before. -/
theorem tget_foldl_tset {α : Type} [DecidableEq α] (d : α) (p : Nat → Bool) (f : Nat → α) (l : List Nat) (t : Table α)
    (j : Nat) :
    tget d (l.foldl (fun t k => if p k then tset d t k (f k) else t) t) j =
      if j ∈ l ∧ p j = true then f j else tget d t j := by
  induction l generalizing t with
  | nil => simp
  | cons k l ih =>
    rw [List.foldl_cons, ih]
    by_cases hl : j ∈ l ∧ p j = true
    · rw [if_pos hl, if_pos ⟨List.mem_cons_of_mem _ hl.1, hl.2⟩]
    · rw [if_neg hl]
      by_cases hjk : j = k
      · subst hjk
        cases hp : p j with
        | true => simp [tget_tset_same]
        | false => simp
      · have hmem : ¬ (j ∈ k :: l ∧ p j = true) := fun h => hl ⟨(List.mem_cons.mp h.1).resolve_left hjk, h.2⟩
        rw [if_neg hmem]
        split
        · exact tget_tset_other _ _ _ _ _ _ hjk
        · rfl

/-- Entries set to the default are not listed, so a table built of them alone is empty. -/
theorem foldl_tset_default {α β : Type} [DecidableEq α] (d : α) (key : β → Nat) (l : List β) :
    l.foldl (fun t e => tset d t (key e) d) ([] : Table α) = [] := by
  induction l with
  | nil => rfl
  | cons e l ih => simpa [tset, terase] using ih

theorem bit_eq_testBit (x i : Nat) : bit x i = x.testBit i := by
  simp [bit, bits, Nat.testBit, Nat.shiftRight_eq_div_pow, Nat.one_and_eq_mod_two]

/-- The low bits of a number are the bits of the number. -/
theorem bit_mod_two_pow (x : Nat) {n i : Nat} (h : i < n) : bit (x % 2 ^ n) i = bit x i := by
  simp [bit_eq_testBit, Nat.testBit_mod_two_pow, h]

/-! ## Words of an audit's image -/

/-- Words put into an image leave the words before their offset. -/
theorem tget_putWords_below (t : Table DWord) (off k : Nat) (ws : List Nat) (h : k < off / 8) :
    tget 0#64 (putWords t off ws) k = tget 0#64 t k := by
  unfold putWords
  generalize off / 8 = i at h
  induction ws generalizing i t with
  | nil => rfl
  | cons w ws ih =>
    rw [List.foldl_cons, ih _ _ (by omega)]
    exact tget_tset_other _ _ _ _ _ _ (by omega)

/-- The first of the words put into an image stands at their offset. -/
theorem tget_putWords_first (t : Table DWord) (off w : Nat) (ws : List Nat) :
    tget 0#64 (putWords t off (w :: ws)) (off / 8) = BitVec.ofNat 64 w := by
  have later : putWords t off (w :: ws) =
      putWords (tset 0#64 t (off / 8) (BitVec.ofNat 64 w)) (8 * (off / 8 + 1)) ws := by
    unfold putWords
    rw [List.foldl_cons, Nat.mul_div_cancel_left _ (by omega)]
  rw [later, tget_putWords_below _ _ _ _ (by omega), tget_tset_same]

/-- The first word of an audit's image is its START (Table 15.3). -/
theorem tget_auditImage_start (s : State) (trigger tsrc fin : Nat) :
    tget 0#64 (auditImage s trigger tsrc fin) 0 = BitVec.ofNat 64 s.now := by
  unfold auditImage
  dsimp only
  iterate 14 rw [tget_putWords_below _ _ _ _ (by decide)]
  exact tget_putWords_first [] 0 s.now _

/-! ## The window boundary (R115, R119, R121, R124) -/

/-- The boost update of a boundary writes the boost levels, the samples and REGU_BOOST, and sets REGU_STATUS.BOOST where a
level rose from 0 (R121). -/
theorem boostUpdate_cases (s : State) : ∃ (levels : Table Nat) (v : Nat),
    let t := ({ s with regu := { s.regu with boost := levels, sampleSum := [], sampleCnt := [] } } : State).setRg
      Reg.reguBoost v
    boostUpdate s = t ∨ boostUpdate s = t.setRgBit Reg.reguStatus 2 true := by
  unfold boostUpdate
  dsimp only
  split
  · exact ⟨_, _, .inr rfl⟩
  · exact ⟨_, _, .inl rfl⟩

theorem boostUpdate_regu (s : State) :
    (boostUpdate s).regu =
      { s.regu with boost := (boostUpdate s).regu.boost, sampleSum := [], sampleCnt := [] } := by
  obtain ⟨levels, v, h | h⟩ := boostUpdate_cases s <;> rw [h] <;> rfl

theorem boostUpdate_frame (s : State) :
    boostUpdate s =
      { s with regu := (boostUpdate s).regu, regs := (boostUpdate s).regs, hw := (boostUpdate s).hw } := by
  obtain ⟨levels, v, h | h⟩ := boostUpdate_cases s <;> rw [h] <;> rfl

theorem boostUpdate_regsBut (s : State) : RegsBut [Reg.reguBoost, Reg.reguStatus] s (boostUpdate s) := by
  obtain ⟨levels, v, h | h⟩ := boostUpdate_cases s <;> rw [h]
  · exact regsBut_setRg (by simp) (regsBut_of_regs rfl (regsBut_refl _ s))
  · exact regsBut_setRgBit (by simp) (regsBut_setRg (by simp) (regsBut_of_regs rfl (regsBut_refl _ s)))

/-- Each reservation meter is loaded with EFF × 2^w (R124). -/
theorem tget_loadMeters (s : State) {k : Nat} (h : k < 32) :
    tget 0 (loadMeters s).regu.meter k = rsvEff s (k % 16) (k / 16) * 2 ^ windowExp s := by
  have e := tget_foldl_tset 0 (fun _ => true) (fun k => rsvEff s (k % 16) (k / 16) * 2 ^ windowExp s) (List.range 32) [] k
  simpa [loadMeters, h] using e

/-- The regulator at a boundary, before the boost update: purses reloaded, meters loaded, charging as EN says. -/
def windowLoaded (s : State) : State :=
  loadMeters { s with regu := { s.regu with
    window := s.now / 2 ^ windowExp s, allow := purseWords s 0, balance := purseWords s 0, odCap := purseWords s 4,
    odUsed := [], charging := s.rgBit Reg.reguCtl 0 } }

theorem windowStart_eq (s : State) : windowStart s = boostUpdate (windowLoaded s) := rfl

theorem windowStart_regu (s : State) :
    (windowStart s).regu =
      { (windowLoaded s).regu with boost := (windowStart s).regu.boost, sampleSum := [], sampleCnt := [] } := by
  rw [windowStart_eq]
  exact boostUpdate_regu _

theorem windowStart_meter (s : State) {k : Nat} (h : k < 32) :
    tget 0 (windowStart s).regu.meter k = rsvEff s (k % 16) (k / 16) * 2 ^ windowExp s := by
  rw [windowStart_regu]
  exact tget_loadMeters _ h

theorem windowStart_frame (s : State) :
    windowStart s =
      { s with regu := (windowStart s).regu, regs := (windowStart s).regs, hw := (windowStart s).hw } := by
  rw [windowStart_eq]
  exact boostUpdate_frame (windowLoaded s)

theorem windowStart_regsBut (s : State) : RegsBut [Reg.reguBoost, Reg.reguStatus] s (windowStart s) := by
  rw [windowStart_eq]
  exact boostUpdate_regsBut (windowLoaded s)

theorem exec_windowBoundary {s : State} (h : frozen s = false) : exec .windowBoundary s = .next (windowDue s) :=
  gateAO_awake h _

theorem windowDue_due {s : State} (h : s.regu.window < s.now / 2 ^ windowExp s) : windowDue s = windowStart s :=
  if_pos h

theorem windowDue_early {s : State} (h : s.now / 2 ^ windowExp s ≤ s.regu.window) : windowDue s = s :=
  if_neg (Nat.not_lt.mpr h)

/-! ## The clear of class counters (R12, R127) -/

@[simp] theorem touch_counted (s : State) (d k : Nat) : (touch s d).counted k = s.counted k := by
  unfold touch; split <;> rfl

/-- A counter of a class after a clear: what it counted in this tc where its class is named, as before where not. -/
theorem tget_classClear (s : State) (v : Nat) {c i : Nat} (hc : c < 16) (hi : i < 16) :
    tget 0 (classClear s v).regu.counters (16 * c + i) =
      if bit v c = true then s.counted (2 ^ 20 + (16 * c + i)) else tget 0 s.regu.counters (16 * c + i) := by
  have hk : (16 * c + i) / 16 = c := by omega
  have hm : 16 * c + i ∈ List.range 256 := List.mem_range.mpr (by omega)
  have e := tget_foldl_tset 0 (fun k => bit v (k / 16)) (fun k => s.counted (2 ^ 20 + k)) (List.range 256)
    s.regu.counters (16 * c + i)
  rw [hk] at e
  unfold classClear
  dsimp only
  rw [e]
  exact if_congr (and_iff_right hm) rfl rfl

theorem exec_reguCntClrWrite {s : State} (h : Live s dFAB) (v : Word) :
    exec (.reguCntClrWrite v) s = .next (classClear (touch s dFAB) (v.toNat % 2 ^ 16)) :=
  gate_live h 7 0 (.reguCntClrWrite v) (fun s => classClear s (v.toNat % 2 ^ 16))

/-! ## The decision at issue (R116) -/

section
variable {s : State} {u c g hold : Nat} (hch : s.regu.charging = true) (hen : s.rgBit Reg.reguCtl 0 = true)
  (hu : u < 160)
include hch hen hu

/-- While purses are charged, a purse master's segment is decided by its balance, then by its overdraft cap, then by the hold
of its path (R116). -/
theorem purseDecide_charged :
    purseDecide s u c g hold =
      if g ≤ tget 0 s.regu.balance (purseKey u c) then .purse
      else if odCapOf s (purseKey u c) = 0xFFFFF ∨
          tget 0 s.regu.odUsed (purseKey u c) + g ≤ odCapOf s (purseKey u c) then
        if hold ∈ s.regu.holds then .held else .overdraft
      else .capped := by
  unfold purseDecide
  rw [hch, hen, if_neg]
  simpa using hu

theorem purseDecide_covered (hg : g ≤ tget 0 s.regu.balance (purseKey u c)) : purseDecide s u c g hold = .purse := by
  rw [purseDecide_charged hch hen hu, if_pos hg]

theorem purseDecide_capped (hg : tget 0 s.regu.balance (purseKey u c) < g) (hinf : odCapOf s (purseKey u c) ≠ 0xFFFFF)
    (hcap : odCapOf s (purseKey u c) < tget 0 s.regu.odUsed (purseKey u c) + g) :
    purseDecide s u c g hold = .capped := by
  rw [purseDecide_charged hch hen hu, if_neg (Nat.not_le.mpr hg), if_neg]
  rintro (h | h)
  · exact hinf h
  · exact Nat.not_le.mpr hcap h

theorem purseDecide_overdraws (hg : tget 0 s.regu.balance (purseKey u c) < g)
    (hroom : tget 0 s.regu.odUsed (purseKey u c) + g ≤ odCapOf s (purseKey u c)) :
    purseDecide s u c g hold = if hold ∈ s.regu.holds then .held else .overdraft := by
  rw [purseDecide_charged hch hen hu, if_neg (Nat.not_le.mpr hg), if_pos (.inr hroom)]

end

/-- Settles O21: the boundary by the rules of windowStart, the clear by tget_classClear, the issue by the cases of
purseDecide. -/
theorem regulation : Obligations.Regulation := by
  unfold Obligations.Regulation
  refine ⟨?boundary, ?early, ?clear, ?decide⟩
  case boundary =>
    intro s hf hw
    refine ⟨windowStart s, by rw [exec_windowBoundary hf, windowDue_due hw], ?_⟩
    have hr := windowStart_regu s
    refine ⟨?_, ?_, ?_, ?_, ?_, fun k hk => windowStart_meter s hk, ?_, windowStart_regsBut s, windowStart_frame s⟩ <;>
      (rw [hr]; rfl)
  case early =>
    intro s hf hw
    rw [exec_windowBoundary hf, windowDue_early hw]
  case clear =>
    intro s v hl
    refine ⟨_, exec_reguCntClrWrite hl v, fun c i hc hi hb => ?_, fun c i hc hi hb => ?_, ?_⟩
    · rw [tget_classClear _ _ hc hi, bit_mod_two_pow _ hc, if_pos hb, touch_counted]
    · rw [tget_classClear _ _ hc hi, bit_mod_two_pow _ hc, hb, if_neg Bool.false_ne_true, touch_regu]
    · unfold classClear
      rw [touch_regu]
  case decide =>
    intro s u c g hold hch hen hu
    exact ⟨purseDecide_covered hch hen hu, purseDecide_capped hch hen hu, purseDecide_overdraws hch hen hu⟩

/-! ## The audit (R372) -/

theorem exec_auditTake {s : State} (h : frozen s = false) (n src : Nat) :
    exec (.auditTake n src) s =
      .next (if n = 0 then auditTake s 0 0 else if n ≤ 4 then auditArmed s n (src % 4096) else s) :=
  gateAO_awake h (fun s => if n = 0 then auditTake s 0 0 else if n ≤ 4 then auditArmed s n (src % 4096) else s)

theorem exec_auditTake_write {s : State} (h : frozen s = false) (src : Nat) :
    exec (.auditTake 0 src) s = .next (auditTake s 0 0) :=
  exec_auditTake h 0 src

theorem exec_auditTake_armed {s : State} (h : frozen s = false) {n : Nat} (h1 : 1 ≤ n) (h4 : n ≤ 4) (src : Nat) :
    exec (.auditTake n src) s = .next (auditArmed s n (src % 4096)) := by
  rw [exec_auditTake h, if_neg (by omega), if_pos h4]

/-- A trigger starts a sweep where the buffer is free and no sweep runs. -/
theorem auditTake_starts {s : State} (hfull : s.rgBit Reg.auditStatus 1 = false) (hbusy : s.obs.auditBusy = false)
    (trigger tsrc : Nat) :
    auditTake s trigger tsrc =
      { s with obs := { s.obs with audit := auditImage s trigger tsrc 0, auditBusy := true,
                                   auditEnd := s.clk.tc + 1024 } }.setRgBit Reg.auditStatus 0 true := by
  simp [auditTake, auditFull, hfull, hbusy]

/-- A trigger that finds the buffer full or a sweep running is counted in AUDIT_MISSED. -/
theorem auditTake_missed {s : State} (h : s.rgBit Reg.auditStatus 1 = true ∨ s.obs.auditBusy = true)
    (trigger tsrc : Nat) : auditTake s trigger tsrc = s.countRg Reg.auditMissed 1 := by
  unfold auditTake auditFull
  rw [if_pos (by simpa using h)]

theorem auditArmed_unarmed {s : State} {n : Nat} (h : s.rgBit Reg.auditCtl (if n = 4 then 2 else 1) = false)
    (tsrc : Nat) : auditArmed s n tsrc = s := by
  simp [auditArmed, h]

theorem exec_auditDone {s : State} (h : frozen s = false) : exec .auditDone s = .next (auditDone s) :=
  gateAO_awake h _

/-- A sweep that is due ends: FULL alone stands in AUDIT_STATUS, and the image holds END. -/
theorem auditDone_due {s : State} (hb : s.obs.auditBusy = true) (hd : s.obs.auditEnd ≤ s.clk.tc) :
    auditDone s = { s with obs := { s.obs with
      audit := putWords s.obs.audit 8 [s.now], auditBusy := false } }.setRg Reg.auditStatus 2 := by
  simp [auditDone, hb, hd]

theorem auditDone_early {s : State} (hd : s.clk.tc < s.obs.auditEnd) : auditDone s = s := by
  simp [auditDone, Nat.not_le.mpr hd]

/-- A RELEASE without a TAKE writes the armed triggers and clears FULL (Table 15.9). -/
theorem exec_auditRelease {s : State} (h : frozen s = false) {v : Word} (h3 : bit v.toNat 3 = true)
    (h0 : bit v.toNat 0 = false) :
    exec (.auditRelease v) s =
      .next ((s.setRg Reg.auditCtl (v.toNat % 8 / 2 * 2)).setRgBit Reg.auditStatus 1 false) := by
  have e : exec (.auditRelease v) s = .next (if bit v.toNat 3 then auditCtlWrite s v.toNat else s) :=
    gateAO_awake h (fun s => if bit v.toNat 3 then auditCtlWrite s v.toNat else s)
  rw [e, if_pos h3]
  simp [auditCtlWrite, h3, h0]

/-! ## The event counters (R12, R379) -/

theorem exec_cntClr {s : State} (h : Live s dFAB) (v : Word) :
    exec (.cntClr v) s =
      .next (if bit v.toNat 1 then cntCtlWrite (touch s dFAB) v.toNat else touch s dFAB) :=
  gate_live h _ _ _ _

/-- CLR empties the counters when none counted in its tc. -/
theorem cntCtlWrite_clear {s : State} {v : Nat} (h : bit v 1 = true) (hq : ∀ k, s.counted (2 ^ 21 + k) = 0) :
    cntCtlWrite s v =
      { s.setRg Reg.cntCtl (v % 2) with obs := { s.obs with counters := [] } } := by
  simp only [cntCtlWrite, h, if_true, hq, foldl_tset_default, setRg_obs]

/-- Settles O55: each clause by the rule of its operation above. -/
theorem auditAndCounters : Obligations.AuditAndCounters := by
  unfold Obligations.AuditAndCounters
  refine ⟨?take, ?missed, ?unarmed, ?done, ?release, ?clear, ?noClear⟩
  case take =>
    intro s src hf hfull hbusy
    refine ⟨_, exec_auditTake_write hf src, ?_⟩
    rw [auditTake_starts hfull hbusy]
    exact ⟨rfl, rfl, rgBit_setRgBit_same _ _ _ _ (by decide), tget_auditImage_start s 0 0 0,
      regsBut_setRgBit (by simp) (regsBut_of_regs rfl (regsBut_refl _ s)), rfl⟩
  case missed =>
    intro s src hf h
    refine ⟨_, exec_auditTake_write hf src, ?_⟩
    rw [auditTake_missed h]
    refine ⟨?_, regsBut_of_regs rfl (regsBut_setRg (v := min (s.rg Reg.auditMissed + 1) 0xFFFFFFFF) (by simp)
      (regsBut_refl _ s)), rfl⟩
    rw [rg_countRg, rg_setRg_same, Nat.mod_eq_of_lt (by omega)]
  case unarmed =>
    intro s n src hf h1 h4 hbit
    rw [exec_auditTake_armed hf h1 h4, auditArmed_unarmed hbit]
  case done =>
    intro s hf hb
    refine ⟨fun hd => ⟨_, exec_auditDone hf, ?_⟩, fun hd => by rw [exec_auditDone hf, auditDone_early hd]⟩
    rw [auditDone_due hb hd]
    exact ⟨rfl, rg_setRg_same _ _ _, tget_putWords_first _ 8 _ _,
      regsBut_setRg (by simp) (regsBut_of_regs rfl (regsBut_refl _ s)), rfl⟩
  case release =>
    intro s v hf h3 h0
    refine ⟨_, exec_auditRelease hf h3 h0, rgBit_setRgBit_same _ _ _ _ (by decide), ?_,
      regsBut_setRgBit (by simp) (regsBut_setRg (by simp) (regsBut_refl _ s)), rfl⟩
    rw [rg_setRgBit, rg_setRg_other _ _ _ _ (by decide), rg_setRg_same, Nat.mod_eq_of_lt (by omega)]
  case clear =>
    intro s v hl h1 hq
    refine ⟨_, exec_cntClr hl v, ?_⟩
    rw [if_pos h1, cntCtlWrite_clear h1 (by simpa using hq)]
    refine ⟨rfl, ?_, regsBut_of_regs rfl (regsBut_setRg (v := v.toNat % 2) (by simp)
      (regsBut_of_regs (touch_regs s dFAB) (regsBut_refl _ s))), ?_⟩
    · show ((touch s dFAB).setRg Reg.cntCtl (v.toNat % 2)).rg Reg.cntCtl = _
      rw [rg_setRg_same, Nat.mod_eq_of_lt (by omega)]
    · simp [State.setRg]
  case noClear =>
    intro s v hl h1
    rw [exec_cntClr hl, h1, if_neg Bool.false_ne_true]

end Sys2Proof.Machine

/-! SUPPORT. The frame ledger at reset (R3, R75): which frames State.reset holds FREE, and the statement on the reset state
that this decides. -/

namespace Sys2Proof.Machine

/-- The ledger of State.reset lists no entry, so a frame reads as its reset entry. -/
theorem reset_frame (f : Nat) : State.reset.frame f = frameReset State.reset f := rfl

/-- A frame's reset entry is FREE just where the build holds the frame; every other one is ABSENT (Table 3.8). -/
theorem frameReset_free_iff (s : State) (f : Nat) : (frameReset s f).state = .free ↔ framePresent s f = true := by
  unfold frameReset
  by_cases h : framePresent s f = true
  · simp [h]
  · simp [h]

/-- The two stacks of the reset build hold 40,960 frames each (R3, log 2). -/
theorem reset_framePresent_iff (f : Nat) : framePresent State.reset f = true ↔ f < 81920 := decide_eq_true_iff

/-- After reset the frames of the two stacks are FREE, and no other index is. -/
theorem reset_frame_free_iff (f : Nat) : (State.reset.frame f).state = .free ↔ f < 81920 := by
  rw [reset_frame, frameReset_free_iff, reset_framePresent_iff]

/-- Refutes O4: its clause on frames has no bound, and index 81,920, the first one past the two stacks of the reset build,
is ABSENT and not FREE. -/
theorem not_resetState : ¬ Obligations.ResetState := by
  unfold Obligations.ResetState
  rintro ⟨⟨-, -, -, -, -, hfree, -⟩, -⟩
  have h : 81920 < 81920 := (reset_frame_free_iff 81920).mp (hfree 81920)
  exact absurd h (by decide)

end Sys2Proof.Machine

/-! SUPPORT. What the writing of records (R34, R46 to R49, R147, R151, R152) leaves as it was: the state without the fields that
a write past the SLC touches, that a ring record touches, that an event touches. -/

namespace Sys2Proof.Machine

/-- The state without what a write of the TMS's own units past the SLC touches (R49, R238). -/
def sansWrite (s : State) : State :=
  { s with hw := State.reset.hw, freeCtr := 0, bankMem := .empty, bankMark := [], stackMem := .empty, extMem := .empty,
           mesh := { s.mesh with tellers := [] }, slc := State.reset.slc, edge := { s.edge with links := [] },
           ras := { s.ras with scrubBack := [], progress := [], lockups := [] },
           obs := { s.obs with counters := [] }, out := [] }

/-- The state without what a record of a completion or event ring touches (R147). -/
def sansPlace (s : State) : State :=
  { sansWrite s with regs := [], work := { (sansWrite s).work with cirq := [], eirq := [] } }

/-- The state without what an event touches (R151): its source's sequence and the clerk's queue too. -/
def sansEvent (s : State) : State :=
  { sansPlace s with evl := State.reset.evl, ras := { (sansPlace s).ras with clerkQ := [] } }

theorem sansPlace_of_sansWrite {s t : State} (h : sansWrite t = sansWrite s) : sansPlace t = sansPlace s := by
  unfold sansPlace; rw [h]

theorem sansEvent_of_sansPlace {s t : State} (h : sansPlace t = sansPlace s) : sansEvent t = sansEvent s := by
  unfold sansEvent; rw [h]

/-! ## Writes past the SLC -/

theorem sansWrite_countEvent (s : State) (ev q n : Nat) : sansWrite (countEvent s ev q n) = sansWrite s := by
  unfold countEvent; split <;> rfl

theorem sansWrite_linkSend {s t : State} {p : Nat} {o : Out} (h : linkSend s p o = some t) :
    sansWrite t = sansWrite s := by
  unfold linkSend at h
  dsimp only at h
  split at h
  · obtain rfl := Option.some.inj h
    exact sansWrite_countEvent ..
  · cases h

theorem sansWrite_linkOut (s : State) (p : Nat) (o : Out) : sansWrite (linkOut s p o) = sansWrite s := by
  have wait : sansWrite (if (s.link p).state = .down then
      (s.setLink p { s.link p with waiting := (s.link p).waiting ++ [o] }).emit (.pattern p (outWay o).1)
      else s.setLink p { s.link p with waiting := (s.link p).waiting ++ [o] }) = sansWrite s := by
    split <;> rfl
  cases h : laneWaits s p o with
  | true => simpa only [linkOut, h, if_true] using wait
  | false =>
    cases e : linkSend s p o with
    | none => simpa only [linkOut, h, e, Bool.false_eq_true, if_false] using wait
    | some t => simpa only [linkOut, h, e, Bool.false_eq_true, if_false] using sansWrite_linkSend e

theorem sansWrite_bankPut (s : State) (a : Nat) (data : List WByte) : sansWrite (bankPut s a data).1 = sansWrite s := by
  unfold bankPut
  dsimp only
  split <;> rfl

theorem sansWrite_bankStore (s : State) (b off : Nat) (data : List WByte) :
    sansWrite (bankStore s b off data).1 = sansWrite s := by
  have h := sansWrite_bankPut s (bankAddr (bankPhys s b) off) data
  unfold bankStore
  dsimp only
  split
  · split
    · exact (sansWrite_bankPut ..).trans h
    · exact h
  · exact h

theorem sansWrite_finishHalf (s : State) (b : Nat) : sansWrite (finishHalf s b) = sansWrite s := by
  unfold finishHalf
  split
  · rfl
  · split
    · rfl
    · dsimp only
      split
      · rfl
      · exact sansWrite_bankStore ..

theorem sansWrite_slcPassing (s : State) (a : Nat) : sansWrite (slcPassing s a) = sansWrite s := by
  unfold slcPassing
  dsimp only
  split
  · rfl
  · split
    · split <;> rfl
    · rfl

theorem sansWrite_recWrite (s : State) (host : Bool) (a : Nat) (data : List Byte) :
    sansWrite (recWrite s host a data) = sansWrite s := by
  unfold recWrite
  dsimp only
  split
  · rfl
  · split
    · split
      · split
        · rfl
        · exact (sansWrite_bankStore ..).trans (sansWrite_finishHalf ..)
      · split
        · rfl
        · rfl
        · rfl
        · exact sansWrite_slcPassing ..
    · split
      · exact (sansWrite_linkOut ..).trans (sansWrite_slcPassing ..)
      · rfl

/-! ## Records of rings -/

theorem recWrite_regs (s : State) (host : Bool) (a : Nat) (data : List Byte) :
    (recWrite s host a data).regs = s.regs :=
  (congrArg State.regs (sansWrite_recWrite s host a data) :)

theorem regsBut_trans {l : List Nat} {s t u : State} (h : RegsBut l s t) (k : RegsBut l t u) : RegsBut l s u :=
  fun o ho => (k o ho).trans (h o ho)

theorem sansPlace_setRg (s : State) (o v : Nat) : sansPlace (s.setRg o v) = sansPlace s := rfl

theorem sansPlace_setIrq (s : State) (evr : Bool) (c : Nat) (x : RingIrq) : sansPlace (s.setIrq evr c x) = sansPlace s := by
  unfold State.setIrq; split <;> rfl

theorem regsBut_countRg {s t : State} {o n : Nat} {l : List Nat} (h : o ∈ l) (ht : RegsBut l s t) :
    RegsBut l s (t.countRg o n) := regsBut_setRg (v := min (t.rg o + n) 0xFFFFFFFF) h ht

theorem sansPlace_ringPlace (s : State) (evr : Bool) (c w : Nat) (mark : Bool) (body : Nat → List Byte) :
    sansPlace (ringPlace s evr c w mark body) = sansPlace s :=
  (sansPlace_setIrq ..).trans ((sansPlace_setRg ..).trans (sansPlace_of_sansWrite (sansWrite_recWrite ..)))

theorem regsBut_ringPlace {l : List Nat} (s : State) {evr : Bool} {c : Nat} (h : ringReg evr c 0x14 ∈ l) (w : Nat)
    (mark : Bool) (body : Nat → List Byte) : RegsBut l s (ringPlace s evr c w mark body) :=
  regsBut_of_regs (setIrq_regs ..) (regsBut_setRg h (regsBut_of_regs (recWrite_regs ..) (regsBut_refl l s)))

/-! ## Events -/

/-- The registers that an event may change: TAIL and LOST of the event rings, EVT_UNROUTED, CLERK_STATUS, CLERK_MISSEDk
(R152, R328). -/
def eventRegs : List Nat :=
  [Reg.evtUnrouted, Reg.clerkStatus] ++ (List.range 4).map Reg.clerkMissed ++ (List.range 16).map Reg.evrLost ++
    (List.range 16).map (fun e => ringReg true e 0x14)

/-- Of the registers an event changes none but those of eventRegs, of the other fields none but those that sansEvent leaves
out. -/
def EventFrame (s t : State) : Prop := RegsBut eventRegs s t ∧ sansEvent t = sansEvent s

/-- A record's delivery keeps the sequences and the clerk's queue as well. -/
def PlaceFrame (s t : State) : Prop := RegsBut eventRegs s t ∧ sansPlace t = sansPlace s

theorem PlaceFrame.refl (s : State) : PlaceFrame s s := ⟨regsBut_refl _ s, rfl⟩

theorem PlaceFrame.trans {s t u : State} (h : PlaceFrame s t) (k : PlaceFrame t u) : PlaceFrame s u :=
  ⟨regsBut_trans h.1 k.1, k.2.trans h.2⟩

theorem EventFrame.trans {s t u : State} (h : EventFrame s t) (k : EventFrame t u) : EventFrame s u :=
  ⟨regsBut_trans h.1 k.1, k.2.trans h.2⟩

theorem PlaceFrame.event {s t : State} (h : PlaceFrame s t) : EventFrame s t := ⟨h.1, sansEvent_of_sansPlace h.2⟩

theorem PlaceFrame.evl {s t : State} (h : PlaceFrame s t) : t.evl = s.evl :=
  (congrArg (fun u : State => u.evl) h.2 :)

theorem PlaceFrame.clerkQ {s t : State} (h : PlaceFrame s t) : t.ras.clerkQ = s.ras.clerkQ :=
  (congrArg (fun u : State => u.ras.clerkQ) h.2 :)

theorem EventFrame.pwr {s t : State} (h : EventFrame s t) : t.pwr = s.pwr :=
  (congrArg (fun u : State => u.pwr) h.2 :)

theorem EventFrame.pt {s t : State} (h : EventFrame s t) : t.pt = s.pt :=
  (congrArg (fun u : State => u.pt) h.2 :)

theorem EventFrame.rings {s t : State} (h : EventFrame s t) : t.work.rings = s.work.rings :=
  (congrArg (fun u : State => u.work.rings) h.2 :)

theorem evrLost_mem {e : Nat} (h : e < 16) : Reg.evrLost e ∈ eventRegs := by
  simp only [eventRegs, List.mem_append, List.mem_map, List.mem_range]
  exact .inl (.inr ⟨e, h, rfl⟩)

theorem evrTail_mem {e : Nat} (h : e < 16) : ringReg true e 0x14 ∈ eventRegs := by
  simp only [eventRegs, List.mem_append, List.mem_map, List.mem_range]
  exact .inr ⟨e, h, rfl⟩

theorem clerkMissed_mem (type : Nat) : Reg.clerkMissed (missedCat type) ∈ eventRegs := by
  have h : missedCat type < 4 := by unfold missedCat; split_ifs <;> omega
  simp only [eventRegs, List.mem_append, List.mem_map, List.mem_range]
  exact .inl (.inl (.inr ⟨_, h, rfl⟩))

theorem placeFrame_countRg {s : State} {o : Nat} (h : o ∈ eventRegs) (n : Nat) : PlaceFrame s (s.countRg o n) :=
  ⟨regsBut_countRg h (regsBut_refl _ s), rfl⟩

theorem placeFrame_setRgBit {s : State} {o : Nat} (h : o ∈ eventRegs) (i : Nat) (b : Bool) :
    PlaceFrame s (s.setRgBit o i b) :=
  ⟨regsBut_setRgBit h (regsBut_refl _ s), rfl⟩

theorem placeFrame_evrPlace (s : State) {e : Nat} (h : e < 16) (r : EventRec) : PlaceFrame s (evrPlace s e r) := by
  unfold evrPlace
  split
  · exact ⟨regsBut_ringPlace s (evrTail_mem h) _ _ _, sansPlace_ringPlace ..⟩
  · exact placeFrame_countRg (evrLost_mem h) 1

theorem bits_lt (x lo w : Nat) : bits x lo w < 2 ^ w := Nat.mod_lt _ (by positivity)

theorem placeFrame_routeRing (s : State) (r : EventRec) : PlaceFrame s (routeRing s r) := by
  have ring : PlaceFrame s (if bit (lineRoute s r.line) 7 then evrPlace s (bits (lineRoute s r.line) 0 4) r else s) := by
    split
    · exact placeFrame_evrPlace s (bits_lt _ 0 4) r
    · exact .refl s
  unfold routeRing
  dsimp only
  split
  · exact ring.trans (placeFrame_evrPlace _ (bits_lt _ 0 4) r)
  · exact ring

/-- What a delivery does: it counts the record as unrouted, or the ring half takes it, and the clerk's way may follow. -/
theorem deliver_cases (s : State) (r : EventRec) (put : State → EventRec → State) :
    ∃ t, PlaceFrame s t ∧ (deliver s r put = t ∨ deliver s r put = put t r) := by
  unfold deliver
  dsimp only
  split
  · exact ⟨_, placeFrame_countRg (by simp [eventRegs]) 1, .inl rfl⟩
  · refine ⟨routeRing s r, placeFrame_routeRing s r, ?_⟩
    split
    · exact .inr rfl
    · exact .inl rfl

theorem placeFrame_dropEvent (s : State) (line : Nat) : PlaceFrame s (dropEvent s line) :=
  placeFrame_countRg (evrLost_mem (bits_lt _ 0 4)) 1

/-- A CLERK_BEHIND event beside its stamp (R328). -/
theorem placeFrame_eventBehind (s : State) (src type line a0 a1 : Nat) :
    PlaceFrame (takeSeq s src).2.2 (eventBehind s src type line a0 a1) := by
  unfold eventBehind stampEvent
  dsimp only
  split
  · next r t h =>
    obtain ⟨-, rfl⟩ := Prod.mk.inj h
    obtain ⟨u, hu, e | e⟩ := deliver_cases (takeSeq s src).2.2 r
      (fun u r => u.countRg (Reg.clerkMissed (missedCat r.type)) 1)
    · rw [e]; exact hu
    · rw [e]; exact hu.trans (placeFrame_countRg (clerkMissed_mem _) 1)
  · next t h =>
    obtain ⟨-, rfl⟩ := Prod.mk.inj h
    exact placeFrame_dropEvent _ line

theorem eventFrame_takeSeq (s : State) (src : Nat) : EventFrame s (takeSeq s src).2.2 :=
  ⟨fun _ _ => rfl, rfl⟩

/-- What the clerk's way does (R328, R329): nothing in relief mode, the record queued while there is room, a CLERK_BEHIND
event at most where the queue is full. -/
theorem clerkPut_cases (s : State) (r : EventRec) :
    clerkPut s r = s ∨
    clerkPut s r = { s with ras := { s.ras with clerkQ := s.ras.clerkQ ++ [r] } } ∨
    1024 ≤ s.ras.clerkQ.length ∧ ∃ t a, PlaceFrame s t ∧
      (clerkPut s r = t ∨ clerkPut s r = eventBehind t s.srcClerk 0x31 4 a 0) := by
  have count : PlaceFrame s (s.countRg (Reg.clerkMissed (missedCat r.type)) 1) :=
    placeFrame_countRg (clerkMissed_mem _) 1
  unfold clerkPut
  split
  · exact .inl rfl
  · split
    · exact .inr (.inl rfl)
    · refine .inr (.inr ⟨by omega, ?_⟩)
      dsimp only
      split
      · exact ⟨_, 0, count, .inl rfl⟩
      · exact ⟨_, _, count.trans (placeFrame_setRgBit (by simp [eventRegs]) 0 true), .inr rfl⟩

theorem eventFrame_clerkPut (s : State) (r : EventRec) : EventFrame s (clerkPut s r) := by
  rcases clerkPut_cases s r with e | e | ⟨-, t, a, ht, e | e⟩ <;> rw [e]
  · exact (PlaceFrame.refl s).event
  · exact ⟨fun _ _ => rfl, rfl⟩
  · exact ht.event
  · exact ht.event.trans ((eventFrame_takeSeq t _).trans (placeFrame_eventBehind t ..).event)

/-- An event beside its stamp: the record is dropped, or delivered, and the clerk may take it. -/
theorem event_cases (s : State) (src : Nat) (ctx : Option (Nat × Nat)) (type line a0 a1 : Nat) :
    ∃ t, PlaceFrame (takeSeq s src).2.2 t ∧ (event s src ctx type line a0 a1 = t ∨
      ∃ r, event s src ctx type line a0 a1 = clerkPut t r) := by
  unfold event stampEvent
  dsimp only
  split
  · next t h =>
    obtain ⟨-, rfl⟩ := Prod.mk.inj h
    exact ⟨_, placeFrame_dropEvent _ line, .inl rfl⟩
  · next r t h =>
    obtain ⟨-, rfl⟩ := Prod.mk.inj h
    obtain ⟨u, hu, e | e⟩ := deliver_cases (takeSeq s src).2.2 r clerkPut
    · exact ⟨u, hu, .inl e⟩
    · exact ⟨u, hu, .inr ⟨r, e⟩⟩

theorem eventFrame_event (s : State) (src : Nat) (ctx : Option (Nat × Nat)) (type line a0 a1 : Nat) :
    EventFrame s (event s src ctx type line a0 a1) := by
  obtain ⟨t, ht, e | ⟨r, e⟩⟩ := event_cases s src ctx type line a0 a1 <;> rw [e]
  · exact (eventFrame_takeSeq s src).trans ht.event
  · exact (eventFrame_takeSeq s src).trans (ht.event.trans (eventFrame_clerkPut t r))

/-! ## Sequences (R34) -/

theorem seq_takeSeq_same (s : State) (src : Nat) :
    tget 0 (takeSeq s src).2.2.evl.seqs src = (tget 0 s.evl.seqs src + 1) % 256 := tget_tset_same ..

theorem seq_takeSeq_other (s : State) {src u : Nat} (h : u ≠ src) :
    tget 0 (takeSeq s src).2.2.evl.seqs u = tget 0 s.evl.seqs u := tget_tset_other _ _ _ _ _ _ h

/-- A record for the ledger takes one sequence of its source, whether it is kept or dropped. -/
theorem ledgerSrc_seqs {s : State} (h : s.rgBit Reg.evlCtl 0 = true) (src type : Nat) (ctx : Option (Nat × Nat))
    (a0 a1 : Nat) : (ledgerSrc s src type ctx a0 a1).evl.seqs = (takeSeq s src).2.2.evl.seqs := by
  unfold ledgerSrc
  rw [if_pos h]
  dsimp only
  split <;> rfl

section
variable {s : State} {u : Nat}

/-- A source other than the clerk, or any source while the clerk's queue has room. -/
abbrev NotBehind (s : State) (u : Nat) : Prop := u ≠ s.srcClerk ∨ s.ras.clerkQ.length < 1024

theorem seq_clerkPut (h : NotBehind s u) (r : EventRec) :
    tget 0 (clerkPut s r).evl.seqs u = tget 0 s.evl.seqs u := by
  rcases clerkPut_cases s r with e | e | ⟨hfull, t, a, ht, e | e⟩ <;> rw [e]
  · rw [ht.evl]
  · have hu : u ≠ s.srcClerk := h.resolve_right (by omega)
    rw [(placeFrame_eventBehind t ..).evl, seq_takeSeq_other t hu, ht.evl]

/-- An event takes one sequence of its source; the clerk takes one more where its queue is full. -/
theorem seq_event (h : NotBehind s u) (src : Nat) (ctx : Option (Nat × Nat)) (type line a0 a1 : Nat) :
    tget 0 (event s src ctx type line a0 a1).evl.seqs u = tget 0 (takeSeq s src).2.2.evl.seqs u := by
  obtain ⟨t, ht, e | ⟨r, e⟩⟩ := event_cases s src ctx type line a0 a1 <;> rw [e]
  · rw [ht.evl]
  · have hn : NotBehind t u := by
      unfold NotBehind State.srcClerk State.src
      rw [ht.event.pwr, ht.clerkQ]
      exact h
    rw [seq_clerkPut hn, ht.evl]

/-- A record for the trace buffer takes no sequence but the clerk's, for a LOSS record that precedes it (R374). -/
theorem seq_tracePush (h : u ≠ s.srcClerk ∨ s.obs.traceLost = 0) (r : TraceRec) :
    tget 0 (tracePush s r).evl.seqs u = tget 0 s.evl.seqs u := by
  unfold tracePush
  dsimp only
  split
  · rfl
  · split
    · next hl =>
      have hu : u ≠ s.srcClerk := h.resolve_right (by omega)
      have other := seq_takeSeq_other s hu
      split <;> (next e => rw [e] at other; exact other)
    · rfl

/-- A sync event that is selected takes one sequence of its source for its trace record (R373, R35). -/
theorem seq_traceEv {op : Nat} (h0 : s.rgBit Reg.traceCtl 0 = true) (hop : s.rgBit Reg.traceCtl (8 + op) = true)
    (h31 : s.rgBit Reg.traceCtl 31 = false) (h : u ≠ s.srcClerk ∨ s.obs.traceLost = 0) (src other obj : Nat) :
    tget 0 (traceEv s src op other obj).evl.seqs u = tget 0 (takeSeq s src).2.2.evl.seqs u := by
  unfold traceEv
  dsimp only
  rw [if_pos (by simp [h0, hop, h31])]
  split
  · exact seq_tracePush (s := (takeSeq s src).2.2) h _
  · rfl

end

/-- Settles O8: each kind of record takes the one sequence of takeSeq. -/
theorem sequenceNumbers : Obligations.SequenceNumbers := by
  unfold Obligations.SequenceNumbers
  intro s src
  refine ⟨⟨rfl, seq_takeSeq_same s src, fun u hu => seq_takeSeq_other s hu⟩, ?ledger, ?event, ?trace⟩
  case ledger =>
    intro type ctx a0 a1 hen
    rw [ledgerSrc_seqs hen]
    exact ⟨seq_takeSeq_same s src, fun u hu => seq_takeSeq_other s hu⟩
  case event =>
    intro ctx type line a0 a1
    exact ⟨fun h => (seq_event h ..).trans (seq_takeSeq_same s src),
      fun u hu h => (seq_event h ..).trans (seq_takeSeq_other s hu)⟩
  case trace =>
    intro op other obj h0 hop h31
    exact ⟨fun h => (seq_traceEv h0 hop h31 h ..).trans (seq_takeSeq_same s src),
      fun u hu h => (seq_traceEv h0 hop h31 h ..).trans (seq_takeSeq_other s hu)⟩

end Sys2Proof.Machine

/-! SUPPORT. Package time (Chapter 2): what a record for the event ledger leaves as it was, the marks of PT, the offsets, the
probes, the reading of now. -/

namespace Sys2Proof.Machine

/-! ## Registers outside a list -/

theorem rgBit_of_regsBut {l : List Nat} {s t : State} (h : RegsBut l s t) {o : Nat} (ho : o ∉ l) (i : Nat) :
    t.rgBit o i = s.rgBit o i := by
  unfold State.rgBit; rw [h o ho]

/-! ## Records for the event ledger (R46, R48) -/

/-- The state without what a record for the event ledger touches while it waits. -/
def sansLedger (s : State) : State := { s with regs := [], hw := State.reset.hw, evl := State.reset.evl }

theorem eq_of_sansLedger {s t : State} (h : sansLedger t = sansLedger s) :
    t = { s with regs := t.regs, hw := t.hw, evl := t.evl } :=
  calc t = { sansLedger t with regs := t.regs, hw := t.hw, evl := t.evl } := rfl
    _ = { s with regs := t.regs, hw := t.hw, evl := t.evl } := by rw [h]; rfl

theorem sansLedger_ledgerSrc (s : State) (src type : Nat) (ctx : Option (Nat × Nat)) (a0 a1 : Nat) :
    sansLedger (ledgerSrc s src type ctx a0 a1) = sansLedger s := by
  unfold ledgerSrc
  dsimp only
  split
  · split <;> rfl
  · rfl

theorem regsBut_ledgerSrc {l : List Nat} {s t : State} (hl : Reg.evlLost ∈ l) (h : RegsBut l s t) (src type : Nat)
    (ctx : Option (Nat × Nat)) (a0 a1 : Nat) : RegsBut l s (ledgerSrc t src type ctx a0 a1) := by
  unfold ledgerSrc
  dsimp only
  split
  · split
    · exact regsBut_of_regs rfl h
    · exact regsBut_of_regs (t := (takeSeq t src).2.2.countRg Reg.evlLost 1) rfl (regsBut_countRg hl (regsBut_of_regs rfl h))
  · exact h

/-- The first record of a tc, where none waits, is kept. -/
theorem waiting_ledgerSrc_first {s : State} (hen : s.rgBit Reg.evlCtl 0 = true) (hw : s.evl.waiting = [])
    (htc : s.evl.stampTc ≠ s.clk.tc) (src type : Nat) (ctx : Option (Nat × Nat)) (a0 a1 : Nat) :
    (ledgerSrc s src type ctx a0 a1).evl.waiting =
      [{ stamp := s.now, src := src, seq := tget 0 s.evl.seqs src, type := type, unlocked := !s.rgBit Reg.ptStatus 0,
         ctx := ctx, arg0 := BitVec.ofNat 64 a0, arg1 := BitVec.ofNat 64 a1 }] := by
  unfold ledgerSrc
  rw [if_pos hen]
  simp [takeSeq, evlWaiting, hw, htc, State.now, State.rgBit, State.rg]

/-! ## Marks (R28, R30) -/

theorem exec_ptSyncMark {s : State} (h : ptRuns s = true) (m : Nat) : exec (.ptSyncMark m) s = .next (ptMark s m) :=
  if_pos h

theorem exec_ptMarkMissing {s : State} (h : ptRuns s = true) (bad : Bool) :
    exec (.ptMarkMissing bad) s = .next (ptMissing s bad) := if_pos h

/-- A pulse with a valid mark came (R30): no pulse is missing, HOLDOVER is clear. -/
def ptHeard (s : State) : State := ({ s with pt := { s.pt with missing := 0 } }).setRgBit Reg.ptStatus 2 false

/-- The copy loaded with a mark, and the bit of PT_STATUS that says so (R28). -/
def ptLoaded (s : State) (m i : Nat) : State :=
  ({ s with pt := { s.pt with raw := 16 * m, slew := 0 } }).setRgBit Reg.ptStatus i true

/-- The copy slews by an error (R29). -/
def ptSlewed (s : State) (e : Int) : State :=
  if e = 0 then { s with pt := { s.pt with slew := e } }
  else ({ s with pt := { s.pt with slew := e } }).setRgBit Reg.ptStatus 4 true

theorem ptHeard_bit (s : State) {i : Nat} (h : i ≠ 2) (hi : i < 32) :
    (ptHeard s).rgBit Reg.ptStatus i = s.rgBit Reg.ptStatus i := rgBit_setRgBit_bit _ _ _ _ _ hi h

theorem ptHeard_bit_holdover (s : State) : (ptHeard s).rgBit Reg.ptStatus 2 = false :=
  rgBit_setRgBit_same _ _ _ _ (by decide)

theorem regsBut_ptHeard {l : List Nat} {s : State} (h : Reg.ptStatus ∈ l) : RegsBut l s (ptHeard s) :=
  regsBut_setRgBit h (regsBut_of_regs rfl (regsBut_refl _ s))

theorem regsBut_ptLoaded {l : List Nat} {s : State} (h : Reg.ptStatus ∈ l) (m i : Nat) :
    RegsBut l s (ptLoaded (ptHeard s) m i) :=
  regsBut_setRgBit h (regsBut_of_regs rfl (regsBut_ptHeard h))

theorem ptLoaded_bit (s : State) (m : Nat) {i : Nat} (hi : i < 32) : (ptLoaded s m i).rgBit Reg.ptStatus i = true :=
  rgBit_setRgBit_same _ _ _ _ hi

theorem ptLoaded_bit_other (s : State) (m : Nat) {i j : Nat} (hj : j < 32) (h : j ≠ i) :
    (ptLoaded s m i).rgBit Reg.ptStatus j = s.rgBit Reg.ptStatus j := rgBit_setRgBit_bit _ _ _ _ _ hj h

theorem ptSlewed_pt (s : State) (e : Int) : (ptSlewed s e).pt = { s.pt with slew := e } := by
  unfold ptSlewed; split <;> rfl

theorem ptSlewed_bit_other (s : State) (e : Int) {i : Nat} (hi : i < 32) (h : i ≠ 4) :
    (ptSlewed s e).rgBit Reg.ptStatus i = s.rgBit Reg.ptStatus i := by
  unfold ptSlewed
  split
  · rfl
  · exact rgBit_setRgBit_bit _ _ _ _ _ hi h

theorem ptSlewed_bit (s : State) {e : Int} (h : e ≠ 0) : (ptSlewed s e).rgBit Reg.ptStatus 4 = true := by
  unfold ptSlewed
  rw [if_neg h]
  exact rgBit_setRgBit_same _ _ _ _ (by decide)

theorem ptSlewed_frame (s : State) (e : Int) :
    ptSlewed s e = { s with pt := (ptSlewed s e).pt, regs := (ptSlewed s e).regs, hw := (ptSlewed s e).hw } := by
  unfold ptSlewed; split <;> rfl

theorem regsBut_ptSlewed {l : List Nat} {s t : State} (hl : Reg.ptStatus ∈ l) (h : RegsBut l s t) (e : Int) :
    RegsBut l s (ptSlewed t e) := by
  unfold ptSlewed
  split
  · exact regsBut_of_regs rfl h
  · exact regsBut_setRgBit hl (regsBut_of_regs rfl h)

/-! What a mark does, by the state of the copy: not locked, behind by more than 64 ns, or near or ahead. -/

section
variable {s : State} {m : Nat}

theorem ptCorrect_first (h : s.rgBit Reg.ptStatus 0 = false) :
    ptCorrect s m = ptStepRec (ptLoaded s m 0) ((16 * m : Nat) - (s.pt.raw : Int)) 0 := by
  unfold ptCorrect
  dsimp only
  rw [h]
  rfl

theorem ptCorrect_behind (h : s.rgBit Reg.ptStatus 0 = true) (hr : s.pt.raw + 1024 < 16 * m) :
    ptCorrect s m = ptStepRec (ptLoaded s m 1) ((16 * m : Nat) - (s.pt.raw : Int)) 1 := by
  unfold ptCorrect
  dsimp only
  rw [h, if_neg (by simp), if_pos (by omega)]
  rfl

theorem ptCorrect_slews (h : s.rgBit Reg.ptStatus 0 = true) (hr : 16 * m ≤ s.pt.raw + 1024) :
    ptCorrect s m =
      if 16 * m + 1048576 < s.pt.raw then
        ptStatusEvent ((ptSlewed s ((16 * m : Nat) - (s.pt.raw : Int))).setRgBit Reg.ptStatus 3 true)
      else ptSlewed s ((16 * m : Nat) - (s.pt.raw : Int)) := by
  unfold ptCorrect
  dsimp only
  rw [h, if_neg (by simp), if_neg (by omega)]
  exact if_congr (by omega) rfl rfl

theorem ptMark_eq (hm : m < 2 ^ 64) : ptMark s m = ptCorrect (ptHeard s) m := by
  unfold ptMark
  rw [Nat.mod_eq_of_lt hm]
  rfl

theorem ptHeard_raw (s : State) : (ptHeard s).pt.raw = s.pt.raw := rfl

theorem ptHeard_locked (s : State) : (ptHeard s).rgBit Reg.ptStatus 0 = s.rgBit Reg.ptStatus 0 :=
  ptHeard_bit s (by decide) (by decide)

end

/-- A PT_STATUS_CHANGE event keeps the copy and PT_STATUS. -/
theorem ptStatusEvent_pt (s : State) : (ptStatusEvent s).pt = s.pt := (eventFrame_event ..).pt

theorem ptStatusEvent_bit (s : State) (i : Nat) : (ptStatusEvent s).rgBit Reg.ptStatus i = s.rgBit Reg.ptStatus i :=
  (rgBit_of_regsBut (eventFrame_event ..).1 (by decide) i).trans (rgBit_setRgBit_other _ _ _ _ _ _ (by decide))

theorem ptHoldover_bit (s : State) : (ptHoldover s).rgBit Reg.ptStatus 2 = true :=
  (ptStatusEvent_bit _ 2).trans (rgBit_setRgBit_same _ _ _ _ (by decide))

theorem ptHoldover_pt (s : State) : (ptHoldover s).pt = s.pt := ptStatusEvent_pt _

/-- A PT_STEP record keeps the copy, PT_STATUS and everything else but the ledger's own state. -/
theorem ptStepRec_pt (s : State) (e : Int) (c : Nat) : (ptStepRec s e c).pt = s.pt :=
  (congrArg State.pt (sansLedger_ledgerSrc s _ _ _ _ _) :)

theorem ptStepRec_bit (s : State) (e : Int) (c i : Nat) :
    (ptStepRec s e c).rgBit Reg.ptStatus i = s.rgBit Reg.ptStatus i :=
  rgBit_of_regsBut (regsBut_ledgerSrc (List.mem_singleton_self _) (regsBut_refl _ s) _ _ _ _ _) (by decide) i

/-- A step of the copy to a mark: what it changes, and its record. -/
theorem ptStepRec_frame (s : State) (m i : Nat) (e : Int) (c : Nat) :
    let t := ptStepRec (ptLoaded (ptHeard s) m i) e c
    t = { s with pt := t.pt, regs := t.regs, hw := t.hw, evl := t.evl } ∧ RegsBut [Reg.ptStatus, Reg.evlLost] s t := by
  intro t
  refine ⟨?_, regsBut_ledgerSrc (by simp) (regsBut_ptLoaded (by simp) m i) _ _ _ _ _⟩
  rw [show t.pt = (ptLoaded (ptHeard s) m i).pt from ptStepRec_pt ..]
  exact eq_of_sansLedger (sansLedger_ledgerSrc ..)

theorem exec_ptMark_first {s : State} {m : Nat} (hr : ptRuns s = true) (hm : m < 2 ^ 64)
    (h : s.rgBit Reg.ptStatus 0 = false) :
    exec (.ptSyncMark m) s =
      .next (ptStepRec (ptLoaded (ptHeard s) m 0) ((16 * m : Nat) - (s.pt.raw : Int)) 0) := by
  rw [exec_ptSyncMark hr, ptMark_eq hm, ptCorrect_first ((ptHeard_locked s).trans h), ptHeard_raw]

theorem exec_ptMark_behind {s : State} {m : Nat} (hr : ptRuns s = true) (hm : m < 2 ^ 64)
    (h : s.rgBit Reg.ptStatus 0 = true) (hb : s.pt.raw + 1024 < 16 * m) :
    exec (.ptSyncMark m) s =
      .next (ptStepRec (ptLoaded (ptHeard s) m 1) ((16 * m : Nat) - (s.pt.raw : Int)) 1) := by
  rw [exec_ptSyncMark hr, ptMark_eq hm, ptCorrect_behind ((ptHeard_locked s).trans h) hb, ptHeard_raw]

theorem exec_ptMark_slews {s : State} {m : Nat} (hr : ptRuns s = true) (hm : m < 2 ^ 64)
    (h : s.rgBit Reg.ptStatus 0 = true) (hb : 16 * m ≤ s.pt.raw + 1024) :
    exec (.ptSyncMark m) s =
      .next (if 16 * m + 1048576 < s.pt.raw then
          ptStatusEvent ((ptSlewed (ptHeard s) ((16 * m : Nat) - (s.pt.raw : Int))).setRgBit Reg.ptStatus 3 true)
        else ptSlewed (ptHeard s) ((16 * m : Nat) - (s.pt.raw : Int))) := by
  rw [exec_ptSyncMark hr, ptMark_eq hm, ptCorrect_slews ((ptHeard_locked s).trans h) hb, ptHeard_raw]

/-- The record of the first mark, where none waits. -/
theorem waiting_ptStepRec_first {s : State} {m : Nat} (e : Int) (hm : m < 2 ^ 64) (hen : s.rgBit Reg.evlCtl 0 = true)
    (hw : s.evl.waiting = []) (htc : s.evl.stampTc ≠ s.clk.tc) (hoff : s.pt.off = 0) :
    (ptStepRec (ptLoaded (ptHeard s) m 0) e 0).evl.waiting =
      [{ stamp := m, src := s.src 167, seq := tget 0 s.evl.seqs (s.src 167), type := 0x08, unlocked := false, ctx := none,
         arg0 := BitVec.ofNat 64 (toCode e 64), arg1 := 0#64 }] := by
  have hctl : (ptLoaded (ptHeard s) m 0).rgBit Reg.evlCtl 0 = true :=
    (rgBit_of_regsBut (regsBut_ptLoaded (List.mem_singleton_self _) m 0) (by decide) 0).trans hen
  have hevl : (ptLoaded (ptHeard s) m 0).evl = s.evl := rfl
  have hclk : (ptLoaded (ptHeard s) m 0).clk = s.clk := rfl
  have hnow : (ptLoaded (ptHeard s) m 0).now = m := by
    show (((16 * m : Nat) : Int) - s.pt.off).toNat / 16 % 2 ^ 64 = m
    rw [hoff]
    omega
  unfold ptStepRec ledgerRec
  rw [waiting_ledgerSrc_first hctl (by rw [hevl, hw]) (by rw [hevl, hclk]; exact htc), hnow, hevl,
    ptLoaded_bit _ _ (by decide)]
  rfl

/-- Settles O9: each mark by the rule of ptCorrect for its case, the missing pulses by those of ptHoldover. -/
theorem ptMarks : Obligations.PtMarks := by
  unfold Obligations.PtMarks
  refine ⟨?first, ?behind, ?slews, ?bad, ?second, ?other⟩
  case first =>
    intro s m hr hm h
    obtain ⟨hframe, hregs⟩ := ptStepRec_frame s m 0 ((16 * m : Nat) - (s.pt.raw : Int)) 0
    have hpt := ptStepRec_pt (ptLoaded (ptHeard s) m 0) ((16 * m : Nat) - (s.pt.raw : Int)) 0
    refine ⟨_, exec_ptMark_first hr hm h, ?_, ?_, ?_, ?_, ?_, fun hen hw htc hoff => ?_, hframe, hregs⟩
    · rw [hpt]; rfl
    · rw [hpt]; rfl
    · rw [hpt]; rfl
    · rw [ptStepRec_bit, ptLoaded_bit _ _ (by decide)]
    · rw [ptStepRec_bit, ptLoaded_bit_other _ _ (by decide) (by decide), ptHeard_bit_holdover]
    · exact ⟨_, waiting_ptStepRec_first _ hm hen hw htc hoff, rfl, rfl, rfl, rfl, rfl, rfl, rfl, rfl⟩
  case behind =>
    intro s m hr hm h hb
    obtain ⟨hframe, hregs⟩ := ptStepRec_frame s m 1 ((16 * m : Nat) - (s.pt.raw : Int)) 1
    have hpt := ptStepRec_pt (ptLoaded (ptHeard s) m 1) ((16 * m : Nat) - (s.pt.raw : Int)) 1
    refine ⟨_, exec_ptMark_behind hr hm h hb, ?_, ?_, ?_, ?_, hframe, hregs⟩
    · rw [hpt]; rfl
    · rw [hpt]; rfl
    · rw [ptStepRec_bit, ptLoaded_bit _ _ (by decide)]
    · rw [ptStepRec_bit, ptLoaded_bit_other _ _ (by decide) (by decide), ptHeard_bit_holdover]
  case slews =>
    intro s m hr hm h hb
    refine ⟨_, exec_ptMark_slews hr hm h hb, ?_⟩
    have hover := (ptSlewed_bit_other (ptHeard s) ((16 * m : Nat) - (s.pt.raw : Int)) (i := 2) (by decide)
      (by decide)).trans (ptHeard_bit_holdover s)
    have hslews : 16 * m ≠ s.pt.raw →
        (ptSlewed (ptHeard s) ((16 * m : Nat) - (s.pt.raw : Int))).rgBit Reg.ptStatus 4 = true :=
      fun hne => ptSlewed_bit _ (by omega)
    by_cases hahead : 16 * m + 1048576 < s.pt.raw
    · rw [if_pos hahead, ptStatusEvent_pt]
      simp only [ptStatusEvent_bit]
      refine ⟨?_, ?_, ?_, fun hne => ?_, fun _ => ?_, fun hle => absurd hahead (by omega)⟩
      · exact (congrArg Pt.raw (ptSlewed_pt (ptHeard s) _) :)
      · exact (congrArg Pt.slew (ptSlewed_pt (ptHeard s) _) :)
      · rw [rgBit_setRgBit_bit _ _ _ _ _ (by decide) (by decide), hover]
      · rw [rgBit_setRgBit_bit _ _ _ _ _ (by decide) (by decide), hslews hne]
      · exact rgBit_setRgBit_same _ _ _ _ (by decide)
    · rw [if_neg hahead, ptSlewed_pt]
      refine ⟨rfl, rfl, hover, hslews, fun h => absurd h hahead, fun _ => ⟨?_, ?_⟩⟩
      · rw [← ptSlewed_pt]
        exact ptSlewed_frame (ptHeard s) _
      · exact regsBut_ptSlewed (List.mem_singleton_self _) (regsBut_ptHeard (List.mem_singleton_self _)) _
  case bad =>
    intro s hr
    exact ⟨_, exec_ptMarkMissing hr true, ptHoldover_bit _, ptHoldover_pt _⟩
  case second =>
    intro s hr h1
    have e : ptMissing s false = ptHoldover { s with pt := { s.pt with missing := 2 } } := by
      simp [ptMissing, h1]
    refine ⟨_, exec_ptMarkMissing hr false, ?_⟩
    rw [e]
    exact ⟨ptHoldover_bit _, ptHoldover_pt _⟩
  case other =>
    intro s hr h1
    rw [exec_ptMarkMissing hr]
    simp [ptMissing, h1]

end Sys2Proof.Machine


namespace Sys2Proof.Machine

/-! ## Offsets, probes, the reading of now (R29, R31, R52, R53, R55, R56, R398) -/

theorem exec_ptSlewEnd_clears {s : State} (hr : ptRuns s = true) (hs : s.pt.slew = 0) (ho : s.pt.off = offTarget s) :
    exec .ptSlewEnd s = .next (s.setRgBit Reg.ptStatus 4 false) :=
  if_pos (by simp [hr, hs, ho])

theorem exec_ptDieOffsetWrite {s : State} (h : frozen s = false) (v : Word) :
    exec (.ptDieOffsetWrite v) s = .next (dieOffset s v) := gateAO_awake h (fun s => dieOffset s v)

theorem exec_ptEpochOffsetHiWrite {s : State} (h : frozen s = false) (v : Word) :
    exec (.ptEpochOffsetHiWrite v) s = .next (epochHi s v) :=
  gateAO_awake h (fun s => epochHi s v)

theorem exec_ptProbeGo {s : State} (h : frozen s = false) (v : Word) :
    exec (.ptProbeGo v) s = .next (probeGo s v) := gateAO_awake h (fun s => probeGo s v)

theorem exec_ptProbeDone {s : State} (h : frozen s = false) (t1 t2 t3 t4 : List Int) :
    exec (.ptProbeDone t1 t2 t3 t4) s = .next (probeDone s t1 t2 t3 t4) :=
  gateAO_awake h (fun s => probeDone s t1 t2 t3 t4)

/-- A write to PT_DIE_OFFSET changes the target of the offset alone, and SLEWING where the offset is not there yet (R52). -/
theorem dieOffset_spec (s : State) (v : Word) :
    let t := dieOffset s v
    t.rg Reg.ptDieOffset = v.toNat % 2 ^ 24 ∧ t.now = s.now ∧ (s.pt.off ≠ offTarget t → t.rgBit Reg.ptStatus 4 = true) ∧
      OnlyRegs 0 [Reg.ptDieOffset, Reg.ptStatus] s t := by
  have hv : v.toNat % 2 ^ 24 % 2 ^ 32 = v.toNat % 2 ^ 24 := Nat.mod_eq_of_lt (by omega)
  have written : RegsBut [Reg.ptDieOffset, Reg.ptStatus] s (s.setRg Reg.ptDieOffset (v.toNat % 2 ^ 24)) :=
    regsBut_setRg (by simp) (regsBut_refl _ s)
  unfold dieOffset
  dsimp only
  split
  · next h => exact ⟨by rw [rg_setRg_same, hv], rfl, fun hne => absurd h hne, rfl, written⟩
  · refine ⟨?_, rfl, fun _ => rgBit_setRgBit_same _ _ _ _ (by decide), rfl, regsBut_setRgBit (by simp) written⟩
    rw [rg_setRgBit, rg_setRg_other _ _ _ _ (by decide), rg_setRg_same, hv]

/-- PT_EPOCH_OFFSET as a write of its HI half leaves it, before its record (R56). -/
def epochPair (s : State) (v : Word) : State :=
  (({ s with hiLatch := terase s.hiLatch Reg.ptEpochOffsetLo }).setRg Reg.ptEpochOffsetLo
    (tget (BitVec.ofNat 32 (s.rg Reg.ptEpochOffsetLo)) s.hiLatch Reg.ptEpochOffsetLo).toNat).setRg Reg.ptEpochOffsetHi v.toNat

theorem epochHi_eq (s : State) (v : Word) :
    epochHi s v = ledgerRec (epochPair s v) 167 0x0B none
      ((tget (BitVec.ofNat 32 (s.rg Reg.ptEpochOffsetLo)) s.hiLatch Reg.ptEpochOffsetLo).toNat + 2 ^ 32 * v.toNat) 0 := rfl

theorem regsBut_epochPair {l : List Nat} {s : State} (hlo : Reg.ptEpochOffsetLo ∈ l) (hhi : Reg.ptEpochOffsetHi ∈ l)
    (v : Word) : RegsBut l s (epochPair s v) :=
  regsBut_setRg hhi (regsBut_setRg hlo (regsBut_of_regs rfl (regsBut_refl _ s)))

theorem rg_epochPair_hi (s : State) (v : Word) : (epochPair s v).rg Reg.ptEpochOffsetHi = v.toNat := by
  unfold epochPair
  rw [rg_setRg_same, Nat.mod_eq_of_lt v.isLt]

theorem rg_epochPair_lo (s : State) (v : Word) :
    (epochPair s v).rg Reg.ptEpochOffsetLo =
      (tget (BitVec.ofNat 32 (s.rg Reg.ptEpochOffsetLo)) s.hiLatch Reg.ptEpochOffsetLo).toNat := by
  unfold epochPair
  rw [rg_setRg_other _ _ _ _ (by decide), rg_setRg_same, Nat.mod_eq_of_lt (BitVec.isLt _)]

theorem rg_epochHi {s : State} {v : Word} {o : Nat} (h : o ≠ Reg.evlLost) : (epochHi s v).rg o = (epochPair s v).rg o :=
  regsBut_ledgerSrc (List.mem_singleton_self Reg.evlLost) (regsBut_refl _ (epochPair s v)) _ _ _ _ _ o (by simpa using h)

theorem epochHi_frame (s : State) (v : Word) :
    let t := epochHi s v
    t = { s with regs := t.regs, hiLatch := t.hiLatch, hw := t.hw, evl := t.evl } := by
  intro t
  have h : sansLedger t = sansLedger (epochPair s v) := sansLedger_ledgerSrc ..
  rw [show t.hiLatch = (epochPair s v).hiLatch from (congrArg State.hiLatch h :)]
  exact eq_of_sansLedger h

/-- The EPOCH record, where none waits. -/
theorem waiting_epochHi_first {s : State} (v : Word) (hen : s.rgBit Reg.evlCtl 0 = true) (hw : s.evl.waiting = [])
    (htc : s.evl.stampTc ≠ s.clk.tc) :
    ∃ r, (epochHi s v).evl.waiting = [r] ∧ r.type = 0x0B ∧ r.src = s.src 167 ∧ r.stamp = s.now ∧
      r.arg0 = BitVec.ofNat 64 ((epochHi s v).rg64 Reg.ptEpochOffsetLo Reg.ptEpochOffsetHi) := by
  have hctl : (epochPair s v).rgBit Reg.evlCtl 0 = true :=
    (rgBit_of_regsBut (regsBut_epochPair (l := [Reg.ptEpochOffsetLo, Reg.ptEpochOffsetHi]) (by simp) (by simp) v)
      (by decide) 0).trans hen
  have hpair : (epochHi s v).rg64 Reg.ptEpochOffsetLo Reg.ptEpochOffsetHi =
      (tget (BitVec.ofNat 32 (s.rg Reg.ptEpochOffsetLo)) s.hiLatch Reg.ptEpochOffsetLo).toNat + 2 ^ 32 * v.toNat := by
    unfold State.rg64
    rw [rg_epochHi (by decide), rg_epochHi (by decide), rg_epochPair_lo, rg_epochPair_hi]
  rw [hpair, epochHi_eq]
  exact ⟨_, waiting_ledgerSrc_first hctl hw htc _ _ _ _ _, rfl, rfl, rfl, rfl⟩

/-! ## Probes -/

theorem probeGo_starts {s : State} {v : Word} (hgo : bit v.toNat 31 = true) (hidle : s.pt.probe = none)
    (hup : linkUp s (bits v.toNat 0 2) = true) :
    probeGo s v =
      { s.setRg Reg.ptProbeCtl (bits v.toNat 0 2) with pt := { s.pt with probe := some (bits v.toNat 0 2) } } := by
  simp [probeGo, hgo, hidle, hup]

theorem probeGo_ignored {s : State} {v : Word} (hgo : bit v.toNat 31 = true)
    (h : s.pt.probe.isSome = true ∨ linkUp s (bits v.toNat 0 2) = false) : probeGo s v = s := by
  have hc : (s.pt.probe.isSome || !linkUp s (bits v.toNat 0 2)) = true := by simpa using h
  unfold probeGo
  dsimp only
  rw [if_neg (by simp [hgo]), if_pos hc]

/-- The average of 64 probes is within one sixteenth of the exact value, whatever the free value says (R53, log 4). -/
theorem probeMean_near (ctr key : Nat) (x : Int) : (128 * probeMean ctr key x - x).natAbs < 128 := by
  unfold probeMean
  split <;> omega

/-- The sum of the offset from the peer over the probes, twice (R53). -/
def thetaSum (t1 t2 t3 t4 : List Int) : Int := (probeSum t1 - probeSum t2) + (probeSum t4 - probeSum t3)

/-- The sum of the round trip over the probes (R53). -/
def deltaSum (t1 t2 t3 t4 : List Int) : Int := (probeSum t4 - probeSum t1) - (probeSum t3 - probeSum t2)

/-- The state in which 64 probes have come back (R53). -/
theorem probeDone_busy {s : State} {p : Nat} (hp : s.pt.probe = some p) {t1 t2 t3 t4 : List Int} (h1 : t1.length = 64)
    (h2 : t2.length = 64) (h3 : t3.length = 64) (h4 : t4.length = 64) :
    probeDone s t1 t2 t3 t4 =
      ({ s with pt := { s.pt with probe := none }, freeCtr := s.freeCtr + 1 }.setRg Reg.ptProbeTheta
        (toCode (probeMean s.freeCtr 0 (thetaSum t1 t2 t3 t4)) 24)).setRg Reg.ptProbeDelay
        (toCode (probeMean s.freeCtr 1 (deltaSum t1 t2 t3 t4)) 24) := by
  unfold probeDone
  rw [hp]
  exact if_pos ⟨h1, h2, h3, h4⟩

theorem toCode_lt (x : Int) : toCode x 24 < 2 ^ 32 := by
  unfold toCode
  omega

/-- A read of PT_NOW_LO answers the low half of now and latches the high half (R56). -/
theorem exec_ptNowLoRead {s : State} (h : frozen s = false) :
    exec (.ptNowLoRead Reg.ptNowLo) s =
      .next ({ s with hiLatch := tset 0#32 s.hiLatch Reg.ptNowHi (BitVec.ofNat 32 (s.now / 2 ^ 32)) }.emit
        (.reply .ok (BitVec.ofNat 64 (s.now % 2 ^ 32)))) := by
  have hl : Live s 0 := by
    simp only [frozen, Bool.or_eq_false_iff] at h
    exact ⟨h.1, h.2, rfl⟩
  exact gate_live (d := 0) hl 7 0 (.ptNowLoRead Reg.ptNowLo) (fun s => replied (regRead s Reg.ptNowLo))

/-- Settles O10: the offsets, the probes and the reading of now, each by the equation of its operation. -/
theorem ptOffsetsAndProbes : Obligations.PtOffsetsAndProbes := by
  unfold Obligations.PtOffsetsAndProbes
  refine ⟨⟨?slewEnd, ?dieOffset, ?epoch⟩, ?go, ?ignored, ?done, ?now⟩
  case slewEnd =>
    intro s hr hs ho
    exact ⟨_, exec_ptSlewEnd_clears hr hs ho, rgBit_setRgBit_same _ _ _ _ (by decide), rfl,
      regsBut_setRgBit (by simp) (regsBut_refl _ s)⟩
  case dieOffset =>
    intro s v hf
    exact ⟨_, exec_ptDieOffsetWrite hf v, dieOffset_spec s v⟩
  case epoch =>
    intro s v hf
    refine ⟨_, exec_ptEpochOffsetHiWrite hf v, ?_, ?_, fun hen hw htc => waiting_epochHi_first v hen hw htc,
      epochHi_frame s v, regsBut_ledgerSrc (by simp) (regsBut_epochPair (by simp) (by simp) v) _ _ _ _ _⟩
    · rw [rg_epochHi (by decide), rg_epochPair_hi]
    · rw [rg_epochHi (by decide), rg_epochPair_lo]
  case go =>
    intro s v hf hgo hidle hup
    refine ⟨_, exec_ptProbeGo hf v, ?_⟩
    rw [probeGo_starts hgo hidle hup]
    refine ⟨rfl, ?_, regsBut_of_regs rfl (regsBut_setRg (v := bits v.toNat 0 2) (by simp) (regsBut_refl _ s)), rfl⟩
    exact (rg_setRg_same s _ _).trans (Nat.mod_eq_of_lt ((bits_lt _ 0 2).trans (by decide)))
  case ignored =>
    intro s v hf hgo h
    rw [exec_ptProbeGo hf, probeGo_ignored hgo h]
  case done =>
    intro s p t1 t2 t3 t4 hf hp h1 h2 h3 h4
    refine ⟨_, probeMean s.freeCtr 0 (thetaSum t1 t2 t3 t4), probeMean s.freeCtr 1 (deltaSum t1 t2 t3 t4),
      exec_ptProbeDone hf t1 t2 t3 t4, ?_⟩
    rw [probeDone_busy hp h1 h2 h3 h4]
    refine ⟨rfl, ?_, ?_, probeMean_near _ _ _, probeMean_near _ _ _,
      regsBut_setRg (by simp) (regsBut_setRg (by simp) (regsBut_of_regs rfl (regsBut_refl _ s))), rfl⟩
    · rw [rg_setRg_other _ _ _ _ (by decide), rg_setRg_same, Nat.mod_eq_of_lt (toCode_lt _)]
    · rw [rg_setRg_same, Nat.mod_eq_of_lt (toCode_lt _)]
  case now =>
    intro s hf
    exact ⟨_, exec_ptNowLoRead hf, rfl, tget_tset_same .., rfl⟩

end Sys2Proof.Machine


/-! SUPPORT. The event ledger (R45 to R49): the set-up, the drop of what waits, the place of a record in STACK space. -/

namespace Sys2Proof.Machine

theorem exec_evlEnable {s : State} (h : frozen s = false) {v : Word} (hv : bit v.toNat 0 = true) :
    exec (.evlEnable v) s = .next (evlEnable s v) := by
  have e := gateAO_awake h (fun s => if bit v.toNat 0 then evlEnable s v else s)
  exact e.trans (by rw [if_pos hv])

theorem exec_evlDisable {s : State} (h : frozen s = false) {v : Word} (hv : bit v.toNat 0 = false) :
    exec (.evlDisable v) s = .next (evlDisable s v) := by
  have e := gateAO_awake h (fun s => if bit v.toNat 0 then s else evlDisable s v)
  exact e.trans (by rw [hv, if_neg Bool.false_ne_true])

theorem exec_evlRecordPlace {s : State} (h : frozen s = false) (u : Nat) :
    exec (.evlRecordPlace u) s = .next (evlPlace s u) := gateAO_awake h (fun s => evlPlace s u)

/-- The fields of EVL_CTL beside EN. -/
theorem evlFields_lt (v : Word) : (v.toNat &&& 0xFF06) + 1 < 2 ^ 32 :=
  lt_of_le_of_lt (Nat.succ_le_succ Nat.and_le_right) (by decide)

theorem evlEnable_on {s : State} (h : s.rgBit Reg.evlCtl 0 = true) (v : Word) :
    evlEnable s v = s.setRg Reg.evlCtl ((v.toNat &&& 0xFF06) + 1) := by
  simp [evlEnable, h]

theorem evlEnable_good {s : State} (h : s.rgBit Reg.evlCtl 0 = false) (hok : evlSetupOk s = true) (v : Word) :
    evlEnable s v = ((s.setRg Reg.evlCtl ((v.toNat &&& 0xFF06) + 1)).setRg Reg.evlTail 0).setRg Reg.evlHead 0 := by
  simp [evlEnable, h, hok]

theorem evlEnable_bad {s : State} (h : s.rgBit Reg.evlCtl 0 = false) (hok : evlSetupOk s = false) (v : Word) :
    evlEnable s v = (s.setRg Reg.evlCtl (v.toNat &&& 0xFF06)).setRgBit Reg.evlStatus 0 true := by
  simp [evlEnable, h, hok]

/-! ## The drop of what waits (R48) -/

/-- Records dropped one after another. -/
def evlDropAll (s : State) (l : List LedgerRec) : State := l.foldl (fun u r => evlDrop u r.src) s

theorem evlDropAll_cons (s : State) (r : LedgerRec) (l : List LedgerRec) :
    evlDropAll s (r :: l) = evlDropAll (evlDrop s r.src) l := rfl

theorem rg_evlDrop (s : State) (src : Nat) : (evlDrop s src).rg Reg.evlLost = min (s.rg Reg.evlLost + 1) 0xFFFFFFFF := by
  show (s.setRg Reg.evlLost (min (s.rg Reg.evlLost + 1) 0xFFFFFFFF)).rg Reg.evlLost = _
  rw [rg_setRg_same, Nat.mod_eq_of_lt (by omega)]

theorem lost_evlDrop (s : State) (src u : Nat) :
    tget 0 (evlDrop s src).evl.lost u = tget 0 s.evl.lost u + if src = u then 1 else 0 := by
  show tget 0 (tset 0 s.evl.lost src (tget 0 s.evl.lost src + 1)) u = _
  by_cases h : src = u
  · subst h
    rw [tget_tset_same, if_pos rfl]
  · rw [tget_tset_other _ _ _ _ _ _ (Ne.symm h), if_neg h, Nat.add_zero]

theorem sansLedger_evlDropAll (s : State) (l : List LedgerRec) : sansLedger (evlDropAll s l) = sansLedger s := by
  induction l generalizing s with
  | nil => rfl
  | cons r l ih => rw [evlDropAll_cons, ih]; rfl

theorem regsBut_evlDropAll {m : List Nat} {s t : State} (hm : Reg.evlLost ∈ m) (h : RegsBut m s t) (l : List LedgerRec) :
    RegsBut m s (evlDropAll t l) := by
  induction l generalizing t with
  | nil => exact h
  | cons r l ih =>
    rw [evlDropAll_cons]
    exact ih (regsBut_of_regs (t := t.countRg Reg.evlLost 1) rfl (regsBut_countRg hm h))

theorem waiting_evlDropAll (s : State) (l : List LedgerRec) : (evlDropAll s l).evl.waiting = s.evl.waiting := by
  induction l generalizing s with
  | nil => rfl
  | cons r l ih => rw [evlDropAll_cons, ih]; rfl

/-- EVL_LOST counts every record that is dropped, up to its end. -/
theorem rg_evlDropAll (s : State) (l : List LedgerRec) :
    (evlDropAll s l).rg Reg.evlLost = min (s.rg Reg.evlLost + l.length) 0xFFFFFFFF := by
  induction l generalizing s with
  | nil =>
    have h := rg_lt s Reg.evlLost
    show s.rg Reg.evlLost = min (s.rg Reg.evlLost + 0) 0xFFFFFFFF
    omega
  | cons r l ih =>
    rw [evlDropAll_cons, ih, rg_evlDrop, List.length_cons]
    omega

/-- Each source's count of lost records rises by its own. -/
theorem lost_evlDropAll (s : State) (l : List LedgerRec) (u : Nat) :
    tget 0 (evlDropAll s l).evl.lost u = tget 0 s.evl.lost u + (l.filter (fun r => r.src == u)).length := by
  induction l generalizing s with
  | nil => rfl
  | cons r l ih =>
    rw [evlDropAll_cons, ih, lost_evlDrop, List.filter_cons]
    by_cases h : r.src = u
    · simp [h]
      omega
    · simp [h]

/-- Recording off, with nothing that waits. -/
def evlOff (s : State) (v : Word) : State :=
  { s.setRg Reg.evlCtl (v.toNat &&& 0xFF06) with evl := { s.evl with waiting := [] } }

theorem evlDisable_eq (s : State) (v : Word) : evlDisable s v = evlDropAll (evlOff s v) s.evl.waiting := rfl

theorem rg_evlOff_lost (s : State) (v : Word) : (evlOff s v).rg Reg.evlLost = s.rg Reg.evlLost :=
  rg_setRg_other s _ _ _ (by decide)

theorem rg_evlOff_ctl (s : State) (v : Word) : (evlOff s v).rg Reg.evlCtl = v.toNat &&& 0xFF06 :=
  (rg_setRg_same s _ _).trans (Nat.mod_eq_of_lt (by have := evlFields_lt v; omega))

/-! ## The place of a record (R46, R49) -/

/-- A record written into STACK space of this die, of a granule that the SLC does not hold (R49, R238). -/
theorem recWrite_stack {s : State} {a : Nat} (ha : a < 2 ^ 55) (hd : ppaDie a = s.pwr.dieId) (hs : ppaSpace a = 8)
    (hp : framePresent s (ppaOff a / 2 ^ 21) = true)
    (hf : (s.frame (ppaOff a / 2 ^ 21)).state ∈ [FrameState.free, .mapped, .unmapping, .retiring])
    (hl : tfind s.slc.lines (a / 128) = none) (data : List Byte) :
    recWrite s false a data = { s with stackMem := s.stackMem.writeN (ppaOff a) data } := by
  have own : ownBankOrStack s a = true := by
    simp only [ownBankOrStack, hd, hs, hp, decide_eq_true ha, beq_self_eq_true, Bool.and_true, Bool.or_true]
  have pass : slcPassing { s with stackMem := s.stackMem.writeN (ppaOff a) data } a =
      { s with stackMem := s.stackMem.writeN (ppaOff a) data } := by
    simp [slcPassing, passKey, hs, hl]
  unfold recWrite
  rw [if_neg Bool.false_ne_true, if_pos own, if_neg (by omega)]
  split
  · next h => exact absurd (h ▸ hf) (by decide)
  · next h => exact absurd (h ▸ hf) (by decide)
  · next h => exact absurd (h ▸ hf) (by decide)
  · exact pass

/-- A record written at its position in STACK space of this die, with its lap bit (R46). -/
theorem evlPut_stack {s : State} {a : Nat} {r : LedgerRec}
    (hpos : a = s.rg64 Reg.evlBaseLo Reg.evlBaseHi + s.rg Reg.evlTail % 2 ^ s.rg Reg.evlSize * 32) (ha : a < 2 ^ 55)
    (hd : ppaDie a = s.pwr.dieId) (hs : ppaSpace a = 8) (hp : framePresent s (ppaOff a / 2 ^ 21) = true)
    (hf : (s.frame (ppaOff a / 2 ^ 21)).state ∈ [FrameState.free, .mapped, .unmapping, .retiring])
    (hl : tfind s.slc.lines (a / 128) = none) :
    evlPut s r =
      { s with stackMem := s.stackMem.writeN (ppaOff a) (recBytes r.stamp r.src r.seq r.type (b2n r.unlocked)
        (s.rg Reg.evlTail / 2 ^ s.rg Reg.evlSize % 2) r.ctx r.arg0 r.arg1) }.setRg Reg.evlTail
        ((s.rg Reg.evlTail + 1) % 2 ^ 32) := by
  unfold evlPut
  dsimp only
  rw [← hpos, recWrite_stack ha hd hs hp hf hl]

/-- In WRAP mode the oldest record that waits, of a source that lost none, is written at the next position. -/
theorem evlPlace_wrap {s : State} {u : Nat} {r : LedgerRec} {l : List LedgerRec} (hen : s.rgBit Reg.evlCtl 0 = true)
    (hwrap : s.rgBit Reg.evlCtl 1 = false) (hw : s.evl.waiting = r :: l) (hr : r.src = u)
    (hlost : tget 0 s.evl.lost u = 0) :
    evlPlace s u = evlPut { s with evl := { s.evl with waiting := l } } r := by
  have room : evlRoom { s with evl := { s.evl with waiting := l } } = 2 := by
    unfold evlRoom
    exact if_neg (by rw [Bool.not_eq_true]; exact hwrap)
  unfold evlPlace
  rw [if_pos hen, hw]
  simp [evlTake, hr, hlost, room]

/-- Settles O11: the set-up by the equations of evlEnable, the drop by evlDropAll, the place by recWrite_stack. -/
theorem eventLedger : Obligations.EventLedger := by
  unfold Obligations.EventLedger
  refine ⟨?good, ?bad, ?again, ?disable, ?place⟩
  case good =>
    intro s v hf hv hen hok
    refine ⟨_, exec_evlEnable hf hv, ?_⟩
    rw [evlEnable_good hen hok]
    refine ⟨?_, ?_, rg_setRg_same _ _ _, rfl,
      regsBut_setRg (by simp) (regsBut_setRg (by simp) (regsBut_setRg (by simp) (regsBut_refl _ s)))⟩
    · rw [rg_setRg_other _ _ _ _ (by decide), rg_setRg_other _ _ _ _ (by decide), rg_setRg_same,
        Nat.mod_eq_of_lt (evlFields_lt v)]
    · exact (rg_setRg_other _ _ _ _ (by decide)).trans (rg_setRg_same _ _ _)
  case bad =>
    intro s v hf hv hen hok
    refine ⟨_, exec_evlEnable hf hv, ?_⟩
    rw [evlEnable_bad hen hok]
    refine ⟨?_, rgBit_setRgBit_same _ _ _ _ (by decide), rfl,
      regsBut_setRgBit (by simp) (regsBut_setRg (by simp) (regsBut_refl _ s))⟩
    have := evlFields_lt v
    rw [rg_setRgBit, rg_setRg_other _ _ _ _ (by decide), rg_setRg_same, Nat.mod_eq_of_lt (by omega)]
  case again =>
    intro s v hf hv hen
    refine ⟨_, exec_evlEnable hf hv, ?_⟩
    rw [evlEnable_on hen]
    exact ⟨by rw [rg_setRg_same, Nat.mod_eq_of_lt (evlFields_lt v)], rfl, regsBut_setRg (by simp) (regsBut_refl _ s)⟩
  case disable =>
    intro s v hf hv
    have off : RegsBut [Reg.evlCtl, Reg.evlLost] s (evlOff s v) :=
      regsBut_of_regs rfl (regsBut_setRg (v := v.toNat &&& 0xFF06) (by simp) (regsBut_refl _ s))
    refine ⟨_, exec_evlDisable hf hv, ?_⟩
    rw [evlDisable_eq]
    refine ⟨?_, waiting_evlDropAll _ _, ?_, fun u => lost_evlDropAll _ _ u,
      eq_of_sansLedger (s := s) (sansLedger_evlDropAll _ _), regsBut_evlDropAll (by simp) off _⟩
    · rw [regsBut_evlDropAll (List.mem_singleton_self _) (regsBut_refl _ _) _ Reg.evlCtl (by decide), rg_evlOff_ctl]
    · rw [rg_evlDropAll, rg_evlOff_lost]
  case place =>
    intro s u a r l hf hen hwrap hw hr hlost ha hlt hd hs hp hst hl
    refine ⟨_, exec_evlRecordPlace hf u, ?_⟩
    rw [evlPlace_wrap hen hwrap hw hr hlost,
      evlPut_stack (s := { s with evl := { s.evl with waiting := l } }) ha hlt hd hs hp hst hl]
    refine ⟨rfl, ?_, rfl, rfl, regsBut_setRg (by simp) (regsBut_of_regs rfl (regsBut_refl _ s))⟩
    exact (rg_setRg_same _ _ _).trans (Nat.mod_mod _ _)

end Sys2Proof.Machine


/-! SUPPORT. The idle step (log 5): a nanosecond of the block's time, a tc of tclk. -/

namespace Sys2Proof.Machine

/-- A step on an empty queue where no request may leave its domain's edge. -/
theorem step_idle {s : State} (hp : s.pending = []) (hw : s.waits.find? (edgeReady s) = none) :
    step s = .next (tick s) := by
  unfold step
  rw [hp]
  dsimp only
  rw [hw]

theorem step_serves {s : State} {w : Nat × Option Nat × Instr} (hp : s.pending = [])
    (hw : s.waits.find? (edgeReady s) = some w) : step s = exec w.2.2 { s with waits := s.waits.erase w } := by
  unfold step
  rw [hp]
  dsimp only
  rw [hw]

/-! ## A nanosecond (R27, R29, R366) -/

/-- A counting cycle moves the copy of PT alone. -/
theorem ptTick_frame (s : State) : ptTick s = { s with pt := (ptTick s).pt } := by
  unfold ptTick
  dsimp only
  split <;> rfl

/-- A counting cycle moves the copy by 15 to 17 sixteenths. -/
theorem ptTick_raw (s : State) : s.pt.raw + 15 ≤ (ptTick s).pt.raw ∧ (ptTick s).pt.raw ≤ s.pt.raw + 17 := by
  unfold ptTick
  dsimp only
  split
  · dsimp only
    omega
  · dsimp only
    split_ifs <;> omega

/-- The state without what the watchdogs and the trace port move. -/
def sansWatch (s : State) : State := { s with ras := State.reset.ras, obs := State.reset.obs, out := [] }

theorem eq_of_sansWatch {s t : State} (h : sansWatch t = sansWatch s) :
    t = { s with ras := t.ras, obs := t.obs, out := t.out } :=
  calc t = { sansWatch t with ras := t.ras, obs := t.obs, out := t.out } := rfl
    _ = { s with ras := t.ras, obs := t.obs, out := t.out } := by rw [h]; rfl

theorem sansWatch_traceTick (s : State) : sansWatch (traceTick s) = sansWatch s := by
  unfold traceTick
  split
  · rfl
  · split <;> rfl

theorem sansWatch_watchTick (s : State) : sansWatch (watchTick s) = sansWatch s := by
  unfold watchTick
  split <;> rfl

theorem traceTick_held {s : State} (h : s.obs.holds = true) : traceTick s = s := by
  unfold traceTick
  split
  · rfl
  · exact if_neg (by simp [h])

/-- While a stop holds only the copy of PT moves, since tclk and the watchdogs stand. -/
theorem tick_held {s : State} (h : s.obs.holds = true) : tick s = ptTick s := by
  have hp : (ptTick s).obs.holds = true := by rw [ptTick_frame]; exact h
  have hdue : tcDue s = false := by simp [tcDue, h]
  unfold tick
  rw [hdue, if_neg Bool.false_ne_true, clkTick, if_pos hp, watchTick, if_pos hp, traceTick_held hp]

/-- The copy of PT and the tc due as a nanosecond leaves them. -/
def nsPassed (s : State) : State :=
  { s with pt := (ptTick s).pt, clk := { s.clk with acc := s.clk.acc + tcRate s } }

theorem tick_nanosecond {s : State} (h : s.obs.holds = false) (hacc : s.clk.acc < 20) :
    tick s = traceTick (watchTick (nsPassed s)) := by
  have hdue : tcDue s = false := by simp [tcDue, Nat.not_le.mpr hacc]
  have hc : clkTick { s with pt := (ptTick s).pt } = nsPassed s := if_neg (by simp [h])
  unfold tick
  rw [hdue, if_neg Bool.false_ne_true, ptTick_frame, hc]

theorem sansWatch_tick {s : State} (h : s.obs.holds = false) (hacc : s.clk.acc < 20) :
    sansWatch (tick s) = sansWatch (nsPassed s) := by
  rw [tick_nanosecond h hacc, sansWatch_traceTick, sansWatch_watchTick]

/-! ## A tc (Table 15.7) -/

/-- The state without the event counters and the record of the tc. -/
def sansCount (s : State) : State := { s with hw := State.reset.hw, obs := State.reset.obs }

theorem eq_of_sansCount {s t : State} (h : sansCount t = sansCount s) : t = { s with hw := t.hw, obs := t.obs } :=
  calc t = { sansCount t with hw := t.hw, obs := t.obs } := rfl
    _ = { s with hw := t.hw, obs := t.obs } := by rw [h]; rfl

theorem sansCount_countEvent (s : State) (ev q n : Nat) : sansCount (countEvent s ev q n) = sansCount s := by
  unfold countEvent
  split <;> rfl

/-- A tc that is due is what moves of itself, with its counts. -/
theorem sansCount_tick {s : State} (h : s.obs.holds = false) (hacc : 20 ≤ s.clk.acc) :
    sansCount (tick s) = sansCount (tcGo { s with clk := { s.clk with acc := s.clk.acc - 20 } }) := by
  have hdue : tcDue s = true := by simp [tcDue, hacc, h]
  unfold tick tcTick
  rw [if_pos hdue]
  dsimp only
  split
  · rw [sansCount_countEvent, sansCount_countEvent]
  · rfl

/-- The state of which a tc that is due makes its next one. -/
def tcMarked (s : State) : State :=
  portsMark { s with clk := { s.clk with acc := s.clk.acc - 20, tc := s.clk.tc + 1 } }

theorem tcGo_still {s : State} (h : frozen s = true ∨ isUp s dFAB = false) :
    tcGo { s with clk := { s.clk with acc := s.clk.acc - 20 } } = tcMarked s := by
  have hc : (frozen (tcMarked s) || !isUp (tcMarked s) dFAB) = true := by
    show (frozen s || !isUp s dFAB) = true
    simpa using h
  exact if_pos hc

/-- Nothing is on its way: no segment, header, request at an issue point, command, wake or request of a port. -/
structure Quiescent (s : State) : Prop where
  flights : s.mesh.flights = []
  hdrs : s.mesh.hdrs = []
  waiting : s.regu.waiting = []
  pctxs : s.work.pctxs = []
  wakes : s.sync.wakes = []
  queues : ∀ p ∈ s.ports, p.2.queue = []

/-- The mesh of a quiescent die has but the overdue bits of its tellers to latch. -/
theorem segmentsTc_quiescent {s : State} (h : Quiescent s) :
    segmentsTc s = { s with mesh := { s.mesh with tellers := s.mesh.tellers.map (fun c => (c.1, tellerLatch s c.2)) } } := by
  have hm : meshTc s = { s with mesh := { s.mesh with
      tellers := s.mesh.tellers.map (fun c => (c.1, tellerLatch s c.2)) } } := by
    simp [meshTc, hdrTc, h.hdrs, h.flights]
  unfold segmentsTc
  rw [hm]
  simp [h.flights, h.waiting]

theorem portsRetry_quiescent {s : State} (h : ∀ p ∈ s.ports, p.2.queue = []) : portsRetry s = s := by
  unfold portsRetry
  generalize s.ports = l at h
  induction l with
  | nil => rfl
  | cons p l ih =>
    rw [List.foldl_cons, h p List.mem_cons_self]
    exact ih (fun q hq => h q (List.mem_cons_of_mem _ hq))

theorem wakesTc_quiescent {s : State} (h : s.sync.wakes = []) : wakesTc s = s := by
  unfold wakesTc
  rw [h]
  show ({ s with sync := { s.sync with wakes := [] } } : State) = s
  rw [← h]

theorem quiescent_tcMarked {s : State} (h : Quiescent s) : Quiescent (tcMarked s) where
  flights := h.flights
  hdrs := h.hdrs
  waiting := h.waiting
  pctxs := h.pctxs
  wakes := h.wakes
  queues := by
    intro p hp
    obtain ⟨q, hq, rfl⟩ := List.mem_map.mp hp
    exact h.queues q hq

/-- A tc of a quiescent die latches the overdue bits of the tellers and of the waiters, and nothing else (R40). -/
theorem tcGo_quiescent {s : State} (h : Quiescent s) (hf : frozen s = false) (hu : isUp s dFAB = true) :
    tcGo { s with clk := { s.clk with acc := s.clk.acc - 20 } } =
      waitersLatch { tcMarked s with mesh := { (tcMarked s).mesh with
        tellers := (tcMarked s).mesh.tellers.map (fun c => (c.1, tellerLatch (tcMarked s) c.2)) } } := by
  have hq := quiescent_tcMarked h
  have hc : (frozen (tcMarked s) || !isUp (tcMarked s) dFAB) = false := by
    show (frozen s || !isUp s dFAB) = false
    simp [hf, hu]
  have hs := segmentsTc_quiescent hq
  have hp : (waitersLatch (segmentsTc (tcMarked s))).work.pctxs = [] := by
    rw [hs]
    exact h.pctxs
  have go : tcGo { s with clk := { s.clk with acc := s.clk.acc - 20 } } =
      wakesTc (portsRetry (waitersLatch (segmentsTc (tcMarked s)))) := by
    unfold tcGo
    refine (if_neg (by rw [Bool.not_eq_true]; exact hc)).trans ?_
    show wakesTc (portsRetry (((List.range 32).filter (fun m =>
      (waitersLatch (segmentsTc (tcMarked s))).work.pctxs.any (fun e => e.1 / 8 == m))).foldl moverTc _)) = _
    simp only [hp, List.any_nil, List.filter_false, List.foldl_nil]
    rfl
  rw [go, hs, portsRetry_quiescent, wakesTc_quiescent]
  · exact hq.wakes
  · exact hq.queues

/-- Of a quiescent die a tc changes no more than the overdue bits, whether its domain FAB serves or not. -/
theorem tcGo_latches {s : State} (h : Quiescent s) : ∃ (tellers : Table Teller) (waiters : List Waiter),
    tcGo { s with clk := { s.clk with acc := s.clk.acc - 20 } } =
      { tcMarked s with mesh := { s.mesh with tellers := tellers }, sync := { s.sync with waiters := waiters } } := by
  by_cases hs : frozen s = true ∨ isUp s dFAB = false
  · exact ⟨s.mesh.tellers, s.sync.waiters, tcGo_still hs⟩
  · rw [not_or, Bool.not_eq_true, Bool.not_eq_false] at hs
    exact ⟨_, _, tcGo_quiescent h hs.1 hs.2⟩

/-- Settles O2: a nanosecond by the frames of its parts, a tc by tcGo on a still and on a quiescent die. -/
theorem stepIdles : Obligations.StepIdles := by
  unfold Obligations.StepIdles
  refine ⟨fun s w hp hw => step_serves hp hw, fun s hp hw => ⟨tick s, step_idle hp hw, ?held, ?ns, ?raw, ?tc⟩⟩
  case held =>
    intro h
    rw [tick_held h]
    exact ptTick_frame s
  case ns =>
    intro h hacc
    have hs := sansWatch_tick h hacc
    rw [show (tick s).pt = (ptTick s).pt from (congrArg State.pt hs :)]
    exact eq_of_sansWatch hs
  case raw =>
    intro h
    have hpt : (tick s).pt = (ptTick s).pt := by
      cases hh : s.obs.holds with
      | true => rw [tick_held hh]
      | false => exact (congrArg State.pt (sansWatch_tick hh (h.resolve_left (by simp [hh]))) :)
    rw [hpt]
    exact ptTick_raw s
  case tc =>
    intro h hacc
    have hs := sansCount_tick h hacc
    refine ⟨fun hstill => ?_, fun hfl hh hw hp hk hq => ?_⟩
    · rw [tcGo_still hstill] at hs
      rw [show (tick s).ports = (tcMarked s).ports from (congrArg State.ports hs :)]
      exact eq_of_sansCount hs
    · obtain ⟨tellers, waiters, e⟩ := tcGo_latches ⟨hfl, hh, hw, hp, hk, hq⟩
      rw [e] at hs
      rw [show (tick s).ports = (tcMarked s).ports from (congrArg State.ports hs :),
        show (tick s).mesh.tellers = tellers from (congrArg (fun u : State => u.mesh.tellers) hs :),
        show (tick s).sync.waiters = waiters from (congrArg (fun u : State => u.sync.waiters) hs :)]
      exact eq_of_sansCount hs

end Sys2Proof.Machine


/-! SUPPORT. Descriptor fetch (R135, R136, R141, R42): what the flag store's operations leave of a command ring, the look at a
ring's head, the arrival of a batch. -/

namespace Sys2Proof.Machine

/-! ## What leaves HEAD and the batches of a ring as they were -/

/-- HEAD and the batches in flight of a command ring are as before. -/
def KeepsRing (r : Nat) (s t : State) : Prop :=
  t.rg (Reg.cmdrHead r) = s.rg (Reg.cmdrHead r) ∧ (t.ring r).batches = (s.ring r).batches

theorem KeepsRing.refl (r : Nat) (s : State) : KeepsRing r s s := ⟨rfl, rfl⟩

theorem KeepsRing.trans {r : Nat} {s t u : State} (h : KeepsRing r s t) (k : KeepsRing r t u) : KeepsRing r s u :=
  ⟨k.1.trans h.1, k.2.trans h.2⟩

theorem keepsRing_foldl {α : Type} {r : Nat} {f : State → α → State} (hf : ∀ t a, KeepsRing r t (f t a)) (l : List α)
    (s : State) : KeepsRing r s (l.foldl f s) := by
  induction l generalizing s with
  | nil => exact .refl r s
  | cons a l ih => exact (hf s a).trans (ih (f s a))

theorem keepsRing_of_regsBut {r : Nat} {l : List Nat} {s t : State} (h : RegsBut l s t) (hl : Reg.cmdrHead r ∉ l)
    (hw : t.work.rings = s.work.rings) : KeepsRing r s t :=
  ⟨h _ hl, by unfold State.ring; rw [hw]⟩

/-- The registers of command rings lie from 0x20000 on, those of other units below or behind them (Table 17.1). -/
theorem cmdrHead_notMem {r : Nat} {l : List Nat} (h : ∀ o ∈ l, o < 0x20000 ∨ 0x28000 ≤ o) (hr : r < 1024) :
    Reg.cmdrHead r ∉ l := by
  intro hm
  have := h _ hm
  simp only [Reg.cmdrHead] at this
  omega

/-- A change of rings that keeps each one's batches keeps those of ring r. -/
theorem batches_tget_map {f : Nat × Ring → Nat × Ring} (hk : ∀ e, (f e).1 = e.1)
    (hb : ∀ e, (f e).2.batches = e.2.batches) (l : Table Ring) (r : Nat) :
    (tget cmdIdle (l.map f) r).batches = (tget cmdIdle l r).batches := by
  induction l with
  | nil => rfl
  | cons e l ih =>
    obtain ⟨k, x⟩ := e
    have hk := hk (k, x)
    have hb := hb (k, x)
    rw [List.map_cons]
    generalize f (k, x) = y at hk hb
    obtain ⟨k', x'⟩ := y
    obtain rfl : k' = k := hk
    unfold tget
    split
    · exact hb
    · exact ih

section
variable {r : Nat} (hr : r < 1024)

theorem keepsRing_setPctx (s : State) (k : Nat) (x : PCtx) : KeepsRing r s (s.setPctx k x) := ⟨rfl, rfl⟩

theorem keepsRing_countEvent (s : State) (ev q n : Nat) : KeepsRing r s (countEvent s ev q n) := by
  unfold countEvent
  split <;> exact .refl r s

theorem keepsRing_takeSeq (s : State) (src : Nat) : KeepsRing r s (takeSeq s src).2.2 := ⟨rfl, rfl⟩

theorem keepsRing_flagPut (s : State) (p : Nat) (v : Bool) (src : Nat) : KeepsRing r s (flagPut s p v src) := by
  unfold flagPut
  dsimp only
  split <;> exact ⟨rfl, rfl⟩

include hr

theorem keepsRing_event (s : State) (src : Nat) (ctx : Option (Nat × Nat)) (type line a0 a1 : Nat) :
    KeepsRing r s (event s src ctx type line a0 a1) :=
  keepsRing_of_regsBut (eventFrame_event ..).1 (cmdrHead_notMem (by decide) hr) (eventFrame_event ..).rings

theorem keepsRing_ledgerSrc (s : State) (src type : Nat) (ctx : Option (Nat × Nat)) (a0 a1 : Nat) :
    KeepsRing r s (ledgerSrc s src type ctx a0 a1) :=
  keepsRing_of_regsBut (regsBut_ledgerSrc (List.mem_singleton_self _) (regsBut_refl _ s) _ _ _ _ _)
    (cmdrHead_notMem (by decide) hr) (congrArg (fun u : State => u.work.rings) (sansLedger_ledgerSrc s src type ctx a0 a1) :)

theorem keepsRing_traceDrop (s : State) : KeepsRing r s (traceDrop s) :=
  keepsRing_of_regsBut (l := [Reg.traceDrops]) (regsBut_of_regs (t := s.countRg Reg.traceDrops 1) rfl
    (regsBut_countRg (List.mem_singleton_self _) (regsBut_refl _ s))) (cmdrHead_notMem (by decide) hr) rfl

theorem keepsRing_tracePush (s : State) (x : TraceRec) : KeepsRing r s (tracePush s x) := by
  have taken := keepsRing_takeSeq (r := r) s s.srcClerk
  unfold tracePush
  dsimp only
  split
  · exact .refl r s
  · split
    · split
      · next e => rw [e] at taken; exact taken.trans (keepsRing_traceDrop hr _)
      · next e => rw [e] at taken; exact taken
    · exact keepsRing_traceDrop hr s

theorem keepsRing_traceEv (s : State) (src op other obj : Nat) : KeepsRing r s (traceEv s src op other obj) := by
  unfold traceEv
  generalize (if src / 256 = s.pwr.dieId then unitNode (src % 256) else 32) = node
  dsimp only
  split
  · split
    · exact (keepsRing_takeSeq s src).trans (keepsRing_tracePush hr _ _)
    · exact (keepsRing_takeSeq s src).trans (keepsRing_traceDrop hr _)
  · exact .refl r s

theorem keepsRing_syncRec (s : State) (src : Nat) (ctx : Option (Nat × Nat)) (obj op last : Nat) :
    KeepsRing r s (syncRec s src ctx obj op last) := by
  have ledger : KeepsRing r s
      (if s.rgBit Reg.evlCtl 2 then ledgerSrc s src 0x06 ctx (obj + op * 2 ^ 16) last else s) := by
    split
    · exact keepsRing_ledgerSrc hr ..
    · exact .refl r s
  exact ledger.trans (keepsRing_traceEv hr ..)

theorem keepsRing_lendOff (s : State) (n : Nat) : KeepsRing r s (lendOff s n) := by
  have off : KeepsRing r s (if s.rgBit Reg.syncLendStatus n then s.setRgBit Reg.syncLendStatus n false else s) := by
    split
    · exact keepsRing_of_regsBut (l := [Reg.syncLendStatus])
        (regsBut_setRgBit (List.mem_singleton_self _) (regsBut_refl _ s)) (cmdrHead_notMem (by decide) hr) rfl
    · exact .refl r s
  exact off

theorem keepsRing_wakeOne (s : State) {d : Nat} (hd : d < 37) (kind src least : Nat) :
    KeepsRing r s (wakeOne s d kind src least) := by
  have hmem : ∀ o ∈ [Reg.pwrWakesrc d, Reg.pwrCause], o < 0x20000 ∨ 0x28000 ≤ o := by
    simp only [List.forall_mem_cons, Reg.pwrWakesrc, Reg.pwrCause]
    refine ⟨by omega, by omega, by simp⟩
  unfold wakeOne
  dsimp only
  split
  · refine KeepsRing.trans ?_ (keepsRing_event hr ..)
    exact keepsRing_of_regsBut (regsBut_setRgBit (by simp) (regsBut_setRg (by simp) (regsBut_of_regs rfl (regsBut_refl _ s))))
      (cmdrHead_notMem hmem hr) rfl
  · exact .refl r s
  · exact .refl r s

theorem keepsRing_wakeDom (s : State) (d kind src : Nat) : KeepsRing r s (wakeDom s d kind src) := by
  unfold wakeDom
  split
  · exact .refl r s
  · next h =>
    have hd : d < 37 := by
      by_contra hd
      exact h (by simp [domPresent, hd])
    dsimp only
    split
    · exact keepsRing_wakeOne hr s hd ..
    · exact (keepsRing_wakeOne hr s (by decide) ..).trans (keepsRing_wakeOne hr _ hd ..)

theorem keepsRing_wakePush (s : State) (w : NodeWake) : KeepsRing r s (wakePush s w) :=
  ((keepsRing_lendOff hr s w.node).trans (keepsRing_wakeDom hr _ _ 2 s.srcClerk) :)

theorem keepsRing_pctxWake (s : State) (k : Nat) : KeepsRing r s (pctxWake s k) := by
  have off := keepsRing_lendOff hr s (k / 8)
  unfold pctxWake
  split
  · exact .refl r s
  · dsimp only
    split <;> exact off.trans (keepsRing_setPctx ..)

theorem keepsRing_pctxFault (s : State) (k : Nat) (st : Status) : KeepsRing r s (pctxFault s k st) := by
  have off := keepsRing_lendOff hr s (k / 8)
  unfold pctxFault
  split
  · exact .refl r s
  · dsimp only
    split <;> exact off.trans (keepsRing_setPctx ..)

theorem keepsRing_pctxTold (s : State) (k : Nat) (st : Status) : KeepsRing r s (pctxTold s k st) := by
  unfold pctxTold
  split
  · exact .refl r s
  · split
    · split
      · exact keepsRing_pctxWake hr s k
      · exact keepsRing_pctxFault hr s k st
    · exact (keepsRing_lendOff hr s (k / 8)).trans (keepsRing_setPctx ..)

/-- What a waiter is told changes of a ring no more than its head's WFLAG. -/
theorem keepsRing_tell (s : State) (w : Who) (st : Status) (acq : Bool) (scope : Nat) :
    KeepsRing r s (tell s w st acq scope) := by
  cases w with
  | pctx k => exact keepsRing_pctxTold hr s k st
  | ring q =>
    refine ⟨rfl, batches_tget_map (fun e => ?_) (fun e => ?_) s.work.rings r⟩ <;> dsimp only <;> split
    · rfl
    · rfl
    · split <;> rfl
    · rfl
  | engine token port ctx node => exact keepsRing_wakePush hr s _

theorem keepsRing_satisfy (s : State) (w : Waiter) : KeepsRing r s (satisfy s w) := by
  have left : KeepsRing r s { s with sync := { s.sync with waiters := s.sync.waiters.filter (· != w) } } := ⟨rfl, rfl⟩
  unfold satisfy
  exact left.trans ((keepsRing_syncRec hr ..).trans (keepsRing_tell hr ..))

theorem keepsRing_satisfyAll (l : List Waiter) (s : State) : KeepsRing r s (l.foldl satisfy s) :=
  keepsRing_foldl (keepsRing_satisfy hr) l s

theorem keepsRing_flagEval (s : State) (p : Nat) : KeepsRing r s (flagEval s p) := by
  unfold flagEval
  extract_lets mine told t
  have hm : KeepsRing r s told := keepsRing_satisfyAll hr (mine s 0) s
  have ht : KeepsRing r s t := by
    unfold t
    split
    · split
      · exact hm.trans ((keepsRing_satisfy hr ..).trans (keepsRing_flagPut ..))
      · exact hm
    · exact .refl r s
  split
  · exact ht
  · exact ht.trans (keepsRing_satisfyAll hr ..)

theorem keepsRing_waitNow (s : State) (p mode src : Nat) (ctx : Option (Nat × Nat)) :
    KeepsRing r s (waitNow s p mode src ctx) := by
  have noted : KeepsRing r s (syncRec (countEvent s 0x14 (2 + mode) 1) src ctx p (2 + mode) (s.flag p).last) :=
    (keepsRing_countEvent ..).trans (keepsRing_syncRec hr ..)
  unfold waitNow
  dsimp only
  split
  · exact noted.trans ((keepsRing_flagPut ..).trans (keepsRing_flagEval hr ..))
  · exact noted

end

/-! ## The look at a ring's head (R141) -/

/-- The ring of r holds one command that has not started, of a sequence number and a descriptor. -/
def HeadIs (r : Nat) (t : State) (seq : Nat) (d : Desc) : Prop :=
  ∃ c, (t.ring r).fetched = [c] ∧ c.seq = seq ∧ c.desc = d

/-- The head of a ring as a look leaves it. -/
def headPut (t : State) (r : Nat) (c : Cmd) (l : List Cmd) (w : Option Bool) (tc : Nat) : State :=
  t.setRing r { t.ring r with fetched := { c with notBefore := true, wflag := w, polled := tc } :: l }

theorem keepsRing_headPut (t : State) (r : Nat) (c : Cmd) (l : List Cmd) (w : Option Bool) (tc : Nat) :
    KeepsRing r t (headPut t r c l w tc) :=
  ⟨rfl, (congrArg Ring.batches (ring_set_same t r _) :)⟩

/-- What a look at a head's WFLAG can do (R141, R261, R264): nothing; the head put, where its wait holds after the wait's
record; or the head put and its wait registered. -/
theorem headWait_cases (s : State) (r : Nat) (c : Cmd) (l : List Cmd) :
    headWait s r c l = s ∨
    (∃ w, headWait s r c l = headPut s r c l w s.clk.tc) ∨
    (∃ p mode src, headWait s r c l = headPut (waitNow s p mode src (dTag c.desc)) r c l (some true) s.clk.tc) ∨
    (∃ x, headWait s r c l = waitAdd (headPut s r c l (some false) s.clk.tc) x) := by
  unfold headWait
  generalize (if dWclr c.desc then 2 else 0) = mode
  dsimp only
  split
  · exact .inl rfl
  · exact .inr (.inl ⟨_, rfl⟩)
  · split
    · exact .inl rfl
    · split
      · exact .inr (.inl ⟨_, rfl⟩)
      · split
        · exact .inr (.inr (.inl ⟨_, _, _, rfl⟩))
        · split
          · exact .inr (.inl ⟨_, rfl⟩)
          · exact .inr (.inr (.inr ⟨_, rfl⟩))

theorem waitAdd_ring (s : State) (x : Waiter) (r : Nat) : (waitAdd s x).ring r = s.ring r := by
  unfold waitAdd
  show (countEvent s 0x14 (2 + x.mode) 1).ring r = _
  unfold countEvent
  split <;> rfl

theorem waitAdd_rg (s : State) (x : Waiter) (o : Nat) : (waitAdd s x).rg o = s.rg o := by
  unfold waitAdd
  show (countEvent s 0x14 (2 + x.mode) 1).rg o = _
  unfold countEvent
  split <;> rfl

/-- A look keeps the one command of a ring at its place. -/
theorem headWait_head {s : State} {r : Nat} (hr : r < 1024) {c : Cmd} (h : (s.ring r).fetched = [c]) :
    KeepsRing r s (headWait s r c []) ∧ HeadIs r (headWait s r c []) c.seq c.desc := by
  have put : ∀ t w tc, HeadIs r (headPut t r c [] w tc) c.seq c.desc := fun t w tc =>
    ⟨_, congrArg Ring.fetched (ring_set_same t r _), rfl, rfl⟩
  rcases headWait_cases s r c [] with e | ⟨w, e⟩ | ⟨p, mode, src, e⟩ | ⟨x, e⟩ <;> rw [e]
  · exact ⟨.refl r s, c, h, rfl, rfl⟩
  · exact ⟨keepsRing_headPut .., put ..⟩
  · exact ⟨(keepsRing_waitNow hr ..).trans (keepsRing_headPut ..), put ..⟩
  · refine ⟨(keepsRing_headPut ..).trans ⟨waitAdd_rg .., by rw [waitAdd_ring]⟩, ?_⟩
    unfold HeadIs
    rw [waitAdd_ring]
    exact put ..

@[simp] theorem lendOff_ring (s : State) (n r : Nat) : (lendOff s n).ring r = s.ring r := by
  unfold lendOff
  dsimp only
  split <;> rfl

theorem headCheck_cons {s : State} {r : Nat} {c : Cmd} {l : List Cmd} (h : (s.ring r).fetched = c :: l) :
    headCheck s r =
      if cmdGoes s r && decide (dNotBefore c.desc ≤ s.now) then lendOff (headWait s r c l) (cmdMover s r) else s := by
  unfold headCheck
  rw [h]

theorem headCheck_head {s : State} {r : Nat} (hr : r < 1024) {c : Cmd} (h : (s.ring r).fetched = [c]) :
    KeepsRing r s (headCheck s r) ∧ HeadIs r (headCheck s r) c.seq c.desc := by
  rw [headCheck_cons h]
  split
  · obtain ⟨hk, hh⟩ := headWait_head hr h
    refine ⟨hk.trans (keepsRing_lendOff hr ..), ?_⟩
    unfold HeadIs
    rw [lendOff_ring]
    exact hh
  · exact ⟨.refl r s, c, h, rfl, rfl⟩

/-! ## Batches (R135, R136) -/

theorem exec_batchFetch {s : State} {r : Nat} (hr : r < 1024) (hl : Live s dFAB) (hw : withheldNow s = false) :
    exec (.batchFetch r) s = .next (batchFetch s r) := by
  refine (gateIn_live hl (fun s =>
    if withheldNow s then edgeWait s dFAB (some (nextTc s)) (.batchFetch r) else batchFetch s (r % 1024))).trans ?_
  rw [hw, if_neg Bool.false_ne_true, Nat.mod_eq_of_lt hr]

theorem exec_batchArrive {s : State} {r : Nat} (hr : r < 1024) (hl : Live s dFAB) (st : Status) :
    exec (.batchArrive r st) s = .next (batchArrive s r st) := by
  refine (gateIn_live hl (fun s => batchArrive s (r % 1024) st)).trans ?_
  rw [Nat.mod_eq_of_lt hr]

theorem exec_notBeforeReached {s : State} {r : Nat} (hr : r < 1024) (hl : Live s dFAB) :
    exec (.notBeforeReached r) s = .next (headCheck s r) := by
  refine (gateIn_live hl (fun s => headCheck s (r % 1024))).trans ?_
  rw [Nat.mod_eq_of_lt hr]

/-- A fetch asks for what stands between what is in flight and TAIL, at most to a multiple of 32 (R135). -/
theorem batchFetch_takes {s : State} {r at_ n : Nat} (hok : fetchOk s r = true)
    (hat : at_ = (s.rg (Reg.cmdrHead r) + inFlight (s.ring r)) % 2 ^ 32)
    (hlen : n = min ((s.rg (Reg.cmdrTail r) + 2 ^ 32 - at_) % 2 ^ 32) (32 - at_ % 32)) (hn : 0 < n) :
    batchFetch s r = s.setRing r { s.ring r with batches := (s.ring r).batches ++ [(at_, n)] } := by
  subst hlen hat
  unfold batchFetch
  exact if_pos ⟨hok, hn⟩

/-- The command of a descriptor's 64 bytes as it is fetched. -/
def fetchedCmd (seq : Nat) (bytes : List Byte) : Cmd :=
  { seq := seq % 2 ^ 32,
    desc := (List.range 8).map (fun i => BitVec.ofNat 64 (ofBytes ((bytes.drop (8 * i)).take 8))),
    notBefore := false, wflag := none, polled := 0 }

/-- The ring as an arrived batch leaves it, before its descriptors enter. -/
def batchTaken (u : State) (r head : Nat) (l : List (Nat × Nat)) : State :=
  (u.setRing r { u.ring r with batches := l }).setRg (Reg.cmdrHead r) head

theorem batchTaken_ring (u : State) (r head : Nat) (l : List (Nat × Nat)) :
    (batchTaken u r head l).ring r = { u.ring r with batches := l } := ring_set_same ..

/-- A batch of one descriptor that is read without an error enters it and looks at the head. -/
theorem batchArrive_one {s u : State} {r at_ : Nat} {bytes : List Byte} (hb : (s.ring r).batches = [(at_, 1)])
    (hread : unitRead s (s.rgBit (Reg.cmdrCfg r) 31) 18
      (s.rg64 (Reg.cmdrBaseLo r) (Reg.cmdrBaseHi r) + at_ % cmdSize s r * 64) 64 = (u, none, bytes)) :
    batchArrive s r .ok =
      headCheck (cmdEnter (batchTaken u r ((at_ + 1) % 2 ^ 32) []) r (fetchedCmd at_ bytes)) r := by
  unfold batchArrive
  simp only [hb, Nat.mul_one, hread]
  rfl

/-- A descriptor enters an empty ring at its head, where no unbind runs. -/
theorem cmdEnter_first {s : State} {r : Nat} (hf : (s.ring r).fetched = []) (hu : ∀ c, (s.ctx c).unbinding = false)
    (c : Cmd) : cmdEnter s r c = s.setRing r { s.ring r with fetched := [c] } := by
  unfold cmdEnter
  rw [if_neg (by simp [hu]), hf]
  rfl

theorem cmdEnter_first_ring {s : State} {r : Nat} (hf : (s.ring r).fetched = [])
    (hu : ∀ c, (s.ctx c).unbinding = false) (c : Cmd) :
    (cmdEnter s r c).ring r = { s.ring r with fetched := [c] } := by
  rw [cmdEnter_first hf hu]
  exact ring_set_same ..

theorem cmdEnter_first_rg {s : State} {r : Nat} (hf : (s.ring r).fetched = []) (hu : ∀ c, (s.ctx c).unbinding = false)
    (c : Cmd) (o : Nat) : (cmdEnter s r c).rg o = s.rg o := by
  rw [cmdEnter_first hf hu]
  rfl

/-- A batch with a path error puts its ring in ERROR and dooms those behind it (R136). -/
theorem batchArrive_fails {s : State} {r at_ n : Nat} {l : List (Nat × Nat)} {st : Status}
    (hb : (s.ring r).batches = (at_, n) :: l) (hn : 0 < n) (hst : stOk st = false) :
    batchArrive s r st =
      cmdError (s.setRing r { s.ring r with batches := batchesDoomed l }) r (if st = .eccUncorr then 3 else 2)
        (s.rg64 (Reg.cmdrBaseLo r) (Reg.cmdrBaseHi r) + at_ % cmdSize s r * 64) := by
  obtain ⟨n, rfl⟩ := Nat.exists_eq_succ_of_ne_zero (Nat.ne_of_gt hn)
  unfold batchArrive
  simp only [hb]
  exact if_pos (by simp [hst])

theorem batchArrive_doomed {s : State} {r at_ : Nat} {l : List (Nat × Nat)} (hb : (s.ring r).batches = (at_, 0) :: l)
    (st : Status) : batchArrive s r st = s.setRing r { s.ring r with batches := l } := by
  unfold batchArrive
  simp only [hb]

/-- A ring that enters ERROR takes the cause and keeps its batches and HEAD (R133). -/
theorem cmdError_ring {s : State} {r : Nat} (h : (s.ring r).state ≠ .error) (code addr : Nat) :
    (cmdError s r code addr).ring r = { s.ring r with state := .error, err := code } := by
  unfold cmdError
  dsimp only
  rw [if_neg h]
  refine Eq.trans ?_ (ring_set_same s r _)
  exact congrArg (tget cmdIdle · r) (eventFrame_event ..).rings

theorem cmdError_head {r : Nat} (hr : r < 1024) (s : State) (code addr : Nat) :
    (cmdError s r code addr).rg (Reg.cmdrHead r) = s.rg (Reg.cmdrHead r) := (keepsRing_event hr ..).1

/-- A look at a head that may go and names no wait marks it as passed (R141). -/
theorem headCheck_passes {s : State} {r : Nat} {c : Cmd} {l : List Cmd} (h : (s.ring r).fetched = c :: l)
    (hg : cmdGoes s r = true) (ht : dNotBefore c.desc ≤ s.now) (hw : c.wflag = none) (hf : wflagOf s c.desc = none) :
    headCheck s r = lendOff (headPut s r c l (some true) s.clk.tc) (cmdMover s r) := by
  rw [headCheck_cons h, if_pos (by simp [hg, ht])]
  unfold headWait
  rw [hw, hf]
  rfl

/-- Settles O28: a fetch and a batch behind a failed one change the ring alone; an arrived descriptor is the head that the
look keeps; a path error goes through `cmdError_ring`. -/
theorem commandFetch : Obligations.CommandFetch := by
  unfold Obligations.CommandFetch
  refine ⟨?fetch, ?arrive, ?fails, ?doomed, ?passes, ?early⟩
  case fetch =>
    intro s r at_ n hr hl hw hok hat hlen hn
    refine ⟨_, (exec_batchFetch hr hl hw).trans (congrArg Host.Outcome.next (batchFetch_takes hok hat hlen hn)), ?_,
      by omega, rfl⟩
    exact congrArg Ring.batches (ring_set_same s r _)
  case arrive =>
    intro s u r at_ bytes hr hl hb hread hf hu
    have hf : ((batchTaken u r ((at_ + 1) % 2 ^ 32) []).ring r).fetched = [] := by rw [batchTaken_ring]; exact hf
    have entered := cmdEnter_first_ring hf hu (fetchedCmd at_ bytes)
    obtain ⟨⟨hhead, hbatch⟩, c, hc, hseq, hdesc⟩ := headCheck_head hr (congrArg Ring.fetched entered)
    refine ⟨_, c, (exec_batchArrive hr hl .ok).trans (congrArg Host.Outcome.next (batchArrive_one hb hread)),
      hhead.trans ?advanced, hbatch.trans ?taken, hc, hseq, hdesc⟩
    case advanced => rw [cmdEnter_first_rg hf hu]; exact (rg_setRg_same ..).trans (Nat.mod_mod ..)
    case taken => rw [entered, batchTaken_ring]
  case fails =>
    intro s r at_ n l st hr hl hb hn he hst
    refine ⟨_, (exec_batchArrive hr hl st).trans (congrArg Host.Outcome.next (batchArrive_fails hb hn hst)), ?_⟩
    have behind : (s.setRing r { s.ring r with batches := batchesDoomed l }).ring r =
        { s.ring r with batches := batchesDoomed l } := ring_set_same ..
    rw [cmdError_ring (by rw [behind]; exact he), behind, cmdError_head hr]
    exact ⟨rfl, rfl, rfl, rfl⟩
  case doomed =>
    intro s r at_ l st hr hl hb
    refine ⟨_, (exec_batchArrive hr hl st).trans (congrArg Host.Outcome.next (batchArrive_doomed hb st)), ?_, rfl⟩
    exact congrArg Ring.batches (ring_set_same s r _)
  case passes =>
    intro s r c l hr hl h hen hrun ht hw hf
    have hg : cmdGoes s r = true := by simp [cmdGoes, hen, hrun]
    refine ⟨_, (exec_notBeforeReached hr hl).trans (congrArg Host.Outcome.next (headCheck_passes h hg ht hw hf)), ?_⟩
    rw [lendOff_ring]
    exact congrArg Ring.fetched (ring_set_same s r _)
  case early =>
    intro s r c l hr hl h ht
    rw [exec_notBeforeReached hr hl, headCheck_cons h, if_neg (by simp [Nat.not_le.2 ht])]

end Sys2Proof.Machine


/-! SUPPORT. Starvation (R101): its event's record, placed in an event ring of BANK space, finishes the second half of a split
write that stands at that bank's teller (R61, R246), so the mesh does not stay as it was. -/

namespace Sys2Proof.Machine

/-- A refused read of one granule of bank 0. -/
def refusedRead : Flight :=
  { seg := { id := 1, src := 0, ctx := none, cls := 0, kind := .read, target := 0, count := 1, dl := 0, sealedMark := false,
             data := [] },
    state := .refused, chan := 0, sent := 0, pos := [], arrived := 0, back := 0, sunk := none, rails := [], headAt := 0,
    overdue := false, holdStart := none, firstTry := 0, issued := 0, tags := 0, path := 0, retryAt := 0, answered := false,
    status := .ok, halves := 0, ans := [] }

/-- A teller with a write half of granule 0 that follows its read half (R89), its bytes not stored yet. -/
def halfOpen : Teller :=
  { tellerIdle with half := some { addr := 0, value := 0#1024, ue := true, done := false, src := 0, ctx := none, entry := none } }

/-- After reset: line 3 routed to event ring 0, a ring of 64 records from bank 0's first byte on; the refused read starved at
bank 0, whose teller holds an open half. -/
def starvedReset : State :=
  ((((State.reset.setRg Reg.tellerStarveNs 1000).setRg Reg.evtRoute0 0x800000).setRg (ringReg true 0 8)
    (2 ^ 29 + 6 * 2 ^ 24)).setFlight 1 refusedRead).setTeller 0 halfOpen

/-- The state meets every hypothesis of the starvation clause. -/
theorem starvedReset_meets :
    Live starvedReset (dHome (0 / 8)) ∧ starved starvedReset 0 1 = true ∧
    starvedReset.rgBit (Reg.tellerStarveFlag (0 / 32)) (0 % 32) = false ∧ starvedReset.flight 1 = some refusedRead := by
  decide +kernel

theorem starvedReset_half : (starvedReset.teller 0).half.map (·.done) = some false := by decide +kernel

/-- The record of the event takes the ring's first place in bank 0, which finishes the half. -/
theorem starvation_starvedReset_half :
    ((starvation starvedReset 0 1).teller 0).half.map (·.done) = some true := by decide +kernel

theorem exec_starvation {s : State} {b : Nat} (hb : b < 256) (hl : Live s (dHome (b / 8))) (id : Nat) :
    exec (.starvation b id) s = .next (starvation s b id) := by
  have hm : b % 256 = b := Nat.mod_eq_of_lt hb
  refine (gateIn_live (by rwa [hm]) (fun s => starvation s (b % 256) id)).trans ?_
  rw [hm]

/-- Refutes O20: the starvation clause says that the mesh stays as it was, but the record of the starvation event, placed
in an event ring of BANK space, finishes the write half that the ring's bank holds. -/
theorem not_meshFairness : ¬ Obligations.MeshFairness := by
  unfold Obligations.MeshFairness
  rintro ⟨-, -, -, -, -, -, -, starves, -⟩
  obtain ⟨live, late, flag, flight⟩ := starvedReset_meets
  obtain ⟨t, ht, -, -, mesh⟩ := starves starvedReset 0 1 refusedRead (by decide) live late flag flight
  obtain rfl : starvation starvedReset 0 1 = t := by
    rw [exec_starvation (by decide) live] at ht
    injection ht
  have same : (starvation starvedReset 0 1).teller 0 = starvedReset.teller 0 := by unfold State.teller; rw [mesh]
  have done := starvation_starvedReset_half
  rw [same, starvedReset_half] at done
  exact absurd done (by decide)

end Sys2Proof.Machine

/-! SUPPORT. Segments between their source and their sink (R87, R94 to R99, R200): what the counts, the charges and the touch
of a command leave as it was, and what the header network and the tellers read of a state that a command touched. -/

namespace Sys2Proof.Machine

/-! ## What counts and charges leave -/

/-- The state without the registers, the counts, the charges and tags of regulation, and the activity timers. -/
def sansCharge (s : State) : State :=
  { s with regs := State.reset.regs, hw := State.reset.hw, obs := State.reset.obs, regu := State.reset.regu,
           float := State.reset.float, pwr := { s.pwr with doms := [] } }

theorem mesh_of_sansCharge {s t : State} (h : sansCharge t = sansCharge s) : t.mesh = s.mesh :=
  congrArg (fun u => u.mesh) h

theorem out_of_sansCharge {s t : State} (h : sansCharge t = sansCharge s) : t.out = s.out := congrArg (fun u => u.out) h

theorem dieId_of_sansCharge {s t : State} (h : sansCharge t = sansCharge s) : t.pwr.dieId = s.pwr.dieId :=
  congrArg (fun u => u.pwr.dieId) h

theorem sameMem_of_sansCharge {s t : State} (h : sansCharge t = sansCharge s) : SameMem s t := fun a =>
  ⟨congrArg (fun u => u.bankMem.read a) h, congrArg (fun u => u.stackMem.read a) h,
    congrArg (fun u => u.extMem.read a) h, congrArg (fun u => u.clerkMem.read a) h⟩

theorem sansCharge_touch (s : State) (d : Nat) : sansCharge (touch s d) = sansCharge s := by
  unfold touch
  split <;> rfl

theorem sansCharge_countEvent (s : State) (ev q n : Nat) : sansCharge (countEvent s ev q n) = sansCharge s := by
  unfold countEvent
  split <;> rfl

theorem SameMem.trans {s t u : State} (h : SameMem s t) (k : SameMem t u) : SameMem s u := fun a =>
  have ⟨hb, hs, he, hc⟩ := h a
  have ⟨kb, ks, ke, kc⟩ := k a
  ⟨kb.trans hb, ks.trans hs, ke.trans he, kc.trans hc⟩

theorem sameMem_touch (s : State) (d : Nat) : SameMem s (touch s d) := sameMem_of_sansCharge (sansCharge_touch s d)

theorem sameMem_countEvent (s : State) (ev q n : Nat) : SameMem s (countEvent s ev q n) :=
  sameMem_of_sansCharge (sansCharge_countEvent s ev q n)

theorem mesh_countEvent (s : State) (ev q n : Nat) : (countEvent s ev q n).mesh = s.mesh :=
  mesh_of_sansCharge (sansCharge_countEvent s ev q n)

theorem teller_countEvent (s : State) (ev q n b : Nat) : (countEvent s ev q n).teller b = s.teller b :=
  congrArg (fun m : Mesh => tget tellerIdle m.tellers b) (mesh_countEvent s ev q n)

theorem flight_countEvent (s : State) (ev q n id : Nat) : (countEvent s ev q n).flight id = s.flight id :=
  congrArg (fun m : Mesh => tfind m.flights id) (mesh_countEvent s ev q n)

/-! ## What a touch leaves to the mesh and the tellers -/

@[simp] theorem touch_flight (s : State) (d id : Nat) : (touch s d).flight id = s.flight id := by
  unfold touch; split <;> rfl
@[simp] theorem touch_teller (s : State) (d b : Nat) : (touch s d).teller b = s.teller b := by
  unfold touch; split <;> rfl
@[simp] theorem touch_ownerSeg (s : State) (d : Nat) (g : Segment) : ownerSeg (touch s d) g = ownerSeg s g := by
  unfold touch; split <;> rfl
@[simp] theorem touch_srcNode (s : State) (d : Nat) (g : Segment) : srcNode (touch s d) g = srcNode s g := by
  unfold touch; split <;> rfl
@[simp] theorem touch_headersAt (s : State) (d b : Nat) : headersAt (touch s d) b = headersAt s b := by
  unfold touch; split <;> rfl
@[simp] theorem touch_hdrRank (s : State) (d : Nat) (h : Hdr) : hdrRank (touch s d) h = hdrRank s h := by
  unfold touch; split <;> rfl
@[simp] theorem touch_bankSt (s : State) (d b : Nat) (mark : Bool) : bankSt (touch s d) b mark = bankSt s b mark := by
  unfold touch; split <;> rfl
@[simp] theorem touch_entriesTaken (s : State) (d b : Nat) : entriesTaken (touch s d) b = entriesTaken s b := by
  unfold touch; split <;> rfl

/-! ## Headers that come to their unit -/

theorem hdrHere_takeHdr (s : State) (kind : HdrKind) (id : Nat) : hdrHere (takeHdr s kind id) kind id = none := by
  cases h : hdrHere (takeHdr s kind id) kind id with
  | none => rfl
  | some g =>
    obtain ⟨hmem, hkind, hid, -⟩ := hdrHere_mem h
    exact absurd ⟨hkind, hid⟩ (takeHdr_none s kind id g hmem)

theorem putHdr_mem (s : State) (kind : HdrKind) (id src dest : Nat) :
    ∃ h ∈ (putHdr s kind id src dest).mesh.hdrs, h.kind = kind ∧ h.id = id ∧ h.dest = dest ∧ h.node = src := by
  obtain ⟨h, hhdrs, hkind, hid, hdest, hnode, -⟩ := putHdr_hdrs s kind id src dest
  exact ⟨h, hhdrs ▸ List.mem_append_right _ (List.mem_singleton_self h), hkind, hid, hdest, hnode⟩

/-- A new header of another kind brings no header of a kind and a flight. -/
theorem putHdr_none {s : State} {kind : HdrKind} {id : Nat} (h : ∀ g ∈ s.mesh.hdrs, ¬ (g.kind = kind ∧ g.id = id))
    {k : HdrKind} (hk : k ≠ kind) (i src dest : Nat) :
    ∀ g ∈ (putHdr s k i src dest).mesh.hdrs, ¬ (g.kind = kind ∧ g.id = id) := by
  obtain ⟨e, hhdrs, hkind, -⟩ := putHdr_hdrs s k i src dest
  rw [hhdrs]
  intro g hg
  rcases List.mem_append.mp hg with hg | hg
  · exact h g hg
  · rw [List.mem_singleton.mp hg, hkind]
    exact fun hc => hk hc.1

/-! ## Back-off (R98) -/

@[simp] theorem backoffOf_setBackoff (s : State) (src k : Nat) : backoffOf (setBackoff s src k) src = k := tget_tset_same ..

/-- The first answer to a header of a segment that no edge unit takes clears its source's back-off. -/
theorem backoffOf_answer1 {s : State} {x : Flight} (ha : x.answered = false) (hp : x.path < 2) :
    backoffOf (answer1 s x) x.seg.src = 0 := by
  unfold answer1
  rw [if_neg (by simp [ha, hp])]
  exact backoffOf_setBackoff s x.seg.src 0

theorem answer1_frame (s : State) (x : Flight) :
    answer1 s x = { s with mesh := { s.mesh with backoff := (answer1 s x).mesh.backoff } } := by
  unfold answer1
  split <;> rfl

end Sys2Proof.Machine

/-! SUPPORT. Headers before a teller, refusals, look-ahead and calls (R87, R94, R97 to R99): the rule of each operation,
then the obligation. -/

namespace Sys2Proof.Machine

/-! ## Headers before a teller (R94) -/

theorem exec_tellerHeader {s : State} {b : Nat} (hl : Live s (dHome (b / 8))) :
    exec (.tellerHeader (b / 8) (b % 8)) s = .next (tellerHeader (touch s (dHome (b / 8))) b) := by
  refine (gate_live hl 2 0 _ (fun s => tellerHeader s (8 * (b / 8) + b % 8))).trans ?_
  rw [Nat.div_add_mod]

theorem tellerHeader_accepts {s : State} {b : Nat} {p : Hdr × Flight} (hok : bankSt s b true = .ok)
    (hfirst : firstRanked (fun p => hdrRank s p.1) (headersAt s b) = some p) (hroom : entriesTaken s b < 16)
    (htc : (s.teller b).headTc ≠ some s.clk.tc) : tellerHeader s b = acceptHeader s b p.1 p.2 := by
  unfold tellerHeader
  simp only [hok]
  rw [if_neg (Nat.not_le.mpr hroom), if_neg htc, hfirst]

theorem tellerHeader_accepted {s : State} {b : Nat} (hok : bankSt s b true = .ok) (hroom : entriesTaken s b < 16)
    (htc : (s.teller b).headTc = some s.clk.tc) : tellerHeader s b = s := by
  unfold tellerHeader
  simp only [hok]
  rw [if_neg (Nat.not_le.mpr hroom), if_pos htc]

theorem tellerHeader_refuses {s : State} {b : Nat} {h : Hdr} {x : Flight} (hok : bankSt s b true = .ok)
    (hat : headersAt s b = [(h, x)]) (hfull : 16 ≤ entriesTaken s b) :
    tellerHeader s b = countEvent (refuse s x) 0x03 b 1 := by
  unfold tellerHeader
  simp only [hok, hat]
  rw [if_pos hfull]
  rfl

/-- An accepted header takes a waiting entry behind the others, the one of its tc. -/
theorem acceptHeader_teller (s : State) (b : Nat) (h : Hdr) (x : Flight) :
    ∃ e, ((acceptHeader s b h x).teller b).entries = (s.teller b).entries ++ [e] ∧ e.id = x.seg.id ∧ e.state = .waiting ∧
      e.progress = 0 ∧ ((acceptHeader s b h x).teller b).headTc = some s.clk.tc := by
  have ht := teller_set_same s b
  exact ⟨_, congrArg (fun t => t.entries) (ht _), rfl, rfl, rfl, congrArg (fun t => t.headTc) (ht _)⟩

theorem acceptHeader_flight (s : State) (b : Nat) (h : Hdr) (x : Flight) :
    (acceptHeader s b h x).flight x.seg.id = some { x with state := .accepted } := flight_set_same _ _ _

theorem hdrHere_acceptHeader (s : State) (b : Nat) (h : Hdr) (x : Flight) :
    hdrHere (acceptHeader s b h x) .request x.seg.id = none := hdrHere_takeHdr _ _ _

theorem sameMem_acceptHeader (s : State) (b : Nat) (h : Hdr) (x : Flight) : SameMem s (acceptHeader s b h x) :=
  fun _ => ⟨rfl, rfl, rfl, rfl⟩

theorem refuse_flight (s : State) (x : Flight) : (refuse s x).flight x.seg.id = some { x with state := .refused } :=
  flight_set_same _ _ _

/-- The refusal goes back to the source's node. -/
theorem refuse_hdr (s : State) (x : Flight) :
    ∃ g ∈ (refuse s x).mesh.hdrs, g.kind = .refusal ∧ g.id = x.seg.id ∧ g.dest = srcNode s x.seg := by
  obtain ⟨g, hmem, hkind, hid, hdest, -⟩ := putHdr_mem (takeHdr (s.setFlight x.seg.id { x with state := .refused })
    .request x.seg.id) .refusal x.seg.id (flightNode s x) (srcNode s x.seg)
  exact ⟨g, hmem, hkind, hid, hdest⟩

theorem refuse_noRequest (s : State) (x : Flight) :
    ∀ g ∈ (refuse s x).mesh.hdrs, ¬ (g.kind = .request ∧ g.id = x.seg.id) :=
  putHdr_none (takeHdr_none _ _ _) (by decide) _ _ _

theorem refuse_teller (s : State) (x : Flight) (b : Nat) : (refuse s x).teller b = s.teller b := rfl

theorem sameMem_refuse (s : State) (x : Flight) : SameMem s (refuse s x) := fun _ => ⟨rfl, rfl, rfl, rfl⟩

/-! ## Refusals and back-off (R98, R99) -/

theorem exec_refusalReceive {s : State} (hl : Live s dFAB) (id : Nat) :
    exec (.refusalReceive id) s = .next (refusal s id) := gateIn_live hl (fun s => refusal s id)

theorem refusal_backsOff {s : State} {id : Nat} {x : Flight} {g : Hdr} (hx : s.flight id = some x)
    (hg : hdrHere s .refusal id = some g) (hu : urgent s x = false) :
    refusal s id = setBackoff ((takeHdr s .refusal id).setFlight id
      { x with state := .backoff, retryAt := s.clk.tc + 2 ^ backoffOf s x.seg.src }) x.seg.src
      (min (backoffOf s x.seg.src + 1) 6) := by
  have hu' : ¬ urgent (takeHdr s .refusal id) x = true := Bool.eq_false_iff.mp hu
  unfold refusal
  simp only [hx, hg]
  exact if_neg hu'

theorem refusal_urgent {s : State} {id : Nat} {x : Flight} {g : Hdr} (hx : s.flight id = some x)
    (hg : hdrHere s .refusal id = some g) (hu : urgent s x = true) :
    refusal s id = retryHeader (takeHdr s .refusal id) x := by
  have hu' : urgent (takeHdr s .refusal id) x = true := hu
  unfold refusal
  simp only [hx, hg]
  exact if_pos hu'

theorem retryHeader_flight (s : State) (x : Flight) :
    (retryHeader s x).flight x.seg.id = some { x with state := .header, retryAt := s.clk.tc + 1 } := flight_set_same _ _ _

theorem retryHeader_hdr (s : State) (x : Flight) :
    ∃ g ∈ (retryHeader s x).mesh.hdrs, g.kind = .request ∧ g.id = x.seg.id ∧ g.dest = flightNode s x := by
  obtain ⟨g, hmem, hkind, hid, hdest, -⟩ := putHdr_mem (s.setFlight x.seg.id
    { x with state := .header, retryAt := s.clk.tc + 1 }) .request x.seg.id (srcNode s x.seg) (flightNode s x)
  exact ⟨g, hmem, hkind, hid, hdest⟩

theorem exec_backoffExpire {s : State} (hl : Live s dFAB) (id : Nat) :
    exec (.backoffExpire id) s = .next (backoffEnd s id) := gateIn_live hl (fun s => backoffEnd s id)

theorem backoffEnd_due {s : State} {id : Nat} {x : Flight} (hx : s.flight id = some x) (hst : x.state = .backoff)
    (hdue : x.retryAt ≤ s.clk.tc) : backoffEnd s id = retryHeader s x := by
  unfold backoffEnd
  simp only [hx]
  exact if_pos ⟨hst, hdue⟩

theorem backoffEnd_early {s : State} {id : Nat} {x : Flight} (hx : s.flight id = some x)
    (h : x.state ≠ .backoff ∨ s.clk.tc < x.retryAt) : backoffEnd s id = s := by
  unfold backoffEnd
  simp only [hx]
  exact if_neg fun ⟨hst, hdue⟩ => h.elim (· hst) (fun hlt => Nat.not_le.mpr hlt hdue)

/-! ## Look-ahead (R87) -/

theorem exec_lookAhead {s : State} {b : Nat} (hl : Live s (dHome (b / 8))) (id : Nat) :
    exec (.lookAhead b id) s = .next (lookAheadOp (touch s (dHome (b / 8))) b id) :=
  gate_live hl 2 0 _ (fun s => lookAheadOp s b id)

theorem lookAheadOp_busy {s : State} {b id : Nat} {x : Flight} (hx : s.flight id = some x)
    (hbusy : (s.teller b).busy = some s.clk.tc) : lookAheadOp s b id = s := by
  unfold lookAheadOp
  simp only [hx]
  exact if_neg fun ⟨_, _, _, hidle, _⟩ => hidle hbusy

/-- The state with a look-ahead of this tc kept for a decision that may still come. -/
def lookNoted (s : State) (b id : Nat) : State :=
  s.setTeller b { s.teller b with
    look := some { tc := s.clk.tc, id := id, holder := (s.teller b).holder, busy := (s.teller b).busy } }

theorem lookAheadOp_idle {s : State} {b id : Nat} {x : Flight} (hx : s.flight id = some x) (hp : x.path = 0)
    (hb : bankOf x.seg = b) (ho : ownerSeg s x.seg = false) (hidle : (s.teller b).busy ≠ some s.clk.tc)
    (hst : x.state = .header ∨ x.state = .called ∨ x.state = .sending) :
    lookAheadOp s b id = if holderNow s b = .entry id then holdBank (lookNoted s b id) b (.entry id)
      else turnTo (lookNoted s b id) b (.entry id) := by
  unfold lookAheadOp
  simp only [hx]
  exact if_pos ⟨hp, hb, by rw [ho]; rfl, hidle, hst⟩

/-- A bank held in its tc is busy on a side; its entries, the flights and the memories stay. -/
theorem holdBank_spec (s : State) (b : Nat) (h : Holder) :
    ((holdBank s b h).teller b).holder = h ∧ ((holdBank s b h).teller b).busy = some s.clk.tc ∧
      ((holdBank s b h).teller b).entries = (s.teller b).entries ∧ SameMem s (holdBank s b h) ∧
      (holdBank s b h).mesh.flights = s.mesh.flights := by
  have ht := teller_set_same s b { s.teller b with holder := h, busy := some s.clk.tc }
  exact ⟨congrArg (fun t => t.holder) ht, congrArg (fun t => t.busy) ht, congrArg (fun t => t.entries) ht,
    fun _ => ⟨rfl, rfl, rfl, rfl⟩, rfl⟩

/-- A turn holds the bank, and is counted. -/
theorem turnTo_spec (s : State) (b : Nat) (h : Holder) :
    ((turnTo s b h).teller b).holder = h ∧ ((turnTo s b h).teller b).busy = some s.clk.tc ∧
      ((turnTo s b h).teller b).entries = (s.teller b).entries ∧ SameMem s (turnTo s b h) ∧
      (turnTo s b h).mesh.flights = s.mesh.flights := by
  have ⟨hholder, hbusy, hentries, hmem, hflights⟩ := holdBank_spec s b h
  unfold turnTo
  rw [teller_countEvent, mesh_countEvent]
  exact ⟨hholder, hbusy, hentries, hmem.trans (sameMem_countEvent _ _ _ _), hflights⟩

/-- A look-ahead's bank is turned to its entry, by a turn or because it holds it. -/
theorem lookAheadOp_spec {s : State} {b id : Nat} {x : Flight} (hx : s.flight id = some x) (hp : x.path = 0)
    (hb : bankOf x.seg = b) (ho : ownerSeg s x.seg = false) (hidle : (s.teller b).busy ≠ some s.clk.tc)
    (hst : x.state = .header ∨ x.state = .called ∨ x.state = .sending) :
    ((lookAheadOp s b id).teller b).holder = .entry id ∧ ((lookAheadOp s b id).teller b).busy = some s.clk.tc ∧
      ((lookAheadOp s b id).teller b).entries = (s.teller b).entries ∧ SameMem s (lookAheadOp s b id) ∧
      (lookAheadOp s b id).mesh.flights = s.mesh.flights := by
  have hentries : ((lookNoted s b id).teller b).entries = (s.teller b).entries :=
    congrArg (fun t => t.entries) (teller_set_same ..)
  rw [lookAheadOp_idle hx hp hb ho hidle hst, ← hentries]
  split
  · exact holdBank_spec (lookNoted s b id) b (.entry id)
  · exact turnTo_spec (lookNoted s b id) b (.entry id)

/-! ## Calls (R97) -/

theorem exec_callReceive {s : State} (hl : Live s dFAB) (id : Nat) : exec (.callReceive id) s = .next (callOp s id) :=
  gateIn_live hl (fun s => callOp s id)

/-- The flight of a called segment: open, its next granule offered. -/
def calledFlight (s : State) (x : Flight) : Flight :=
  { x with state := .sending, answered := true, headAt := s.mesh.order,
           sent := max x.sent (min (x.sent + 1) (offerTo s x)) }

theorem callOp_opens {s : State} {id : Nat} {x : Flight} {g : Hdr} (hx : s.flight id = some x)
    (hg : hdrHere s .call id = some g) :
    callOp s id = (answer1 (takeHdr s .call id) x).setFlight id (calledFlight s x) := by
  unfold callOp
  simp only [hx, hg]
  rw [answer1_frame]
  rfl

/-! ## The obligation -/

/-- Settles O18: each clause by the rule of its operation above. -/
theorem tellerQueue : Obligations.TellerQueue := by
  unfold Obligations.TellerQueue
  refine ⟨?accepts, ?accepted, ?refuses, ?backsOff, ?urgent, ?expires, ?early, ?looks, ?busy, ?called⟩
  case accepts =>
    intro s b h x _ hl hok hfirst hroom htc hid
    have hop : tellerHeader (touch s (dHome (b / 8))) b = acceptHeader (touch s (dHome (b / 8))) b h x :=
      tellerHeader_accepts (p := (h, x)) (by simpa using hok) (by simpa using hfirst) (by simpa using hroom)
        (by simpa using htc)
    obtain ⟨e, hentries, heid, hest, hprogress, hhead⟩ := acceptHeader_teller (touch s (dHome (b / 8))) b h x
    rw [touch_teller] at hentries
    rw [touch_clk] at hhead
    rw [exec_tellerHeader hl, hop, ← hid]
    exact ⟨_, e, rfl, hentries, heid, hest, hprogress, hhead, acceptHeader_flight _ b h x, hdrHere_acceptHeader _ b h x,
      (sameMem_touch s _).trans (sameMem_acceptHeader _ b h x)⟩
  case accepted =>
    intro s b _ hl hok hroom htc
    rw [exec_tellerHeader hl, tellerHeader_accepted (by simpa using hok) (by simpa using hroom) (by simpa using htc)]
  case refuses =>
    intro s b h x _ hl hok hat hfull hid
    rw [exec_tellerHeader hl, tellerHeader_refuses (by simpa using hok) (by simpa using hat) (by simpa using hfull), ← hid]
    obtain ⟨g, hmem, hkind, hgid, hdest⟩ := refuse_hdr (touch s (dHome (b / 8))) x
    refine ⟨_, rfl, ?_, ?_, ⟨g, ?_, hkind, hgid, hdest.trans (touch_srcNode ..)⟩, ?_, ?_⟩
    · rw [teller_countEvent, refuse_teller, touch_teller]
    · rw [flight_countEvent, refuse_flight]
    · rw [mesh_countEvent]
      exact hmem
    · rw [mesh_countEvent]
      exact refuse_noRequest _ x
    · exact (sameMem_touch s _).trans ((sameMem_refuse _ x).trans (sameMem_countEvent _ _ _ _))
  case backsOff =>
    intro s id x g hl hx hg hu
    rw [exec_refusalReceive hl, refusal_backsOff hx hg hu]
    exact ⟨_, rfl, flight_set_same _ _ _, backoffOf_setBackoff _ _ _, rfl⟩
  case urgent =>
    intro s id x g hl hx hid hg hu
    rw [exec_refusalReceive hl, refusal_urgent hx hg hu, ← hid]
    exact ⟨_, rfl, retryHeader_flight _ x, retryHeader_hdr _ x, rfl⟩
  case expires =>
    intro s id x hl hx hid hst hdue
    rw [exec_backoffExpire hl, backoffEnd_due hx hst hdue, ← hid]
    exact ⟨_, rfl, retryHeader_flight s x, retryHeader_hdr s x, rfl⟩
  case early =>
    intro s id x hl hx h
    rw [exec_backoffExpire hl, backoffEnd_early hx h]
  case looks =>
    intro s b id x _ hl hx hp hb ho hidle hst
    rw [exec_lookAhead hl]
    obtain ⟨hholder, hbusy, hentries, hmem, hflights⟩ := lookAheadOp_spec (s := touch s (dHome (b / 8))) (id := id)
      (by simpa using hx) hp hb (by simpa using ho) (by simpa using hidle) hst
    exact ⟨_, rfl, hholder, hbusy.trans (by simp), hentries.trans (by simp), (sameMem_touch s _).trans hmem,
      hflights.trans (by simp)⟩
  case busy =>
    intro s b id x _ hl hx hbusy
    rw [exec_lookAhead hl, lookAheadOp_busy (x := x) (by simpa using hx) (by simpa using hbusy)]
  case called =>
    intro s id x g hl hx hg
    rw [exec_callReceive hl, callOp_opens hx hg]
    refine ⟨_, calledFlight s x, rfl, flight_set_same _ _ _, rfl, rfl, rfl, ?_, ?_, ?_⟩
    · exact fun ha hp => backoffOf_answer1 (s := takeHdr s .call id) ha hp
    · rw [answer1_frame]
      exact hdrHere_takeHdr s .call id
    · rw [answer1_frame]
      rfl

end Sys2Proof.Machine

/-! SUPPORT. A segment from its issue to its end (R96, R97, R110, R116, R200): what the issue point leaves as it was, the rule
of each operation, then the obligation. -/

namespace Sys2Proof.Machine

/-! ## What a touch leaves to a segment -/

@[simp] theorem touch_quarantined (s : State) (d u : Nat) : quarantined (touch s d) u = quarantined s u := by
  unfold touch; split <;> rfl
@[simp] theorem touch_entryUnit (s : State) (d : Nat) (g : Segment) : entryUnit (touch s d) g = entryUnit s g := by
  unfold touch; split <;> rfl
@[simp] theorem touch_sinkReady (s : State) (d : Nat) (x : Flight) : sinkReady (touch s d) x = sinkReady s x := by
  unfold touch; split <;> rfl
@[simp] theorem touch_sinkRoom (s : State) (d : Nat) (x : Flight) : sinkRoom (touch s d) x = sinkRoom s x := by
  unfold touch; split <;> rfl
@[simp] theorem touch_dataReady (s : State) (d : Nat) (x : Flight) : dataReady (touch s d) x = dataReady s x := by
  unfold touch; split <;> rfl
@[simp] theorem touch_hdrHere (s : State) (d : Nat) (kind : HdrKind) (id : Nat) :
    hdrHere (touch s d) kind id = hdrHere s kind id := by
  unfold touch; split <;> rfl
@[simp] theorem touch_tagsUsed (s : State) (d path : Nat) (src : Option Nat) :
    tagsUsed (touch s d) path src = tagsUsed s path src := by
  unfold touch; split <;> rfl

/-! ## What the issue point leaves (R115, R116, R118, R200) -/

theorem sansCharge_windowDue (s : State) : sansCharge (windowDue s) = sansCharge s := by
  unfold windowDue
  split
  · rw [windowStart_frame]
    rfl
  · rfl

theorem sansCharge_unwait (s : State) (who : Issuer) : sansCharge (unwait s who) = sansCharge s := by
  unfold unwait
  split <;> rfl

theorem sansCharge_purseCharge (s : State) (u c g : Nat) (d : Issue) :
    sansCharge (purseCharge s u c g d) = sansCharge s := by
  cases d with
  | purse =>
    unfold purseCharge
    dsimp only
    split <;> rfl
  | overdraft | held | capped | tags | behind | throttled => rfl

theorem sansCharge_takeTags (s : State) (path src n : Nat) : sansCharge (takeTags s path src n) = sansCharge s := by
  unfold takeTags
  dsimp only
  split <;> rfl

theorem sansCharge_refreshTagHold (s : State) (path : Nat) : sansCharge (refreshTagHold s path) = sansCharge s := by
  unfold refreshTagHold refreshHold
  split
  · rfl
  · split <;> rfl

theorem sansCharge_issueGo (s : State) (who : Issuer) (q : IssueSeg) (d : Issue) :
    sansCharge (issueGo s who q d) = sansCharge s := by
  unfold issueGo
  split
  · exact sansCharge_unwait s who
  · dsimp only
    rw [sansCharge_refreshTagHold, sansCharge_takeTags]
    split
    · rw [sansCharge_purseCharge, sansCharge_unwait]
    · exact sansCharge_unwait s who

theorem sansCharge_issueWait (s : State) (who : Issuer) (q : IssueSeg) (d : Issue) :
    sansCharge (issueWait s who q d) = sansCharge s := by
  unfold issueWait
  cases d with
  | held | capped =>
    dsimp only
    split <;> rfl
  | tags =>
    dsimp only
    split
    · rfl
    · exact sansCharge_countEvent _ _ _ _
  | purse | overdraft | behind | throttled => rfl

/-- The issue point issues a segment, or lets it wait, after a boundary that is due. -/
theorem issueGate_cases (s : State) (who : Issuer) (q : IssueSeg) :
    (∃ d, issueGate s who q = (issueGo (windowDue s) who q d, true)) ∨
    ∃ d, issueGate s who q = (issueWait (windowDue s) who q d, false) := by
  unfold issueGate
  dsimp only
  split
  · exact .inl ⟨_, rfl⟩
  · exact .inl ⟨_, rfl⟩
  · exact .inr ⟨_, rfl⟩

theorem sansCharge_issueGate {s v : State} {who : Issuer} {q : IssueSeg} {b : Bool} (h : issueGate s who q = (v, b)) :
    sansCharge v = sansCharge s := by
  obtain ⟨d, hd⟩ | ⟨d, hd⟩ := issueGate_cases s who q
  · obtain ⟨rfl, -⟩ := Prod.mk.inj (h.symm.trans hd)
    rw [sansCharge_issueGo, sansCharge_windowDue]
  · obtain ⟨rfl, -⟩ := Prod.mk.inj (h.symm.trans hd)
    rw [sansCharge_issueWait, sansCharge_windowDue]

/-! ## Waiting at the issue point (R118) -/

/-- The entry of an issuer that a decision lets wait. -/
def waitMarked (s : State) (who : Issuer) (q : IssueSeg) (d : Issue) : IssueWait :=
  let w := waitEntry s who q
  { w with who := who, held := w.held || d == .held, capped := w.capped || d == .capped, tagged := w.tagged || d == .tags }

/-- What waits at the issue points once a decision lets an issuer wait. -/
def waitList (s : State) (who : Issuer) (q : IssueSeg) (d : Issue) : List IssueWait :=
  if s.regu.waiting.any (fun x => x.who.same who) then
    s.regu.waiting.map (fun x => if x.who.same who then waitMarked s who q d else x)
  else s.regu.waiting ++ [waitMarked s who q d]

theorem waiting_issueWait (s : State) (who : Issuer) (q : IssueSeg) (d : Issue) :
    (issueWait s who q d).regu.waiting = waitList s who q d := by
  unfold issueWait
  cases d with
  | held | capped =>
    dsimp only
    split <;> rfl
  | tags =>
    dsimp only
    split
    · rfl
    · exact congrArg (fun u : State => u.regu.waiting) (sansCount_countEvent _ _ _ _)
  | purse | overdraft | behind | throttled => rfl

theorem waitMarked_mem (s : State) (who : Issuer) (q : IssueSeg) (d : Issue) :
    waitMarked s who q d ∈ waitList s who q d := by
  unfold waitList
  split
  · next h =>
    obtain ⟨x, hx, hsame⟩ := List.any_eq_true.mp h
    exact List.mem_map.mpr ⟨x, hx, if_pos hsame⟩
  · exact List.mem_append_right _ (List.mem_singleton_self _)

theorem issueGate_waits {s v : State} {who : Issuer} {q : IssueSeg} (h : issueGate s who q = (v, false)) :
    ∃ w ∈ v.regu.waiting, w.who = who := by
  obtain ⟨d, hd⟩ | ⟨d, hd⟩ := issueGate_cases s who q
  · exact absurd (Prod.mk.inj (h.symm.trans hd)).2 Bool.false_ne_true
  · obtain ⟨rfl, -⟩ := Prod.mk.inj (h.symm.trans hd)
    exact ⟨_, waiting_issueWait (windowDue s) who q d ▸ waitMarked_mem (windowDue s) who q d, rfl⟩

/-! ## Answers to a source of this die -/

theorem out_emit (s : State) (o : Out) : (s.emit o).out = s.out ++ [o] := rfl

theorem sameMem_emit (s : State) (o : Out) : SameMem s (s.emit o) := fun _ => ⟨rfl, rfl, rfl, rfl⟩

theorem replySeg_own {s : State} {g : Segment} (h : OwnSource s g.src) (last : Bool) (st : Status) (data : Granule) :
    replySeg s g last st data = s.emit (.segment g.id last st data) := by
  unfold replySeg
  rw [if_neg (not_not.mpr h.1), if_neg h.2]

theorem ownSource_of_sansCharge {s t : State} (h : sansCharge t = sansCharge s) {src : Nat} (ho : OwnSource s src) :
    OwnSource t src := ⟨ho.1.trans (dieId_of_sansCharge h).symm, ho.2⟩

theorem ownSource_touch {s : State} {src : Nat} (h : OwnSource s src) (d : Nat) : OwnSource (touch s d) src :=
  ownSource_of_sansCharge (sansCharge_touch s d) h

/-! ## The issue of a segment (R96, R110, R116, R232) -/

theorem exec_segmentIssue {s : State} (hl : Live s dFAB) (g : Segment) :
    exec (.segmentIssue g) s = .next (issueSeg (touch s dFAB) g) := gate_live hl 2 g.src _ (fun s => issueSeg s g)

/-- A new segment whose shape SEGMENT_ISSUE accepts: of R96, and one granule where it is an owner port's (R88). -/
structure Issuable (s : State) (g : Segment) : Prop where
  fresh : s.flight g.id = none
  shape : segShape g = true
  owner : ownerSeg s g = true → g.count = 1

/-- The status of a segment's check (R83). -/
def issueCheck (s : State) (g : Segment) : Status :=
  checkPPA s (segCheckAt s g) 128 (if segReads g then .read else .write) (issued s g).sealedMark

section
variable {s : State} {g : Segment} (hi : Issuable s g)
include hi

/-- The test of the shape lets it through. -/
theorem Issuable.passes : ¬ (!segShape g || (ownerSeg s g && g.count != 1)) = true := by
  have howner := hi.owner
  simp only [hi.shape, Bool.not_true, Bool.false_or, Bool.and_eq_true, bne_iff_ne]
  exact fun ⟨ho, hc⟩ => hc (howner ho)

theorem issueSeg_quarantined (hq : quarantined s (entryUnit s g) = true) :
    issueSeg s g = replySeg s g true .quarantined 0#1024 := by
  unfold issueSeg
  simp only [hi.fresh]
  rw [if_neg hi.passes, if_pos hq]

variable (hq : quarantined s (entryUnit s g) = false)
include hq

theorem issueSeg_fails (hc : issueCheck s g ≠ .ok) : issueSeg s g = replySeg s g true (issueCheck s g) 0#1024 := by
  unfold issueSeg
  simp only [hi.fresh]
  rw [if_neg hi.passes, if_neg (Bool.eq_false_iff.mp hq)]
  split
  · next hok => exact absurd hok hc
  · rfl

theorem issueSeg_passes (hc : issueCheck s g = .ok)
    (hp : ∀ p, segPath s g = some p → p = 0 ∨ portQuar s (extPort s g.target) = false) :
    issueSeg s g = issueChecked s (issued s g) := by
  unfold issueCheck at hc
  unfold issueSeg
  simp only [hi.fresh]
  rw [if_neg hi.passes, if_neg (Bool.eq_false_iff.mp hq)]
  simp only [hc]
  split
  · next p hpath =>
    refine if_neg fun ⟨hp1, hpq⟩ => ?_
    rcases hp p hpath with rfl | hfree
    · exact absurd hp1 (by decide)
    · exact Bool.eq_false_iff.mp hfree hpq
  · rfl

end

section
variable {s v : State} {g : Segment} (hn : nodeClash s g = false)
include hn

theorem issueChecked_waits (hg : issueGate s (.seg g) (segIssue s g) = (v, false)) : issueChecked s g = v := by
  simp only [issueChecked, hn, hg, Bool.false_eq_true, if_false]

theorem issueChecked_bank (hg : issueGate s (.seg g) (segIssue s g) = (v, true)) (hp : segPath s g = none) :
    issueChecked s g = launch v g 0 0 := by
  have hq : (segIssue s g).path = none := hp
  simp only [issueChecked, hn, hg, hq, Bool.false_eq_true, if_false]

theorem issueChecked_path {p : Nat} (hg : issueGate s (.seg g) (segIssue s g) = (v, true)) (hp : segPath s g = some p) :
    issueChecked s g = launch v g (p + 1) (granuleTags g.count) := by
  have hq : (segIssue s g).path = some p := hp
  simp only [issueChecked, hn, hg, hq, Bool.false_eq_true, if_false]

end

/-- The flight of a launched segment: nothing of it has moved, and none offered but a write's first granule toward the far
agent or a die-link port. -/
theorem launch_flight (s : State) (g : Segment) (path tags : Nat) :
    ∃ x, (launch s g path tags).flight g.id = some x ∧ x.seg = g ∧
      x.state = (if 2 ≤ path ∧ !segReads g then .sending else .header) ∧ x.path = path ∧
      x.sent = (if 2 ≤ path ∧ !segReads g then min 1 g.data.length else 0) ∧ x.arrived = 0 ∧ x.back = 0 ∧ x.tags = tags ∧
      x.rails = [] := by
  unfold launch
  dsimp only
  split
  · exact ⟨_, flight_set_same _ _ _, rfl, rfl, rfl, rfl, rfl, rfl, rfl, rfl⟩
  · exact ⟨_, flight_set_same _ _ _, rfl, rfl, rfl, rfl, rfl, rfl, rfl, rfl⟩

theorem launch_hdr (s : State) (g : Segment) (tags : Nat) {path : Nat} (hp : path < 2) :
    ∃ h ∈ (launch s g path tags).mesh.hdrs, h.kind = .request ∧ h.id = g.id ∧ h.node = srcNode s g := by
  unfold launch
  dsimp only
  rw [if_neg fun hc => Nat.not_le.mpr hp hc.1]
  obtain ⟨h, hmem, hkind, hid, -, hnode⟩ := putHdr_mem _ _ _ _ _
  exact ⟨h, hmem, hkind, hid, hnode⟩

theorem launch_out (s : State) (g : Segment) (path tags : Nat) : (launch s g path tags).out = s.out := by
  unfold launch
  dsimp only
  split <;> rfl

theorem sameMem_launch (s : State) (g : Segment) (path tags : Nat) : SameMem s (launch s g path tags) := by
  unfold launch
  dsimp only
  split <;> exact fun _ => ⟨rfl, rfl, rfl, rfl⟩

/-! ## Granules of a write (R97) -/

theorem exec_segmentGranuleArrive {s : State} {id : Nat} (hl : Live s (sinkDom s id)) :
    exec (.segmentGranuleArrive id) s = .next (granuleArrive (touch s (sinkDom s id)) id) :=
  gate_live hl 2 0 _ (fun s => granuleArrive s id)

theorem lastGranule_goesOn {s : State} {id : Nat} {x : Flight} (hx : s.flight id = some x)
    (h : x.path = 0 ∨ x.arrived < x.seg.count) : lastGranule s id = s := by
  unfold lastGranule
  simp only [hx]
  exact if_pos h

theorem sameMem_granuleIn (s : State) (x : Flight) : SameMem s (granuleIn s x) := fun _ => ⟨rfl, rfl, rfl, rfl⟩

theorem granuleIn_out (s : State) (x : Flight) : (granuleIn s x).out = s.out := rfl

/-- A granule that a teller or a gateway has room for is counted; only the last one of a gateway's write does more. -/
theorem granuleArrive_counts {s : State} {id : Nat} {x : Flight} (hx : s.flight id = some x) (hid : x.seg.id = id)
    (hp : x.path ≤ 1) (hw : segReads x.seg = false) (hst : x.state = .sending) (hc : x.arrived < x.seg.count)
    (hready : sinkReady s x = true) (hroom : sinkRoom s x = true) (hlast : x.path = 0 ∨ x.arrived + 1 < x.seg.count) :
    granuleArrive s id = countEvent (granuleIn s x) 0x06 (flightNode s x * 8 + 4) 1 := by
  have hgo : ¬ (segReads x.seg ∨ x.state ≠ .sending ∨ x.seg.count ≤ x.arrived ∨ !sinkReady s x ∨ !sinkRoom s x) := by
    simp [hw, hst, hready, hroom, hc]
  have hcounted : (granuleIn s x).flight id = some { x with arrived := x.arrived + 1, sunk := some s.clk.tc } :=
    hid ▸ flight_set_same s x.seg.id _
  unfold granuleArrive
  simp only [hx]
  rw [if_neg hgo]
  simp only [if_pos hp]
  exact lastGranule_goesOn ((flight_countEvent ..).trans hcounted) hlast

/-! ## The end of a flight (R200) -/

theorem tagsUsed_refreshTagHold (s : State) (p path : Nat) (src : Option Nat) :
    tagsUsed (refreshTagHold s p) path src = tagsUsed s path src := by
  unfold refreshTagHold refreshHold
  split
  · rfl
  · split <;> rfl

/-- The key of a path's tags of one source is not that of all. -/
theorem tagKey_none_ne (path u : Nat) : tagKey path none ≠ tagKey path (some u) := by
  show 8192 * path ≠ 8192 * path + u + 1
  omega

theorem tagsUsed_freeTags (s : State) (path src n : Nat) :
    tagsUsed (freeTags s path src n) path none = tagsUsed s path none - n :=
  (tget_tset_other _ _ _ _ _ _ (tagKey_none_ne path src)).trans (tget_tset_same ..)

theorem tagsUsed_returnTags {s : State} {x : Flight} (hp : x.path ≠ 0) :
    tagsUsed (returnTags s x) (x.path - 1) none = tagsUsed s (x.path - 1) none - x.tags := by
  unfold returnTags
  rw [if_neg hp, tagsUsed_refreshTagHold, tagsUsed_freeTags]

theorem sansCharge_returnTags (s : State) (x : Flight) : sansCharge (returnTags s x) = sansCharge s := by
  unfold returnTags
  split
  · rfl
  · rw [sansCharge_refreshTagHold]
    rfl

/-- The state in which a flight has ended, before its source learns: its tags free, no header of it left. -/
def flightEnded (s : State) (x : Flight) : State := dropHdrs ((returnTags s x).dropFlight x.seg.id) x.seg.id

theorem sameMem_flightEnded (s : State) (x : Flight) : SameMem s (flightEnded s x) :=
  (sameMem_of_sansCharge (sansCharge_returnTags s x)).trans fun _ => ⟨rfl, rfl, rfl, rfl⟩

theorem out_flightEnded (s : State) (x : Flight) : (flightEnded s x).out = s.out :=
  calc (flightEnded s x).out = (returnTags s x).out := rfl
    _ = s.out := out_of_sansCharge (sansCharge_returnTags s x)

theorem backoff_flightEnded (s : State) (x : Flight) : (flightEnded s x).mesh.backoff = s.mesh.backoff :=
  calc (flightEnded s x).mesh.backoff = (returnTags s x).mesh.backoff := rfl
    _ = s.mesh.backoff := congrArg (fun m : Mesh => m.backoff) (mesh_of_sansCharge (sansCharge_returnTags s x))

theorem float_flightEnded (s : State) (x : Flight) : (flightEnded s x).float = (returnTags s x).float := rfl

theorem flight_flightEnded (s : State) (x : Flight) : (flightEnded s x).flight x.seg.id = none := flight_drop_same _ _

theorem endFlight_own {s : State} {x : Flight} (h : OwnSource s x.seg.src) (st : Status) (data : Granule) :
    endFlight s x st data = (flightEnded s x).emit (.segment x.seg.id true st data) :=
  replySeg_own (s := flightEnded s x) (ownSource_of_sansCharge (sansCharge_returnTags s x) h) true st data

/-- What a flight that ends leaves: its source's answer as the last output, no flight, its tags free, the memories and the
back-off as they were. -/
theorem endFlight_spec {s : State} {x : Flight} (h : OwnSource s x.seg.src) (st : Status) (data : Granule) :
    (endFlight s x st data).out = s.out ++ [.segment x.seg.id true st data] ∧
      (endFlight s x st data).flight x.seg.id = none ∧
      (x.path ≠ 0 → tagsUsed (endFlight s x st data) (x.path - 1) none = tagsUsed s (x.path - 1) none - x.tags) ∧
      SameMem s (endFlight s x st data) ∧ (endFlight s x st data).mesh.backoff = s.mesh.backoff := by
  rw [endFlight_own h]
  refine ⟨?out, flight_flightEnded s x, fun hp => ?tags, (sameMem_flightEnded s x).trans (sameMem_emit _ _), ?backoff⟩
  case out =>
    rw [← out_flightEnded s x]
    rfl
  case tags =>
    unfold tagsUsed
    rw [emit_float, float_flightEnded]
    exact tagsUsed_returnTags hp
  case backoff => rw [emit_mesh, backoff_flightEnded]

/-! ## Read data (R98, R120, R200) -/

theorem exec_readDataArrive {s : State} (hl : Live s dFAB) (id : Nat) :
    exec (.readDataArrive id) s = .next (dataArrive (touch s dFAB) id) := gate_live hl 2 0 _ (fun s => dataArrive s id)

/-- The state in which a read granule has come to its source, before the source takes it: the latency of the first one
sampled, the header answered, the granule counted. -/
def dataCome (s : State) (x : Flight) : State :=
  countEvent (answer1 (if x.back = 0 then latSample s x else s) x) 0x06 (srcNode s x.seg * 8 + 4) 1

theorem latSample_cases (s : State) (x : Flight) :
    latSample s x = s ∨ latSample s x = latencySample s x.seg.cls (s.now - x.issued) := by
  unfold latSample
  split
  · exact .inl rfl
  · exact .inr rfl

theorem sansCharge_answer1 (s : State) (x : Flight) : sansCharge (answer1 s x) = answer1 (sansCharge s) x := by
  unfold answer1
  split <;> rfl

theorem sansCharge_dataCome (s : State) (x : Flight) : sansCharge (dataCome s x) = sansCharge (answer1 s x) := by
  have hsample : sansCharge (if x.back = 0 then latSample s x else s) = sansCharge s := by
    split
    · obtain h | h := latSample_cases s x <;> rw [h]
      rfl
    · rfl
  unfold dataCome
  rw [sansCharge_countEvent, sansCharge_answer1, sansCharge_answer1, hsample]

theorem float_answer1 (s : State) (x : Flight) : (answer1 s x).float = s.float := by
  rw [answer1_frame]

theorem float_dataCome (s : State) (x : Flight) : (dataCome s x).float = s.float := by
  have hsample : (if x.back = 0 then latSample s x else s).float = s.float := by
    split
    · obtain h | h := latSample_cases s x <;> rw [h]
      rfl
    · rfl
  unfold dataCome
  exact (congrArg (fun u : State => u.float) (sansCount_countEvent ..)).trans ((float_answer1 _ x).trans hsample)

theorem sameMem_dataCome (s : State) (x : Flight) : SameMem s (dataCome s x) := by
  have h := sameMem_of_sansCharge (sansCharge_dataCome s x)
  rwa [answer1_frame] at h

theorem out_dataCome (s : State) (x : Flight) : (dataCome s x).out = s.out := by
  rw [out_of_sansCharge (sansCharge_dataCome s x), answer1_frame]

theorem ownSource_answer1 {s : State} {src : Nat} (h : OwnSource s src) (x : Flight) : OwnSource (answer1 s x) src := by
  rw [answer1_frame]
  exact h

theorem ownSource_dataCome {s : State} {src : Nat} (h : OwnSource s src) (x : Flight) : OwnSource (dataCome s x) src :=
  ownSource_of_sansCharge (sansCharge_dataCome s x) (ownSource_answer1 h x)

theorem backoffOf_dataCome {s : State} {x : Flight} (ha : x.answered = false) (hp : x.path < 2) :
    backoffOf (dataCome s x) x.seg.src = 0 := by
  unfold backoffOf
  rw [mesh_of_sansCharge (sansCharge_dataCome s x)]
  exact backoffOf_answer1 ha hp

theorem ownSource_setFlight {s : State} {src : Nat} (h : OwnSource s src) (id : Nat) (x : Flight) :
    OwnSource (s.setFlight id x) src := h

theorem sameMem_setFlight (s : State) (id : Nat) (x : Flight) : SameMem s (s.setFlight id x) :=
  fun _ => ⟨rfl, rfl, rfl, rfl⟩

theorem sameMem_freeRails (s : State) (x : Flight) : SameMem s (freeRails s x) := fun _ => ⟨rfl, rfl, rfl, rfl⟩

theorem freeRails_out (s : State) (x : Flight) : (freeRails s x).out = s.out := rfl

section
variable {s : State} {id : Nat} {x : Flight} (hx : s.flight id = some x) (hr : dataReady s x = true) (ha : x.ans = [])
include hx hr ha

theorem dataArrive_last (hlast : x.back + 1 = x.seg.count) :
    dataArrive s id =
      endFlight (freeRails (dataCome s x) x) x x.status (nth (0#1024, 0#128) x.seg.data x.back).1 := by
  unfold dataArrive
  simp only [hx]
  rw [if_neg (by simp [hr]), if_pos hlast, ha]
  rfl

theorem dataArrive_more (hmore : x.back + 1 < x.seg.count) :
    dataArrive s id =
      replySeg ((dataCome s x).setFlight id { x with back := x.back + 1, sunk := some s.clk.tc, answered := true }) x.seg
        false .ok (nth (0#1024, 0#128) x.seg.data x.back).1 := by
  unfold dataArrive
  simp only [hx]
  rw [if_neg (by simp [hr]), if_neg (Nat.ne_of_lt hmore), ha]
  rfl

variable (hid : x.seg.id = id) (hown : OwnSource s x.seg.src)
include hid hown

/-- A granule that is not the last goes to the source; the flight waits for the next, its header answered. -/
theorem dataArrive_more_spec (hmore : x.back + 1 < x.seg.count) :
    (dataArrive s id).out = s.out ++ [.segment id false .ok (nth (0#1024, 0#128) x.seg.data x.back).1] ∧
      (dataArrive s id).flight id = some { x with back := x.back + 1, sunk := some s.clk.tc, answered := true } ∧
      (x.answered = false → x.path < 2 → backoffOf (dataArrive s id) x.seg.src = 0) ∧ SameMem s (dataArrive s id) := by
  rw [dataArrive_more hx hr ha hmore, replySeg_own (ownSource_setFlight (ownSource_dataCome hown x) id _), hid,
    ← out_dataCome s x]
  exact ⟨rfl, flight_set_same _ _ _, fun hans hp => backoffOf_dataCome hans hp,
    (sameMem_dataCome s x).trans ((sameMem_setFlight _ _ _).trans (sameMem_emit _ _))⟩

/-- The last granule ends the flight with its status. -/
theorem dataArrive_last_spec (hlast : x.back + 1 = x.seg.count) :
    (dataArrive s id).out = s.out ++ [.segment id true x.status (nth (0#1024, 0#128) x.seg.data x.back).1] ∧
      (dataArrive s id).flight id = none ∧
      (x.path ≠ 0 → tagsUsed (dataArrive s id) (x.path - 1) none = tagsUsed s (x.path - 1) none - x.tags) ∧
      SameMem s (dataArrive s id) := by
  obtain ⟨hout, hflight, htags, hmem, -⟩ := endFlight_spec (s := freeRails (dataCome s x) x) (x := x)
    (ownSource_dataCome hown x) x.status (nth (0#1024, 0#128) x.seg.data x.back).1
  have htag : ∀ p, tagsUsed (freeRails (dataCome s x) x) p none = tagsUsed s p none := fun p =>
    congrArg (fun f : Float => tget 0 f.tags (tagKey p none)) (float_dataCome s x)
  rw [hid] at hout hflight
  rw [dataArrive_last hx hr ha hlast]
  refine ⟨hout.trans ?_, hflight, fun hp => (htags hp).trans (by rw [htag]), ?_⟩
  · rw [freeRails_out, out_dataCome]
  · exact (sameMem_dataCome s x).trans ((sameMem_freeRails _ x).trans hmem)

end

/-! ## Acknowledgements (R98, R200) -/

theorem exec_writeAckArrive {s : State} (hl : Live s dFAB) (id : Nat) :
    exec (.writeAckArrive id) s = .next (ackArrive (touch s dFAB) id) := gate_live hl 2 0 _ (fun s => ackArrive s id)

theorem ackArrive_ends {s : State} {id : Nat} {x : Flight} {h : Hdr} (hx : s.flight id = some x)
    (hh : hdrHere s .ack id = some h) (ha : x.ans = []) :
    ackArrive s id = endFlight (answer1 s x) x x.status 0#1024 := by
  unfold ackArrive
  simp only [hx, hh]
  rw [ha]
  rfl

theorem sameMem_answer1 (s : State) (x : Flight) : SameMem s (answer1 s x) := by
  rw [answer1_frame]
  exact fun _ => ⟨rfl, rfl, rfl, rfl⟩

/-- An acknowledgement ends the flight with its status, its header answered. -/
theorem ackArrive_spec {s : State} {id : Nat} {x : Flight} {h : Hdr} (hx : s.flight id = some x)
    (hh : hdrHere s .ack id = some h) (ha : x.ans = []) (hid : x.seg.id = id) (hown : OwnSource s x.seg.src) :
    (ackArrive s id).out = s.out ++ [.segment id true x.status 0#1024] ∧ (ackArrive s id).flight id = none ∧
      (x.answered = false → x.path < 2 → backoffOf (ackArrive s id) x.seg.src = 0) ∧
      (x.path ≠ 0 → tagsUsed (ackArrive s id) (x.path - 1) none = tagsUsed s (x.path - 1) none - x.tags) ∧
      SameMem s (ackArrive s id) := by
  obtain ⟨hout, hflight, htags, hmem, hback⟩ := endFlight_spec (ownSource_answer1 hown x) x.status 0#1024
  have hans : (answer1 s x).out = s.out := by rw [answer1_frame]
  have htag : ∀ p, tagsUsed (answer1 s x) p none = tagsUsed s p none := fun p =>
    congrArg (fun f : Float => tget 0 f.tags (tagKey p none)) (float_answer1 s x)
  rw [hid] at hout hflight
  rw [ackArrive_ends hx hh ha]
  refine ⟨hout.trans (by rw [hans]), hflight, fun hne hp => ?_, fun hp => (htags hp).trans (by rw [htag]),
    (sameMem_answer1 s x).trans hmem⟩
  unfold backoffOf
  rw [hback]
  exact backoffOf_answer1 hne hp

/-! ## The obligation -/

theorem touch_fresh {s : State} {g : Segment} (hf : s.flight g.id = none) (hs : segShape g = true)
    (ho : ownerSeg s g = true → g.count = 1) : Issuable (touch s dFAB) g :=
  ⟨(touch_flight ..).trans hf, hs, by simpa using ho⟩

/-- Settles O19: the issue by the rules of issueSeg, issueGate and launch, a write's granule by that of granuleArrive, the
answers by those of a flight that goes on or ends. -/
theorem segmentLife : Obligations.SegmentLife := by
  unfold Obligations.SegmentLife
  refine ⟨?bank, ?leaves, ?waits, ?quarantine, ?fails, ?granule, ?data, ?lastData, ?ack⟩
  case bank =>
    rintro s _ v g hl rfl hf hs ho hq hp hc hn hg
    have hi : Issuable (touch s dFAB) g := ⟨hf, hs, ho⟩
    have hv : sansCharge v = sansCharge s := (sansCharge_issueGate hg).trans (sansCharge_touch s dFAB)
    rw [exec_segmentIssue hl, issueSeg_passes hi hq hc (fun p h => absurd (hp.symm.trans h) (Option.some_ne_none p).symm),
      issueChecked_bank hn hg hp]
    obtain ⟨x, hx, hseg, hst, hpath, hsent, harr, hback, htags, hrails⟩ := launch_flight v (issued (touch s dFAB) g) 0 0
    exact ⟨_, x, rfl, hx, hseg, hst, hpath, hsent, harr, hback, htags, hrails, launch_hdr _ _ _ (by decide),
      (sameMem_of_sansCharge hv).trans (sameMem_launch _ _ _ _), (launch_out ..).trans (out_of_sansCharge hv)⟩
  case leaves =>
    rintro s _ v g p hl rfl hf hs hb hq hp hport hc hn hg
    have ho : ownerSeg (touch s dFAB) g = false := by simp [ownerSeg, hb]
    have hi : Issuable (touch s dFAB) g := ⟨hf, hs, fun h => absurd (ho.symm.trans h) Bool.false_ne_true⟩
    have hat : segCheckAt (touch s dFAB) g = segGranule g 0 := by simp [segCheckAt, hb]
    have hv : sansCharge v = sansCharge s := (sansCharge_issueGate hg).trans (sansCharge_touch s dFAB)
    rw [exec_segmentIssue hl,
      issueSeg_passes hi hq (by rw [issueCheck, hat, hc]) (fun p' h => Option.some.inj (hp.symm.trans h) ▸ hport),
      issueChecked_path hn hg hp]
    obtain ⟨x, hx, hseg, hst, hpath, -, harr, -, htags, hrails⟩ :=
      launch_flight v (issued (touch s dFAB) g) (p + 1) (granuleTags g.count)
    refine ⟨_, x, rfl, hx, hseg, hst.trans (if_congr ?_ rfl rfl), hpath, harr, htags, hrails,
      (sameMem_of_sansCharge hv).trans (sameMem_launch _ _ _ _), (launch_out ..).trans (out_of_sansCharge hv)⟩
    simp [segReads, issued]
  case waits =>
    rintro s _ v g hl rfl hf hs ho hq hp hc hn hg
    have hi : Issuable (touch s dFAB) g := ⟨hf, hs, ho⟩
    have hv : sansCharge v = sansCharge s := (sansCharge_issueGate hg).trans (sansCharge_touch s dFAB)
    rw [exec_segmentIssue hl, issueSeg_passes hi hq hc (fun p h => absurd (hp.symm.trans h) (Option.some_ne_none p).symm),
      issueChecked_waits hn hg]
    exact ⟨rfl, mesh_of_sansCharge hv, out_of_sansCharge hv, sameMem_of_sansCharge hv, issueGate_waits hg⟩
  case quarantine =>
    intro s g hl hf hs hown ho hq
    have hown' : OwnSource (touch s dFAB) g.src := ownSource_touch hown dFAB
    rw [exec_segmentIssue hl, issueSeg_quarantined (touch_fresh hf hs ho) (by simpa using hq), replySeg_own hown']
    exact ⟨_, rfl, by rw [out_emit, touch_out], by rw [emit_mesh, touch_mesh], (sameMem_touch s _).trans (sameMem_emit _ _)⟩
  case fails =>
    rintro s _ g st hl rfl hf hs hown ho hq hst rfl
    have hown' : OwnSource (touch s dFAB) g.src := ownSource_touch hown dFAB
    rw [exec_segmentIssue hl, issueSeg_fails (touch_fresh hf hs ho) (by simpa using hq) hst, replySeg_own hown']
    exact ⟨_, rfl, by rw [out_emit, touch_out]; rfl, by rw [emit_mesh, touch_mesh],
      (sameMem_touch s _).trans (sameMem_emit _ _)⟩
  case granule =>
    intro s id x hx hid hp hl hw hst hc hready hroom hlast
    rw [exec_segmentGranuleArrive hl, granuleArrive_counts (by simpa using hx) hid hp hw hst hc (by simpa using hready)
      (by simpa using hroom) hlast]
    refine ⟨_, rfl, ?_, ?_, ?_⟩
    · rw [flight_countEvent, ← hid, granuleIn, flight_set_same, touch_clk]
    · exact (sameMem_touch s _).trans ((sameMem_granuleIn _ x).trans (sameMem_countEvent _ _ _ _))
    · rw [countEvent_out, granuleIn_out, touch_out]
  case data =>
    intro s id x hl hx hid hown hr hmore ha
    have hown' : OwnSource (touch s dFAB) x.seg.src := ownSource_touch hown dFAB
    obtain ⟨hout, hflight, hback, hmem⟩ := dataArrive_more_spec (s := touch s dFAB) (by simpa using hx) (by simpa using hr)
      ha hid hown' hmore
    rw [exec_readDataArrive hl]
    exact ⟨_, rfl, by rw [hout, touch_out], by rw [hflight, touch_clk], hback, (sameMem_touch s _).trans hmem⟩
  case lastData =>
    intro s id x hl hx hid hown hr hlast ha
    have hown' : OwnSource (touch s dFAB) x.seg.src := ownSource_touch hown dFAB
    obtain ⟨hout, hflight, htags, hmem⟩ := dataArrive_last_spec (s := touch s dFAB) (by simpa using hx) (by simpa using hr)
      ha hid hown' hlast
    rw [exec_readDataArrive hl]
    exact ⟨_, rfl, by rw [hout, touch_out], hflight, fun hp => by rw [htags hp, touch_tagsUsed],
      (sameMem_touch s _).trans hmem⟩
  case ack =>
    intro s id x h hl hx hid hown hh ha
    have hown' : OwnSource (touch s dFAB) x.seg.src := ownSource_touch hown dFAB
    obtain ⟨hout, hflight, hback, htags, hmem⟩ := ackArrive_spec (s := touch s dFAB) (by simpa using hx) (h := h)
      (by simpa using hh) ha hid hown'
    rw [exec_writeAckArrive hl]
    exact ⟨_, rfl, by rw [hout, touch_out], hflight, hback, fun hp => by rw [htags hp, touch_tagsUsed],
      (sameMem_touch s _).trans hmem⟩

end Sys2Proof.Machine


/-! SUPPORT. The data commands of Table 6.3 (R116, R140, R226): from the start of a row to its effect, the ends of a command,
and the effects that move nothing. -/

namespace Sys2Proof.Machine

/-! ## From the start of a row to its effect (R116, R143) -/

/-- A command that begins comes to its row's effect. -/
theorem cmdRun_begins {s u : State} {r op k : Nat} {p : Desc → Bool} {x : PCtx} (h : Begins s r op p k x u)
    (eff : State → Nat → PCtx → State) : cmdRun s r op p eff = eff u k x := by
  obtain ⟨y, t, v, hstart, hcheck, hwords, hquar, rfl, rfl⟩ := h
  simp [cmdRun, hstart, hcheck, hwords, hquar]

/-- A program context that waits no more. -/
def PCtx.waitless (x : PCtx) : PCtx := { x with wait := none }

section
variable {eff : State → Nat → PCtx → State} {u w : State} {k : Nat} {x : PCtx}

theorem issueCmd_issues (h : Issues eff u k x w) : issueCmd eff u k x = eff w k x.waitless := by
  obtain ⟨v, n, hrun, rfl⟩ := h
  simp [issueCmd, hrun, PCtx.waitless]

theorem pctx_of_issues (h : Issues eff u k x w) : w.pctx k = some x.waitless := by
  obtain ⟨v, -, -, rfl⟩ := h
  exact pctx_set_same v k _

/-- An effect that makes no access passes the issue point at once. -/
theorem issueCmd_quiet (h : ∀ t, (eff t k x).accesses = t.accesses) :
    issueCmd eff u k x = eff (u.setPctx k x.waitless) k x.waitless := by
  have quiet : accessesOf u (fun t => eff t k x) = [] := by simp [accessesOf, h]
  exact issueCmd_issues ⟨u, x.issued, issueRun_quiet _ _ _ _ _ quiet, rfl⟩

end

theorem sameMem_setPctx (s : State) (k : Nat) (x : PCtx) : SameMem s (s.setPctx k x) := fun _ => ⟨rfl, rfl, rfl, rfl⟩

theorem gateIn_begins {s u : State} {r op k : Nat} {p : Desc → Bool} {x : PCtx} (hl : Live s dFAB)
    (h : Begins s r op p k x u) (eff : State → Nat → PCtx → State) :
    gateIn dFAB s (fun s => cmdRun s r op p eff) = .next (eff u k x) := by
  rw [gateIn_live hl, cmdRun_begins h]

section
variable {s u : State} {r k : Nat} {x : PCtx} (hl : Live s dFAB)
include hl

theorem exec_copy (h : Begins s r 0x01 anyDesc k x u) : exec (.copy r) s = .next (issueCmd copyEff u k x) :=
  gateIn_begins hl h (issueCmd copyEff)

theorem exec_fill (h : Begins s r 0x02 anyDesc k x u) : exec (.fill r) s = .next (issueCmd fillEff u k x) :=
  gateIn_begins hl h (issueCmd fillEff)

theorem exec_reduce (h : Begins s r 0x03 anyDesc k x u) : exec (.reduce r) s = .next (issueCmd reduceEff u k x) :=
  gateIn_begins hl h (issueCmd reduceEff)

theorem exec_convert (h : Begins s r 0x04 anyDesc k x u) : exec (.convert r) s = .next (issueCmd convertEff u k x) :=
  gateIn_begins hl h (issueCmd convertEff)

end

/-! ## The ends of a command (R84, R144) -/

/-- The state with another list of what waits at the issue points. -/
def withWaiting (s : State) (l : List IssueWait) : State := { s with regu := { s.regu with waiting := l } }

theorem unwait_eq (s : State) (who : Issuer) : ∃ l, unwait s who = withWaiting s l := by
  unfold unwait
  split
  · exact ⟨s.regu.waiting, rfl⟩
  · exact ⟨_, rfl⟩

/-- A program context whose command's requests are done with a status. -/
def PCtx.ended (x : PCtx) (tc : Nat) (st : Status) : PCtx := { x.err tc st with done := true, wait := none }

/-- The end of a command's requests changes its program context and what waits at the issue points. -/
theorem pctxDone_some {s : State} {k : Nat} {x : PCtx} (h : s.pctx k = some x) (st : Status) :
    ∃ l, pctxDone s k st = (withWaiting s l).setPctx k (x.ended s.clk.tc st) := by
  obtain ⟨l, hl⟩ := unwait_eq s (.pctx k false)
  obtain ⟨m, hm⟩ := unwait_eq (unwait s (.pctx k false)) (.pctx k true)
  refine ⟨m, ?_⟩
  unfold pctxDone
  rw [h]
  dsimp only
  rw [hm, hl]
  rfl

theorem pctxDone_none {s : State} {k : Nat} (h : s.pctx k = none) (st : Status) : pctxDone s k st = s := by
  unfold pctxDone
  rw [h]

theorem pctx_pctxDone {s : State} {k : Nat} {x : PCtx} (h : s.pctx k = some x) (st : Status) :
    (pctxDone s k st).pctx k = some (x.ended s.clk.tc st) := by
  obtain ⟨l, e⟩ := pctxDone_some h st
  rw [e, pctx_set_same]

theorem sameMem_pctxDone (s : State) (k : Nat) (st : Status) : SameMem s (pctxDone s k st) := by
  cases h : s.pctx k with
  | none => rw [pctxDone_none h]; exact fun _ => ⟨rfl, rfl, rfl, rfl⟩
  | some x =>
    obtain ⟨l, e⟩ := pctxDone_some h st
    rw [e]
    exact fun _ => ⟨rfl, rfl, rfl, rfl⟩

theorem pctxDone_accesses (s : State) (k : Nat) (st : Status) : (pctxDone s k st).accesses = s.accesses := by
  cases h : s.pctx k with
  | none => rw [pctxDone_none h]
  | some x =>
    obtain ⟨l, e⟩ := pctxDone_some h st
    rw [e]
    rfl

theorem doneOk_pctxDone {s : State} {k : Nat} {y : PCtx} (h : s.pctx k = some y) (hst : y.status = none) :
    DoneOk (pctxDone s k .ok) k :=
  ⟨_, pctx_pctxDone h .ok, rfl, rfl, hst⟩

theorem status_err {x : PCtx} {st : Status} (h : x.status = none) (hst : stOk st = false) (tc : Nat) :
    (x.err tc st).status = some st := by
  simp [PCtx.err, hst, h]

theorem doneWith_pctxDone {s : State} {k : Nat} {y : PCtx} {st : Status} (h : s.pctx k = some y) (hy : y.status = none)
    (hst : stOk st = false) : DoneWith (pctxDone s k st) k st :=
  ⟨_, pctx_pctxDone h st, rfl, rfl, status_err hy hst _⟩

/-- The state in which a command ends with an error: its FAULT record written, but for quarantine (R84). -/
def faultNoted (s : State) (k : Nat) (x : PCtx) (e : XErr) : State :=
  if e.st = .quarantined then s else faultRec s (128 + k / 8) (dTag x.desc) e.st e.addr e.cva e.host

theorem cmdFault_eq (s : State) (k : Nat) (x : PCtx) (e : XErr) :
    cmdFault s k x e = pctxDone (faultNoted s k x e) k e.st := rfl

theorem sansLedger_faultNoted (s : State) (k : Nat) (x : PCtx) (e : XErr) :
    sansLedger (faultNoted s k x e) = sansLedger s := by
  unfold faultNoted
  split
  · rfl
  · exact sansLedger_ledgerSrc ..

theorem pctx_faultNoted (s : State) (k : Nat) (x : PCtx) (e : XErr) (j : Nat) :
    (faultNoted s k x e).pctx j = s.pctx j :=
  (congrArg (fun u : State => u.pctx j) (sansLedger_faultNoted s k x e) :)

theorem sameMem_of_sansLedger {s t : State} (h : sansLedger t = sansLedger s) : SameMem s t := by
  rw [eq_of_sansLedger h]
  exact fun _ => ⟨rfl, rfl, rfl, rfl⟩

theorem sameMem_cmdFault (s : State) (k : Nat) (x : PCtx) (e : XErr) : SameMem s (cmdFault s k x e) := by
  rw [cmdFault_eq]
  exact (sameMem_of_sansLedger (sansLedger_faultNoted s k x e)).trans (sameMem_pctxDone _ _ _)

theorem cmdFault_accesses (s : State) (k : Nat) (x : PCtx) (e : XErr) : (cmdFault s k x e).accesses = s.accesses := by
  rw [cmdFault_eq, pctxDone_accesses]
  exact (congrArg State.accesses (sansLedger_faultNoted s k x e) :)

theorem doneWith_cmdFault {s : State} {k : Nat} {y : PCtx} {e : XErr} (h : s.pctx k = some y) (hy : y.status = none)
    (hst : stOk e.st = false) (x : PCtx) : DoneWith (cmdFault s k x e) k e.st := by
  rw [cmdFault_eq]
  exact doneWith_pctxDone ((pctx_faultNoted s k x e k).trans h) hy hst

theorem mintErrSet_work (s : State) (k : Nat) (m : MRes) : (mintErrSet s k m).work = s.work := by
  unfold mintErrSet
  split
  · rfl
  · exact driveField_work ..

theorem pctx_mintErrSet (s : State) (k : Nat) (m : MRes) (j : Nat) : (mintErrSet s k m).pctx j = s.pctx j := by
  unfold State.pctx
  rw [mintErrSet_work]

/-! ## The effects (R140, R226) -/

section
variable {s : State} {k : Nat} {x : PCtx}

theorem copyEff_ends {v : State} {e : Option XErr} {b : List Byte}
    (h : copySpan s (pctxVia s k x) false false none (dSrc x.desc) (dDst x.desc) (dLen x.desc) = (v, e, b)) :
    copyEff s k x = cmdEnd v k x e := by
  unfold copyEff
  rw [h]

theorem fillEff_ends {v : State} {e : Option XErr} {n : Nat}
    (h : writeSpan s (pctxVia s k x) false none (dDst x.desc) (allOn (fillBytes x.desc)) = (v, e, n)) :
    fillEff s k x = cmdEnd v k x e := by
  unfold fillEff
  rw [h]

/-- A FILL of length 0 has no byte to write. -/
theorem fillEff_empty (h : dLen x.desc = 0) : fillEff s k x = pctxDone s k .ok := by
  have hb : fillBytes x.desc = [] := by simp [fillBytes, h]
  have hw : writeSpan s (pctxVia s k x) false none (dDst x.desc) (allOn (fillBytes x.desc)) = (s, none, 0) := by
    rw [hb]
    rfl
  exact fillEff_ends hw

/-- A REDUCE whose length or stride is no multiple of its lane. -/
theorem reduceEff_misaligned (h : dLen x.desc % laneBytes (bits (dAux0 x.desc) 0 3 + 3) ≠ 0 ∨
      dAux1 x.desc % laneBytes (bits (dAux0 x.desc) 0 3 + 3) ≠ 0) :
    reduceEff s k x = cmdFault s k x (bareErr .faultAlign) := by
  unfold reduceEff
  exact if_pos h

section
variable (hlen : dLen x.desc % laneBytes (bits (dAux0 x.desc) 0 3 + 3) = 0)
  (hstride : dAux1 x.desc % laneBytes (bits (dAux0 x.desc) 0 3 + 3) = 0)
include hlen hstride

theorem reduceEff_accBad {a : Nat}
    (h : accBad (pctxVia s k x) (dLen x.desc / 128 + 2) (dDst x.desc) (dLen x.desc) s = some a) :
    reduceEff s k x = cmdFault s k x (xErr (pctxVia s k x) false .faultProt a) := by
  unfold reduceEff
  dsimp only
  rw [if_neg (by simp [hlen, hstride]), h]

theorem reduceEff_ends {v : State} {e : Option XErr}
    (hacc : accBad (pctxVia s k x) (dLen x.desc / 128 + 2) (dDst x.desc) (dLen x.desc) s = none)
    (h : reduceBlocks (pctxVia s k x) (bits (dAux0 x.desc) 0 3 + 3) (dSrc x.desc) (dDst x.desc) (dLen x.desc)
      (dAux1 x.desc) (bits (dAux0 x.desc) 8 8 + 1) 0 s = (v, e)) :
    reduceEff s k x = cmdEnd v k x e := by
  unfold reduceEff
  dsimp only
  rw [if_neg (by simp [hlen, hstride]), hacc]
  dsimp only
  rw [h]

end

theorem convertEff_empty (h : dLen x.desc = 0) : convertEff s k x = pctxDone s k .ok := by
  unfold convertEff
  exact if_pos h

/-- The elements or bytes that a CONVERT of whole units reads. -/
def ConvertCount (d : Desc) (n : Nat) : Prop :=
  (dMint d).inF = 13 ∧ n = dLen d ∨
    (dMint d).inF ≠ 13 ∧ dLen d % (mfmt (dMint d).inF (dMint d).gsz).bytes = 0 ∧
      n = dLen d / (mfmt (dMint d).inF (dMint d).gsz).bytes * (mfmt (dMint d).inF (dMint d).gsz).unit

theorem convertEff_ends {v : State} {m : MRes} {n : Nat} (hlen : 0 < dLen x.desc) (hn : ConvertCount x.desc n)
    (h : mintRun (mintRead s (pctxVia s k x) false (dMint x.desc) true (dSrc x.desc) n).1 (pctxVia s k x) false
      (dMint x.desc) true (dSrc x.desc) (dDst x.desc) n (dAux2 x.desc)
      (mintRead s (pctxVia s k x) false (dMint x.desc) true (dSrc x.desc) n).2 = (v, m)) :
    convertEff s k x = cmdEnd (mintErrSet v k m) k x m.err := by
  unfold convertEff
  dsimp only
  rw [if_neg (by omega)]
  rcases hn with ⟨hf, rfl⟩ | ⟨hf, hwhole, rfl⟩
  · rw [if_pos hf, if_neg (by simp [hf]), h]
  · rw [if_neg hf, if_neg (by simp [hwhole]), h]

end

/-! ## The bytes of a FILL (R140) -/

theorem nth_eq_getD {α : Type} (d : α) (l : List α) (i : Nat) : nth d l i = l.getD i d := by
  induction l generalizing i with
  | nil => rfl
  | cons x l ih =>
    cases i with
    | zero => rfl
    | succ i => exact ih i

theorem nth_map_range {α : Type} (d : α) (f : Nat → α) {n i : Nat} (h : i < n) :
    nth d ((List.range n).map f) i = f i := by
  simp [nth_eq_getD, h]

theorem fillBytes_length (d : Desc) : (fillBytes d).length = dLen d := by simp [fillBytes]

/-- Byte i of a FILL is byte i mod its width of the pattern. -/
theorem nth_fillBytes (d : Desc) {i : Nat} (h : i < dLen d) :
    nth 0#8 (fillBytes d) i = BitVec.ofNat 8 (dAux2 d / 2 ^ (8 * (i % 2 ^ bits (dAux0 d) 0 2))) := by
  have hp : i % 2 ^ bits (dAux0 d) 0 2 < 2 ^ bits (dAux0 d) 0 2 := Nat.mod_lt _ (by positivity)
  unfold fillBytes
  dsimp only
  rw [nth_map_range _ _ h, toBytes, nth_map_range _ _ hp]

/-- Settles O31: each row by the end of its effect. -/
theorem dataCommands : Obligations.DataCommands := by
  unfold Obligations.DataCommands
  refine ⟨?copy, ?copyErr, ?fill, ?fillEmpty, ?reduce, ?misaligned, ?outside, ?convertEmpty, ?convert⟩
  case copy =>
    intro s r k x u w v b hl hb hi hspan
    have e : copyEff w k x.waitless = pctxDone v k .ok := copyEff_ends (x := x.waitless) hspan
    exact ⟨by rw [exec_copy hl hb, issueCmd_issues hi, e], fun y hy hst => doneOk_pctxDone hy hst⟩
  case copyErr =>
    intro s r k x u w v b e hl hb hi hst hspan
    have he : copyEff w k x.waitless = cmdFault v k x e := copyEff_ends (x := x.waitless) hspan
    exact ⟨cmdFault v k x e, by rw [exec_copy hl hb, issueCmd_issues hi, he], rfl,
      fun y hy hn => doneWith_cmdFault hy hn hst x⟩
  case fill =>
    intro s r k x u w v n hl hb hi hspan
    have e : fillEff w k x.waitless = pctxDone v k .ok := fillEff_ends (x := x.waitless) hspan
    exact ⟨by rw [exec_fill hl hb, issueCmd_issues hi, e], fun y hy hst => doneOk_pctxDone hy hst,
      fillBytes_length x.desc, fun i h => nth_fillBytes x.desc h⟩
  case fillEmpty =>
    intro s r k x u hl hb hlen hst
    refine ⟨_, exec_fill hl hb, ?_⟩
    rw [issueCmd_quiet (fun t => by rw [fillEff_empty hlen, pctxDone_accesses]), fillEff_empty (x := x.waitless) hlen]
    exact ⟨doneOk_pctxDone (pctx_set_same ..) hst, (sameMem_setPctx _ _ _).trans (sameMem_pctxDone _ _ _)⟩
  case reduce =>
    intro s r k x u w v hl hb hi hlen hstride hacc hrun
    have e : reduceEff w k x.waitless = pctxDone v k .ok := reduceEff_ends (x := x.waitless) hlen hstride hacc hrun
    exact ⟨by rw [exec_reduce hl hb, issueCmd_issues hi, e], fun y hy hst => doneOk_pctxDone hy hst⟩
  case misaligned =>
    intro s r k x u hl hb hst hbad
    refine ⟨_, exec_reduce hl hb, ?_⟩
    rw [issueCmd_quiet (fun t => by rw [reduceEff_misaligned hbad, cmdFault_accesses]),
      reduceEff_misaligned (x := x.waitless) hbad]
    exact ⟨doneWith_cmdFault (y := x.waitless) (e := bareErr .faultAlign) (pctx_set_same ..) hst rfl _,
      (sameMem_setPctx _ _ _).trans (sameMem_cmdFault _ _ _ _)⟩
  case outside =>
    intro s r k a x u w hl hb hst hi hlen hstride hacc
    refine ⟨_, exec_reduce hl hb, ?_⟩
    rw [issueCmd_issues hi, reduceEff_accBad (x := x.waitless) hlen hstride hacc]
    exact ⟨doneWith_cmdFault (pctx_of_issues hi) hst rfl _, sameMem_cmdFault _ _ _ _⟩
  case convertEmpty =>
    intro s r k x u hl hb hlen hst
    refine ⟨_, exec_convert hl hb, ?_⟩
    rw [issueCmd_quiet (fun t => by rw [convertEff_empty hlen, pctxDone_accesses]),
      convertEff_empty (x := x.waitless) hlen]
    exact ⟨doneOk_pctxDone (pctx_set_same ..) hst, (sameMem_setPctx _ _ _).trans (sameMem_pctxDone _ _ _)⟩
  case convert =>
    intro s r k n x u w v m hl hb hi hlen hn hrun herr
    have e : convertEff w k x.waitless = pctxDone (mintErrSet v k m) k .ok :=
      (convertEff_ends (x := x.waitless) hlen hn hrun).trans (by rw [herr]; rfl)
    exact ⟨by rw [exec_convert hl hb, issueCmd_issues hi, e],
      fun y hy hst => doneOk_pctxDone ((pctx_mintErrSet v k m k).trans hy) hst⟩

end Sys2Proof.Machine


/-! SUPPORT. Relays (R203 to R207): what stands at a ring as link 512 is a relay as consumer of its source ring, so the header
of a chain of more than 512 links takes no slot there. -/

namespace Sys2Proof.Machine

theorem exec_relayReservation {s : State} (hl : Live s dFAB) (m p : Nat) :
    exec (.relayReservation m p none) s = .next (relayReserve s (m % 32 * 8 + p % 8)) :=
  gateIn_live hl (fun s => relayReserve s (m % 32 * 8 + p % 8))

/-- A relay of one granule whose chain names ring 0 of the die 513 times; its header stands before the last of these links. -/
def longRelay : Relay :=
  { links := List.replicate 513 (0, 0, 0), piece := 1, pieces := 1, len := 128, src := 0, srcRing := none, resv := 0,
    resvAt := 512, granted := false, srcSlot := none, sent := 0, slots := [], failed := false }

/-- A program context of a command without a context that runs this relay. -/
def longRelayCtx : PCtx :=
  { ring := 0, seq := 0, desc := [], start := 0, status := none, sflag := none, done := false, record := false,
    wait := none, spin := false, stream := none, relay := some longRelay, wdStage := 0, wdFrom := 0, errTc := 0,
    issued := 0, polled := 0, since := 0, unbindOf := none }

/-- After reset: program context 0 with this relay, ring 0 enabled with three free slots of one granule. -/
def longRelayState : State :=
  (State.reset.setPctx 0 longRelayCtx).setSlotRing 0 { ringEmpty with cfg := 0x301#64 }

/-- The state meets every hypothesis of a reservation at a ring of this die. -/
theorem longRelayState_meets :
    relayMoves longRelayState 0 longRelayCtx longRelay = true ∧ longRelay.resvAt < longRelay.links.length ∧
    relayFromHere longRelayState longRelay longRelay.resvAt = true ∧
    longRelay.link longRelay.resvAt = (longRelayState.pwr.dieId, 0, 0) ∧ longRelayState.tableMark = [] ∧
    relayDenied (longRelayState.slotRing 0) (relayDom longRelayState longRelayCtx) = false ∧
    longRelay.piece ≤ (longRelayState.slotRing 0).size ∧ (longRelayState.slotRing 0).standing = [] ∧
    slotWaiters longRelayState 0 0 = [] ∧ (longRelayState.slotRing 0).avail 0 = true ∧
    (longRelayState.slotRing 0).open longRelayState.clk.tc 0 = true := by decide +kernel

theorem live_longRelayState : Live longRelayState dFAB := by decide +kernel

/-- The header stands at the ring, which gives it no slot. -/
theorem relayReserve_longRelayState_heldP : ((relayReserve longRelayState 0).slotRing 0).heldP = 0 := by decide +kernel

/-- Refutes O40: its first clause does not bound the links. At link 512, which names the source ring's consumer, a header
stands at a ring with a free slot and takes none; a chain holds 512 links at most (R204), so no command starts such
a relay. -/
theorem not_relays : ¬ Obligations.Relays := by
  unfold Obligations.Relays
  rintro ⟨reserves, -⟩
  obtain ⟨moves, more, here_, link, words, permits, fits, empty, alone, free, opens⟩ := longRelayState_meets
  obtain ⟨takes, -⟩ := reserves longRelayState 0 0 0 0 0 longRelayCtx longRelay live_longRelayState rfl (pctx_set_same ..)
    rfl moves more here_ link (by decide) words permits (fun _ => fits) empty alone
  obtain ⟨t, j, q, ht, hq, hring, -⟩ := takes free opens
  obtain rfl : relayReserve longRelayState 0 = t := by
    rw [exec_relayReservation live_longRelayState] at ht
    injection ht
  have held : q.heldP = 1 := (congrArg (fun e => e.2.heldP) hq :)
  rw [← hring, relayReserve_longRelayState_heldP] at held
  exact absurd held (by decide)

end Sys2Proof.Machine


/-! SUPPORT. Command rings' control (R128, R132, R133, R145): what a write to CMDR_CTL and a doorbell do, case by case. -/

namespace Sys2Proof.Machine

/-! ## A command ring's registers -/

/-- Registers of command rings are no registers of an event. -/
theorem notMem_eventRegs {o : Nat} (h : 0x20000 ≤ o ∧ o < 0x31000) : o ∉ eventRegs := by
  intro hm
  have : ∀ p ∈ eventRegs, p < 0x20000 ∨ 0x31000 ≤ p := by decide
  have := this o hm
  omega

@[simp] theorem touch_cmdEn (s : State) (d r : Nat) : cmdEn (touch s d) r = cmdEn s r := touch_rgBit ..

@[simp] theorem touch_cmdBusy (s : State) (d r : Nat) : cmdBusy (touch s d) r = cmdBusy s r := by
  simp [cmdBusy, cmdRunning]

@[simp] theorem touch_disableWaits (s : State) (d r : Nat) : disableWaits (touch s d) r = disableWaits s r := by
  simp [disableWaits]

@[simp] theorem touch_cmdSize (s : State) (d r : Nat) : cmdSize (touch s d) r = cmdSize s r := by simp [cmdSize]

@[simp] theorem touch_rg64 (s : State) (d lo hi : Nat) : (touch s d).rg64 lo hi = s.rg64 lo hi := by simp [State.rg64]

@[simp] theorem touch_ringBaseOk (s : State) (d : Nat) (host : Bool) (base align : Nat) :
    ringBaseOk (touch s d) host base align = ringBaseOk s host base align := by
  simp [ringBaseOk, ownBankOrStack, framePresent]

@[simp] theorem emit_rg (s : State) (o : Out) (p : Nat) : (s.emit o).rg p = s.rg p := rfl

@[simp] theorem emit_rgBit (s : State) (o : Out) (p i : Nat) : (s.emit o).rgBit p i = s.rgBit p i := rfl

@[simp] theorem emit_ring (s : State) (o : Out) (r : Nat) : (s.emit o).ring r = s.ring r := rfl

@[simp] theorem setRing_rg (s : State) (r : Nat) (x : Ring) (o : Nat) : (s.setRing r x).rg o = s.rg o := rfl

@[simp] theorem setRing_rgBit (s : State) (r : Nat) (x : Ring) (o i : Nat) :
    (s.setRing r x).rgBit o i = s.rgBit o i := rfl

/-- The state without registers and what the hardware drove in them. -/
def sansRegs (s : State) : State := { s with regs := [], hw := State.reset.hw }

theorem eq_of_sansRegs {s t : State} (h : sansRegs t = sansRegs s) : t = { s with regs := t.regs, hw := t.hw } :=
  calc t = { sansRegs t with regs := t.regs, hw := t.hw } := rfl
    _ = { s with regs := t.regs, hw := t.hw } := by rw [h]; rfl

theorem sansRegs_setRg (s : State) (o v : Nat) : sansRegs (s.setRg o v) = sansRegs s := rfl

theorem sansRegs_setRgBit (s : State) (o i : Nat) (b : Bool) : sansRegs (s.setRgBit o i b) = sansRegs s := rfl

theorem onlyRegs_of_sansRegs {d : Nat} {l : List Nat} {s t : State} (h : sansRegs t = sansRegs (touch s d))
    (hr : RegsBut l s t) : OnlyRegs d l s t := ⟨eq_of_sansRegs h, hr⟩

theorem regsBut_emit {l : List Nat} {s t : State} (h : RegsBut l s t) (o : Out) : RegsBut l s (t.emit o) :=
  regsBut_of_regs (emit_regs t o) h

theorem regsBut_setRing {l : List Nat} {s t : State} (h : RegsBut l s t) (r : Nat) (x : Ring) :
    RegsBut l s (t.setRing r x) := regsBut_of_regs (setRing_regs t r x) h

theorem regsBut_touch (l : List Nat) (s : State) (d : Nat) : RegsBut l s (touch s d) :=
  regsBut_of_regs (touch_regs s d) (regsBut_refl l s)

/-! ## Writes to CMDR_CTL (R128, R145) -/

section
variable {s : State} {r : Nat} (hr : r < 1024) (hl : Live s dFAB) {v : Word}
include hr hl

theorem exec_cmdrEnable (hv : bit v.toNat 0 = true) :
    exec (.cmdrEnable r v) s = .next (cmdrCtlWrite (touch s dFAB) r v.toNat) := by
  refine (gate_live hl 7 0 (.cmdrEnable r v)
    (fun s => if bit v.toNat 0 then cmdrCtlWrite s (r % 1024) v.toNat else s)).trans ?_
  rw [if_pos hv, Nat.mod_eq_of_lt hr]

theorem exec_cmdrDisable (hv : bit v.toNat 0 = false) :
    exec (.cmdrDisable r v) s = .next (cmdrCtlWrite (touch s dFAB) r v.toNat) := by
  refine (gate_live hl 7 0 (.cmdrDisable r v)
    (fun s => if bit v.toNat 0 then s else cmdrCtlWrite s (r % 1024) v.toNat)).trans ?_
  rw [hv, if_neg Bool.false_ne_true, Nat.mod_eq_of_lt hr]

theorem exec_cmdrStop (hv : bit v.toNat 1 = true) :
    exec (.cmdrStop r v) s = .next (cmdrCtlWrite (touch s dFAB) r v.toNat) := by
  refine (gate_live hl 7 0 (.cmdrStop r v)
    (fun s => if bit v.toNat 1 then cmdrCtlWrite s (r % 1024) v.toNat else s)).trans ?_
  rw [if_pos hv, Nat.mod_eq_of_lt hr]

theorem exec_cmdrResume (hv : bit v.toNat 1 = false) :
    exec (.cmdrResume r v) s = .next (cmdrCtlWrite (touch s dFAB) r v.toNat) := by
  refine (gate_live hl 7 0 (.cmdrResume r v)
    (fun s => if bit v.toNat 1 then s else cmdrCtlWrite s (r % 1024) v.toNat)).trans ?_
  rw [hv, if_neg Bool.false_ne_true, Nat.mod_eq_of_lt hr]

end

section
variable {s : State} {r v : Nat}

@[simp] theorem setRgBit_cmdBusy (s : State) (o i : Nat) (b : Bool) (r : Nat) :
    cmdBusy (s.setRgBit o i b) r = cmdBusy s r := rfl

theorem cmdrCtlWrite_enables (hen : cmdEn s r = false) (hv : bit v 0 = true) :
    cmdrCtlWrite s r v = cmdEnable (s.setRgBit (Reg.cmdrCtl r) 1 (bit v 1)) r (bit v 1) := by
  simp [cmdrCtlWrite, hen, hv]

theorem cmdrCtlWrite_stops (hen : cmdEn s r = true) (hv : bit v 0 = true) :
    cmdrCtlWrite s r v = cmdStopSet s r (bit v 1) := by
  simp [cmdrCtlWrite, hen, hv]

theorem cmdrCtlWrite_disables (hen : cmdEn s r = true) (hv : bit v 0 = false) :
    cmdrCtlWrite s r v = cmdDisable s r (bit v 1) := by
  simp [cmdrCtlWrite, hen, hv]

end

/-- The set-up of a command ring is one of R128. -/
def CmdSetup (s : State) (r : Nat) : Prop :=
  5 ≤ s.rgField (Reg.cmdrCfg r) 0 5 ∧ s.rgField (Reg.cmdrCfg r) 0 5 ≤ 16 ∧
    ringBaseOk s (s.rgBit (Reg.cmdrCfg r) 31) (s.rg64 (Reg.cmdrBaseLo r) (Reg.cmdrBaseHi r)) 2048 = true

/-- A command ring on with HEAD, TAIL and DONE 0, running or stopped (R128, R145). -/
def cmdOn (s : State) (r : Nat) (stop : Bool) : State :=
  ((((s.setRg (Reg.cmdrHead r) 0).setRg (Reg.cmdrTail r) 0).setRg (Reg.cmdrDone r) 0).setRg (Reg.cmdrCtl r)
    (1 + 2 * b2n stop)).setRing r
      { state := if stop then .stopped else .running, err := 0, fetched := [], batches := (s.ring r).batches }

/-- A write of CMDR_CTL.STOP leaves a ring's set-up. -/
theorem cmdSetup_stopBit {s : State} {r : Nat} (h : CmdSetup s r) (stop : Bool) :
    CmdSetup (s.setRgBit (Reg.cmdrCtl r) 1 stop) r := by
  have hcfg : (s.setRgBit (Reg.cmdrCtl r) 1 stop).rg (Reg.cmdrCfg r) = s.rg (Reg.cmdrCfg r) :=
    rg_setRg_other _ _ _ _ (by simp only [Reg.cmdrCfg, Reg.cmdrCtl]; omega)
  have hlo : (s.setRgBit (Reg.cmdrCtl r) 1 stop).rg (Reg.cmdrBaseLo r) = s.rg (Reg.cmdrBaseLo r) :=
    rg_setRg_other _ _ _ _ (by simp only [Reg.cmdrBaseLo, Reg.cmdrCtl]; omega)
  have hhi : (s.setRgBit (Reg.cmdrCtl r) 1 stop).rg (Reg.cmdrBaseHi r) = s.rg (Reg.cmdrBaseHi r) :=
    rg_setRg_other _ _ _ _ (by simp only [Reg.cmdrBaseHi, Reg.cmdrCtl]; omega)
  unfold CmdSetup State.rgField State.rgBit State.rg64
  rw [hcfg, hlo, hhi]
  exact h

theorem cmdEnable_good {s : State} {r : Nat} (hb : cmdBusy s r = false) (h : CmdSetup s r) (stop : Bool) :
    cmdEnable s r stop = cmdOn s r stop := by
  obtain ⟨h5, h16, hbase⟩ := h
  simp [cmdEnable, cmdOn, hb, h5, h16, hbase]

theorem cmdEnable_bad {s : State} {r : Nat} (h : s.rgField (Reg.cmdrCfg r) 0 5 < 5 ∨ 16 < s.rgField (Reg.cmdrCfg r) 0 5)
    (stop : Bool) : cmdEnable s r stop = s.setRgBit (Reg.cmdrStatus r) 8 true := by
  have bad : (decide (5 ≤ s.rgField (Reg.cmdrCfg r) 0 5) && decide (s.rgField (Reg.cmdrCfg r) 0 5 ≤ 16)) = false := by
    simp only [Bool.and_eq_false_iff, decide_eq_false_iff_not]
    omega
  simp [cmdEnable, bad]

/-- What a ring just enabled reads as. -/
theorem cmdOn_reads (s : State) (r : Nat) (stop : Bool) :
    cmdEn (cmdOn s r stop) r = true ∧ ((cmdOn s r stop).ring r).state = (if stop then .stopped else .running) ∧
    (cmdOn s r stop).rg (Reg.cmdrHead r) = 0 ∧ (cmdOn s r stop).rg (Reg.cmdrTail r) = 0 ∧
    (cmdOn s r stop).rg (Reg.cmdrDone r) = 0 ∧
    RegsBut [Reg.cmdrCtl r, Reg.cmdrHead r, Reg.cmdrTail r, Reg.cmdrDone r] s (cmdOn s r stop) := by
  unfold cmdOn
  simp only [cmdEn, setRing_rgBit, setRing_rg, ring_set_same]
  refine ⟨?_, trivial, ?_, ?_, ?_, ?_⟩
  · rw [rgBit_setRg _ _ _ 0 (by decide)]
    cases stop <;> rfl
  · rw [rg_setRg_other _ _ _ _ (by simp), rg_setRg_other _ _ _ _ (by simp), rg_setRg_other _ _ _ _ (by simp),
      rg_setRg_same]
    rfl
  · rw [rg_setRg_other _ _ _ _ (by simp), rg_setRg_other _ _ _ _ (by simp), rg_setRg_same]
    rfl
  · rw [rg_setRg_other _ _ _ _ (by simp), rg_setRg_same]
    rfl
  · exact regsBut_setRing (regsBut_setRg (by simp) (regsBut_setRg (by simp) (regsBut_setRg (by simp)
      (regsBut_setRg (by simp) (regsBut_refl _ s))))) r _

/-- The state without registers, what the hardware drove in them, and command rings. -/
def sansRings (s : State) : State := { s with regs := [], hw := State.reset.hw, work := { s.work with rings := [] } }

theorem eq_of_sansRings {s t : State} (h : sansRings t = sansRings s) :
    t = { s with regs := t.regs, hw := t.hw, work := { s.work with rings := t.work.rings } } :=
  calc t = { sansRings t with regs := t.regs, hw := t.hw,
                              work := { (sansRings t).work with rings := t.work.rings } } := rfl
    _ = { s with regs := t.regs, hw := t.hw, work := { s.work with rings := t.work.rings } } := by rw [h]; rfl

theorem sansRings_setRg (s : State) (o v : Nat) : sansRings (s.setRg o v) = sansRings s := rfl

theorem sansRings_setRing (s : State) (r : Nat) (x : Ring) : sansRings (s.setRing r x) = sansRings s := rfl

theorem sansRings_cmdOn (s : State) (r : Nat) (stop : Bool) : sansRings (cmdOn s r stop) = sansRings s := by
  unfold cmdOn
  simp only [sansRings_setRing, sansRings_setRg]

theorem sansRings_setRgBit (s : State) (o i : Nat) (b : Bool) : sansRings (s.setRgBit o i b) = sansRings s := rfl

/-- An enable behind the gate changes registers, what the hardware drove in them, and the ring. -/
theorem cmdOn_touch_frame (s : State) (r : Nat) (stop : Bool) :
    let t := cmdOn ((touch s dFAB).setRgBit (Reg.cmdrCtl r) 1 stop) r stop
    t = { touch s dFAB with regs := t.regs, hw := t.hw, work := { s.work with rings := t.work.rings } } := by
  intro t
  have h : sansRings t = sansRings (touch s dFAB) := (sansRings_cmdOn ..).trans (sansRings_setRgBit ..)
  rw [← touch_work s dFAB]
  exact eq_of_sansRings h

/-- A ring that is not in ERROR takes its STOP bit and runs, or stops. -/
theorem cmdStopSet_eq {s : State} {r : Nat} (h : (s.ring r).state ≠ .error) (stop : Bool) :
    cmdStopSet s r stop =
      headCheck ((s.setRgBit (Reg.cmdrCtl r) 1 stop).setRing r
        { s.ring r with state := if stop then .stopped else .running }) r := by
  simp [cmdStopSet, h]

/-- A stopped ring starts no look at its head. -/
theorem headCheck_stopped {s : State} {r : Nat} (h : (s.ring r).state = .stopped) : headCheck s r = s := by
  unfold headCheck
  split
  · rfl
  · simp [cmdGoes, h]

theorem headCheck_empty {s : State} {r : Nat} (h : (s.ring r).fetched = []) : headCheck s r = s := by
  unfold headCheck
  rw [h]

/-- A command ring off with nothing fetched, its batches in flight doomed (R145). -/
def cmdOff (s : State) (r : Nat) (stop : Bool) : State :=
  let t := (freeRingWait (s.setRg (Reg.cmdrCtl r) (2 * b2n stop)) r).setRing r
    { s.ring r with fetched := [], batches := batchesDoomed (s.ring r).batches }
  t.setRing r { t.ring r with state := .disabled }

@[simp] theorem freeRingWait_rg (s : State) (r o : Nat) : (freeRingWait s r).rg o = s.rg o := rfl

@[simp] theorem freeRingWait_rgBit (s : State) (r o i : Nat) : (freeRingWait s r).rgBit o i = s.rgBit o i := rfl

theorem regsBut_freeRingWait {l : List Nat} {s t : State} (h : RegsBut l s t) (r : Nat) :
    RegsBut l s (freeRingWait t r) := regsBut_of_regs rfl h

theorem rgBit_stopOnly (s : State) (o : Nat) (stop : Bool) : (s.setRg o (2 * b2n stop)).rgBit o 0 = false := by
  rw [rgBit_setRg _ _ _ 0 (by decide)]
  cases stop <;> rfl

/-- What a ring just disabled reads as. -/
theorem cmdOff_reads (s : State) (r : Nat) (stop : Bool) :
    cmdEn (cmdOff s r stop) r = false ∧ ((cmdOff s r stop).ring r).state = .disabled ∧
    ((cmdOff s r stop).ring r).batches = batchesDoomed (s.ring r).batches ∧
    RegsBut [Reg.cmdrCtl r] s (cmdOff s r stop) := by
  unfold cmdOff
  simp only [cmdEn, setRing_rgBit, freeRingWait_rgBit, ring_set_same, rgBit_stopOnly]
  exact ⟨trivial, trivial, trivial, regsBut_setRing (regsBut_setRing (regsBut_freeRingWait
    (regsBut_setRg (by simp) (regsBut_refl _ s)) r) r _) r _⟩

/-- A ring that is not busy is disabled at once. -/
theorem cmdDisable_idle {s : State} {r : Nat} (hb : cmdBusy s r = false) (stop : Bool) :
    cmdDisable s r stop = cmdOff s r stop := by
  simp only [cmdBusy, Bool.or_eq_false_iff, Bool.not_eq_false', List.isEmpty_iff] at hb
  obtain ⟨hf, hrun⟩ := hb
  have quiet : cmdRunning ((freeRingWait (s.setRg (Reg.cmdrCtl r) (2 * b2n stop)) r).setRing r
      { s.ring r with fetched := [], batches := batchesDoomed (s.ring r).batches }) r = [] := hrun
  unfold cmdDisable cmdSettle cmdOff
  simp only [hf, List.foldl_nil, cmdEn, setRing_rgBit, freeRingWait_rgBit, rgBit_stopOnly]
  rw [if_pos (by simp [quiet, ring_set_same])]

/-! ## Doorbells (R132, R133) -/

theorem exec_doorbell {s : State} (hl : Live s dFAB) (r off width : Nat) (v : DWord) :
    exec (.doorbell r off width v) s =
      .next (match doorbellWrite (touch s dFAB) (r % 1024) off width v.toNat with
        | (st, t) => t.emit (.reply st 0#64)) :=
  gate_live hl 7 0 (.doorbell r off width v) (fun s => match doorbellWrite s (r % 1024) off width v.toNat with
    | (st, t) => t.emit (.reply st 0#64))

theorem exec_doorbell_whole {s : State} {r : Nat} (hr : r < 1024) (hl : Live s dFAB) (v : DWord) :
    exec (.doorbell r 0 8 v) s =
      .next ((doorbellRing (touch s dFAB) r (v.toNat % 2 ^ 32)).emit (.reply .ok 0#64)) := by
  rw [exec_doorbell hl, Nat.mod_eq_of_lt hr]
  rfl

/-- A write that is no 8 B write of the page's first word. -/
theorem doorbellWrite_wrong {off width : Nat} (h : off ≠ 0 ∨ width ≠ 8) (s : State) (r v : Nat) :
    doorbellWrite s r off width v = (if off = 0 then .faultAlign else .faultProt, s) := by
  unfold doorbellWrite
  by_cases hoff : off = 0
  · rw [if_neg (by simpa using hoff), if_pos (h.resolve_left (by simpa using hoff)), if_pos hoff]
  · rw [if_pos hoff, if_neg hoff]

theorem emit_setRg_frame (s : State) (p v : Nat) (o : Out) :
    (s.setRg p v).emit o = { s with regs := (s.setRg p v).regs, out := s.out ++ [o] } := rfl

/-- How far a value of TAIL stands before HEAD of a ring. -/
def cmdAhead (s : State) (r T : Nat) : Nat := (T + 2 ^ 32 - s.rg (Reg.cmdrHead r)) % 2 ^ 32

@[simp] theorem touch_cmdAhead (s : State) (d r T : Nat) : cmdAhead (touch s d) r T = cmdAhead s r T := by simp [cmdAhead]

section
variable {s : State} {r T : Nat}

theorem doorbellRing_eq :
    doorbellRing s r T =
      if !cmdEn s r || disableWaits s r then s.setRgBit (Reg.cmdrStatus r) 9 true
      else if cmdSize s r < cmdAhead s r T then (if (s.ring r).state = .error then s else cmdError s r 1 0)
      else if cmdAhead s r T < cmdAhead s r (s.rg (Reg.cmdrTail r)) then s.setRgBit (Reg.cmdrStatus r) 9 true
      else s.setRg (Reg.cmdrTail r) T := rfl

theorem doorbellRing_off (h : cmdEn s r = false ∨ disableWaits s r = true) :
    doorbellRing s r T = s.setRgBit (Reg.cmdrStatus r) 9 true := by
  rw [doorbellRing_eq, if_pos (by simpa using h)]

/-- A doorbell behind TAIL moves nothing, whether its ring is on or off. -/
theorem doorbellRing_behind (hback : cmdAhead s r T < cmdAhead s r (s.rg (Reg.cmdrTail r)))
    (hfit : cmdAhead s r T ≤ cmdSize s r) : doorbellRing s r T = s.setRgBit (Reg.cmdrStatus r) 9 true := by
  rw [doorbellRing_eq, if_neg (Nat.not_lt.mpr hfit), if_pos hback, ite_self]

section
variable (hen : cmdEn s r = true) (hw : disableWaits s r = false)
include hen hw

theorem doorbellRing_moves (hfit : cmdAhead s r T ≤ cmdSize s r)
    (hnext : cmdAhead s r (s.rg (Reg.cmdrTail r)) ≤ cmdAhead s r T) :
    doorbellRing s r T = s.setRg (Reg.cmdrTail r) T := by
  rw [doorbellRing_eq, if_neg (by simp [hen, hw]), if_neg (Nat.not_lt.mpr hfit), if_neg (Nat.not_lt.mpr hnext)]

theorem doorbellRing_ahead (hstate : (s.ring r).state ≠ .error) (hfar : cmdSize s r < cmdAhead s r T) :
    doorbellRing s r T = cmdError s r 1 0 := by
  rw [doorbellRing_eq, if_neg (by simp [hen, hw]), if_pos hfar, if_neg hstate]

end

end

/-- A ring that enters ERROR keeps its TAIL. -/
theorem cmdError_tail {r : Nat} (hr : r < 1024) (s : State) (code addr : Nat) :
    (cmdError s r code addr).rg (Reg.cmdrTail r) = s.rg (Reg.cmdrTail r) :=
  (eventFrame_event ..).1 _ (notMem_eventRegs (by simp only [Reg.cmdrTail]; omega))

/-- Settles O27: a write to CMDR_CTL by the case of `cmdrCtlWrite`, a doorbell by that of `doorbellRing`. -/
theorem commandRingControl : Obligations.CommandRingControl := by
  unfold Obligations.CommandRingControl
  refine ⟨?enable, ?badSetup, ?moves, ?ahead, ?ignored, ?wrong, ?stop, ?resume, ?disable⟩
  case enable =>
    intro s r v hr hl hv hen hb h5 h16 hbase
    have setup : CmdSetup (touch s dFAB) r := by simpa [CmdSetup] using ⟨h5, h16, hbase⟩
    refine ⟨cmdOn ((touch s dFAB).setRgBit (Reg.cmdrCtl r) 1 (bit v.toNat 1)) r (bit v.toNat 1), ?_, ?_⟩
    · rw [exec_cmdrEnable hr hl hv, cmdrCtlWrite_enables (by simpa using hen) hv,
        cmdEnable_good (by simpa using hb) (cmdSetup_stopBit setup _)]
    · obtain ⟨on, state, head, tail, done, regs⟩ :=
        cmdOn_reads ((touch s dFAB).setRgBit (Reg.cmdrCtl r) 1 (bit v.toNat 1)) r (bit v.toNat 1)
      exact ⟨on, state, head, tail, done, regsBut_trans (regsBut_setRgBit (by simp) (regsBut_touch _ s dFAB)) regs,
        cmdOn_touch_frame s r _⟩
  case badSetup =>
    intro s r v hr hl hv hen hsize
    have size : ((touch s dFAB).setRgBit (Reg.cmdrCtl r) 1 (bit v.toNat 1)).rgField (Reg.cmdrCfg r) 0 5 =
        s.rgField (Reg.cmdrCfg r) 0 5 :=
      (rgField_setRg_other _ _ _ _ _ _ (by simp only [Reg.cmdrCfg, Reg.cmdrCtl]; omega)).trans (touch_rgField ..)
    refine ⟨_, exec_cmdrEnable hr hl hv, ?_⟩
    rw [cmdrCtlWrite_enables (by simpa using hen) hv, cmdEnable_bad (by rw [size]; omega)]
    refine ⟨?_, rgBit_setRgBit_same _ _ _ _ (by decide), onlyRegs_of_sansRegs
      ((sansRegs_setRgBit ..).trans (sansRegs_setRgBit ..))
      (regsBut_setRgBit (by simp) (regsBut_setRgBit (by simp) (regsBut_touch _ s dFAB)))⟩
    rw [cmdEn, rgBit_setRgBit_other _ _ _ _ _ _ (by simp only [Reg.cmdrStatus, Reg.cmdrCtl]; omega),
      rgBit_setRgBit_bit _ _ _ _ _ (by decide) (by decide), touch_rgBit]
    exact hen
  case moves =>
    intro s r v hr hl hen hw hfit hnext
    refine ⟨_, exec_doorbell_whole hr hl v, ?_⟩
    rw [doorbellRing_moves (by simpa using hen) (by simpa using hw) (by simpa [cmdAhead] using hfit)
      (by simpa [cmdAhead] using hnext)]
    refine ⟨?_, ?_, regsBut_emit (regsBut_setRg (by simp) (regsBut_touch _ s dFAB)) _, emit_setRg_frame ..⟩
    · rw [emit_rg, rg_setRg_same, Nat.mod_mod]
    · exact congrArg (· ++ _) (touch_out s dFAB)
  case ahead =>
    intro s r v hr hl hen hw hstate hfar
    have state : ((touch s dFAB).ring r).state ≠ .error := by simpa using hstate
    refine ⟨_, exec_doorbell_whole hr hl v, ?_⟩
    rw [doorbellRing_ahead (by simpa using hen) (by simpa using hw) state (by simpa [cmdAhead] using hfar),
      emit_ring, emit_rg, cmdError_ring state, cmdError_tail hr, touch_rg]
    exact ⟨rfl, rfl, rfl⟩
  case ignored =>
    intro s r v hr hl hcond
    have same : doorbellRing (touch s dFAB) r (v.toNat % 2 ^ 32) = (touch s dFAB).setRgBit (Reg.cmdrStatus r) 9 true := by
      rcases hcond with h | h | ⟨hback, hfit⟩
      · exact doorbellRing_off (.inl (by simpa using h))
      · exact doorbellRing_off (.inr (by simpa using h))
      · exact doorbellRing_behind (by simpa [cmdAhead] using hback) (by simpa [cmdAhead] using hfit)
    refine ⟨_, exec_doorbell_whole hr hl v, ?_⟩
    rw [same, emit_rgBit, emit_work, setRgBit_work]
    exact ⟨rgBit_setRgBit_same _ _ _ _ (by decide),
      regsBut_emit (regsBut_setRgBit (by simp) (regsBut_touch _ s dFAB)) _, touch_work s dFAB⟩
  case wrong =>
    intro s r off width v hl hbad
    rw [exec_doorbell hl, doorbellWrite_wrong hbad]
  case stop =>
    intro s r v hr hl hv hstop hen hrun
    have state : ((touch s dFAB).ring r).state ≠ .error := by simp [hrun]
    refine ⟨_, exec_cmdrStop hr hl hstop, ?_⟩
    rw [cmdrCtlWrite_stops (by simpa using hen) hv, cmdStopSet_eq state, hstop,
      headCheck_stopped (by rw [ring_set_same, if_pos rfl]), ring_set_same, setRing_rgBit, touch_ring]
    exact ⟨rfl, rfl, rgBit_setRgBit_same _ _ _ _ (by decide),
      regsBut_setRing (regsBut_setRgBit (by simp) (regsBut_touch _ s dFAB)) r _⟩
  case resume =>
    intro s r v hr hl hv hstop hen hstate hf
    have state : ((touch s dFAB).ring r).state ≠ .error := by simp [hstate]
    refine ⟨_, exec_cmdrResume hr hl hstop, ?_⟩
    rw [cmdrCtlWrite_stops (by simpa using hen) hv, cmdStopSet_eq state, hstop,
      headCheck_empty (by rw [ring_set_same, touch_ring]; exact hf), ring_set_same, setRing_rgBit]
    exact ⟨rfl, rgBit_setRgBit_same _ _ _ _ (by decide),
      regsBut_setRing (regsBut_setRgBit (by simp) (regsBut_touch _ s dFAB)) r _⟩
  case disable =>
    intro s r v hr hl hv hen hb
    refine ⟨_, exec_cmdrDisable hr hl hv, ?_⟩
    rw [cmdrCtlWrite_disables (by simpa using hen) hv, cmdDisable_idle (by simpa using hb)]
    obtain ⟨off, state, batches, regs⟩ := cmdOff_reads (touch s dFAB) r (bit v.toNat 1)
    exact ⟨off, state, by rw [batches, touch_ring], regsBut_trans (regsBut_touch _ s dFAB) regs⟩

end Sys2Proof.Machine


/-! SUPPORT. Completion and event rings and the program store (R128, R148, R154, R155): what a write to a ring's CFG and
HEAD does, what the time condition adds, and what a program store word replaces. -/

namespace Sys2Proof.Machine

/-! ## Masked words -/

/-- A field that a mask lets through whole. -/
theorem bits_and_mask {m lo w : Nat} (h : bits m lo w = 2 ^ w - 1) (v : Nat) : bits (v &&& m) lo w = bits v lo w := by
  unfold bits at h ⊢
  rw [Nat.and_div_two_pow, Nat.and_mod_two_pow, h, Nat.and_two_pow_sub_one_eq_mod, Nat.mod_mod]

theorem bit_and_mask {m i : Nat} (h : bit m i = true) (v : Nat) : bit (v &&& m) i = bit v i := by
  have ones : bits m i 1 = 2 ^ 1 - 1 := by simpa [bit] using h
  rw [bit, bits_and_mask ones, bit]

/-! ## The words and the interrupt condition of a ring -/

@[simp] theorem ringReg_inj {evr : Bool} {c w z : Nat} : ringReg evr c w = ringReg evr c z ↔ w = z := by
  cases evr <;> simp [ringReg]

@[simp] theorem setIrq_rg (s : State) (evr : Bool) (c : Nat) (x : RingIrq) (o : Nat) :
    (s.setIrq evr c x).rg o = s.rg o := congrArg (fun l => (tget (regReset o) l o).toNat) (setIrq_regs s evr c x)

@[simp] theorem setIrq_rgBit (s : State) (evr : Bool) (c : Nat) (x : RingIrq) (o i : Nat) :
    (s.setIrq evr c x).rgBit o i = s.rgBit o i := congrArg (bit · i) (setIrq_rg s evr c x o)

@[simp] theorem irq_setIrq_same (s : State) (evr : Bool) (c : Nat) (x : RingIrq) : (s.setIrq evr c x).irq evr c = x := by
  cases evr <;> exact tget_tset_same ..

@[simp] theorem setIrq_now (s : State) (evr : Bool) (c : Nat) (x : RingIrq) : (s.setIrq evr c x).now = s.now :=
  congrArg (fun p => ((p.raw : Int) - p.off).toNat / 16 % 2 ^ 64) (setIrq_pt s evr c x)

@[simp] theorem touch_irq (s : State) (d : Nat) (evr : Bool) (c : Nat) : (touch s d).irq evr c = s.irq evr c :=
  congrArg (fun w : Work => tget noIrq (if evr then w.eirq else w.cirq) c) (touch_work s d)

@[simp] theorem touch_ringHead (s : State) (d : Nat) (evr : Bool) (c : Nat) :
    ringHead (touch s d) evr c = ringHead s evr c := by
  simp [ringHead]

@[simp] theorem touch_ringLevel (s : State) (d : Nat) (evr : Bool) (c : Nat) :
    ringLevel (touch s d) evr c = ringLevel s evr c := by
  simp [ringLevel]

@[simp] theorem touch_ringEn (s : State) (d : Nat) (evr : Bool) (c : Nat) : ringEn (touch s d) evr c = ringEn s evr c :=
  touch_rgBit ..

/-- The state without registers and the interrupt bookkeeping of rings. -/
def sansRingRegs (s : State) : State := { s with regs := [], work := { s.work with cirq := [], eirq := [] } }

theorem eq_of_sansRingRegs {s t : State} (h : sansRingRegs t = sansRingRegs s) :
    t = { s with regs := t.regs, work := { s.work with cirq := t.work.cirq, eirq := t.work.eirq } } :=
  calc t = { sansRingRegs t with regs := t.regs,
                                 work := { (sansRingRegs t).work with cirq := t.work.cirq, eirq := t.work.eirq } } := rfl
    _ = { s with regs := t.regs, work := { s.work with cirq := t.work.cirq, eirq := t.work.eirq } } := by rw [h]; rfl

theorem sansRingRegs_setRg (s : State) (o v : Nat) : sansRingRegs (s.setRg o v) = sansRingRegs s := rfl

theorem sansRingRegs_setIrq (s : State) (evr : Bool) (c : Nat) (x : RingIrq) :
    sansRingRegs (s.setIrq evr c x) = sansRingRegs s := by
  cases evr <;> rfl

theorem setIrq_eirq (s : State) (c : Nat) (x : RingIrq) : (s.setIrq false c x).work.eirq = s.work.eirq := rfl

theorem setIrq_cirq (s : State) (c : Nat) (x : RingIrq) : (s.setIrq true c x).work.cirq = s.work.cirq := rfl

/-! ## Writes to CRING_CFG and EVR_CFG (R128) -/

theorem exec_cringEnable {s : State} {c : Nat} (hc : c < 1024) (hl : Live s dFAB) {v : Word}
    (hv : bit v.toNat 29 = true) :
    exec (.cringEnable c v) s = .next (ringCfgWrite (touch s dFAB) false c v.toNat) := by
  refine (gate_live hl 7 0 (.cringEnable c v)
    (fun s => if bit v.toNat 29 then ringCfgWrite s false (c % 1024) v.toNat else s)).trans ?_
  rw [if_pos hv, Nat.mod_eq_of_lt hc]

theorem exec_evrEnable {s : State} {e : Nat} (he : e < 16) (hl : Live s dFAB) {v : Word} (hv : bit v.toNat 29 = true) :
    exec (.evrEnable e v) s = .next (ringCfgWrite (touch s dFAB) true e v.toNat) := by
  refine (gate_live hl 7 0 (.evrEnable e v)
    (fun s => if bit v.toNat 29 then ringCfgWrite s true (e % 16) v.toNat else s)).trans ?_
  rw [if_pos hv, Nat.mod_eq_of_lt he]

/-- The bits of CRING_CFG and EVR_CFG. -/
def ringCfgBits (v : Nat) : Nat := v &&& 0xFF00FFFF

theorem ringCfgBits_lt (v : Nat) : ringCfgBits v < 2 ^ 32 := lt_of_le_of_lt Nat.and_le_right (by decide)

@[simp] theorem bit_ringCfgBits_en (v : Nat) : bit (ringCfgBits v) 29 = bit v 29 := bit_and_mask (by decide) v

@[simp] theorem bit_ringCfgBits_host (v : Nat) : bit (ringCfgBits v) 31 = bit v 31 := bit_and_mask (by decide) v

@[simp] theorem bits_ringCfgBits_size (v : Nat) : bits (ringCfgBits v) 24 5 = bits v 24 5 := bits_and_mask (by decide) v

/-- A completion or event ring on with HEAD and TAIL 0 and no interrupt condition. -/
def ringOn (s : State) (evr : Bool) (c v : Nat) : State :=
  (((s.setRg (ringReg evr c 8) (ringCfgBits v)).setRg (ringReg evr c 0x10) 0).setRg (ringReg evr c 0x14) 0).setIrq
    evr c noIrq

section
variable {s : State} {evr : Bool} {c v : Nat} (hen : ringEn s evr c = false) (hv : bit v 29 = true)
include hen hv

theorem ringCfgWrite_enables :
    ringCfgWrite s evr c v =
      if 6 ≤ bits v 24 5 && bits v 24 5 ≤ 20 &&
          ringBaseOk s (bit v 31) (s.rg64 (ringReg evr c 0) (ringReg evr c 4)) 128 then
        ringOn s evr c v
      else (s.setRg (ringReg evr c 8) (putBits (ringCfgBits v) 29 1 0)).setRgBit (ringStat evr c) 2 true := by
  rw [← bits_ringCfgBits_size, ← bit_ringCfgBits_host]
  have off : bit (s.rg (ringReg evr c 8)) 29 = false := hen
  have on : bit (ringCfgBits v) 29 = true := (bit_ringCfgBits_en v).trans hv
  unfold ringCfgWrite
  simp only [off, Bool.false_eq_true, if_false]
  exact if_pos on

theorem ringCfgWrite_good (h6 : 6 ≤ bits v 24 5) (h20 : bits v 24 5 ≤ 20)
    (hbase : ringBaseOk s (bit v 31) (s.rg64 (ringReg evr c 0) (ringReg evr c 4)) 128 = true) :
    ringCfgWrite s evr c v = ringOn s evr c v := by
  rw [ringCfgWrite_enables hen hv, if_pos (by simp [h6, h20, hbase])]

theorem ringCfgWrite_badSize (h : 20 < bits v 24 5 ∨ bits v 24 5 < 6) :
    ringCfgWrite s evr c v =
      (s.setRg (ringReg evr c 8) (putBits (ringCfgBits v) 29 1 0)).setRgBit (ringStat evr c) 2 true := by
  have bad : (decide (6 ≤ bits v 24 5) && decide (bits v 24 5 ≤ 20)) = false := by
    simp only [Bool.and_eq_false_iff, decide_eq_false_iff_not]
    omega
  rw [ringCfgWrite_enables hen hv, bad, Bool.false_and, if_neg Bool.false_ne_true]

end

/-- What a ring just enabled reads as. -/
theorem ringOn_reads (s : State) (evr : Bool) (c : Nat) {v : Nat} (hv : bit v 29 = true) :
    ringEn (ringOn s evr c v) evr c = true ∧ ringLevel (ringOn s evr c v) evr c = 0 ∧
    ringSize (ringOn s evr c v) evr c = 2 ^ bits v 24 5 ∧
    RegsBut [ringReg evr c 8, ringReg evr c 0x10, ringReg evr c 0x14] s (ringOn s evr c v) := by
  have cfg : (ringOn s evr c v).rg (ringReg evr c 8) = ringCfgBits v := by
    unfold ringOn
    rw [setIrq_rg, rg_setRg_other _ _ _ _ (by simp), rg_setRg_other _ _ _ _ (by simp), rg_setRg_same,
      Nat.mod_eq_of_lt (ringCfgBits_lt v)]
  have head : (ringOn s evr c v).rg (ringReg evr c 0x10) = 0 := by
    unfold ringOn
    rw [setIrq_rg, rg_setRg_other _ _ _ _ (by simp), rg_setRg_same]
    rfl
  have tail : (ringOn s evr c v).rg (ringReg evr c 0x14) = 0 := by
    unfold ringOn
    rw [setIrq_rg, rg_setRg_same]
    rfl
  have irq : (ringOn s evr c v).irq evr c = noIrq := irq_setIrq_same ..
  refine ⟨?_, ?_, ?_, ?_⟩
  · rw [ringEn, State.rgBit, cfg, bit_ringCfgBits_en, hv]
  · simp [ringLevel, ringHead, irq, head, tail, noIrq]
  · rw [ringSize, State.rgField, cfg, bits_ringCfgBits_size]
  · exact regsBut_of_regs (setIrq_regs ..) (regsBut_setRg (by simp) (regsBut_setRg (by simp)
      (regsBut_setRg (by simp) (regsBut_refl _ s))))

theorem sansRingRegs_ringOn (s : State) (evr : Bool) (c v : Nat) : sansRingRegs (ringOn s evr c v) = sansRingRegs s := by
  unfold ringOn
  simp only [sansRingRegs_setIrq, sansRingRegs_setRg]

theorem ringOn_cring_frame (s : State) (c v : Nat) :
    ringOn s false c v = { s with regs := (ringOn s false c v).regs,
                                  work := { s.work with cirq := (ringOn s false c v).work.cirq } } := by
  have h := eq_of_sansRingRegs (sansRingRegs_ringOn s false c v)
  have keeps : (ringOn s false c v).work.eirq = s.work.eirq := setIrq_eirq ..
  rw [keeps] at h
  exact h

theorem ringOn_evr_frame (s : State) (c v : Nat) :
    ringOn s true c v = { s with regs := (ringOn s true c v).regs,
                                 work := { s.work with eirq := (ringOn s true c v).work.eirq } } := by
  have h := eq_of_sansRingRegs (sansRingRegs_ringOn s true c v)
  have keeps : (ringOn s true c v).work.cirq = s.work.cirq := setIrq_cirq ..
  rw [keeps] at h
  exact h

/-! ## Writes to CRING_HEAD and EVR_HEAD (R148, R154) -/

theorem exec_cringHeadWrite {s : State} {evr : Bool} {c : Nat} (hc : c < if evr then 16 else 1024) (hl : Live s dFAB)
    (v : Word) : exec (.cringHeadWrite evr c v) s = .next (ringHeadWrite (touch s dFAB) evr c v.toNat) := by
  refine (gate_live hl 7 0 (.cringHeadWrite evr c v)
    (fun s => ringHeadWrite s evr (c % (if evr then 16 else 1024)) v.toNat)).trans ?_
  rw [Nat.mod_eq_of_lt hc]

/-- A ring whose HEAD was set to v in this tc: its level counts with the HEAD of the tc's start (R148). -/
def headMoved (s : State) (evr : Bool) (c v : Nat) : State :=
  (s.setRg (ringReg evr c 0x10) v).setIrq evr c
    { since := s.now, fired := false, headOld := some (s.clk.tc, ringHead s evr c),
      marks := (s.irq evr c).marks.filter
        (fun m => decide ((m + 2 ^ 32 - ringHead s evr c) % 2 ^ 32 < ringLevel s evr c)) }

section
variable {s : State} {evr : Bool} {c v : Nat}

theorem ringHeadWrite_taken (h : (v + 2 ^ 32 - s.rg (ringReg evr c 0x10)) % 2 ^ 32 ≤
      (s.rg (ringReg evr c 0x14) + 2 ^ 32 - s.rg (ringReg evr c 0x10)) % 2 ^ 32) :
    ringHeadWrite s evr c v = headMoved s evr c v := if_neg (Nat.not_lt.mpr h)

theorem ringHeadWrite_beyond (h : (s.rg (ringReg evr c 0x14) + 2 ^ 32 - s.rg (ringReg evr c 0x10)) % 2 ^ 32 <
      (v + 2 ^ 32 - s.rg (ringReg evr c 0x10)) % 2 ^ 32) :
    ringHeadWrite s evr c v = s.setRgBit (ringStat evr c) 3 true := if_pos h

end

theorem headMoved_head (s : State) (evr : Bool) (c v : Nat) :
    (headMoved s evr c v).rg (ringReg evr c 0x10) = v % 2 ^ 32 := (setIrq_rg ..).trans (rg_setRg_same ..)

theorem headMoved_irq (s : State) (evr : Bool) (c v : Nat) :
    ((headMoved s evr c v).irq evr c).since = s.now ∧ ((headMoved s evr c v).irq evr c).fired = false := by
  simp [headMoved]

theorem headMoved_ringHead (s : State) (evr : Bool) (c v : Nat) :
    ringHead (headMoved s evr c v) evr c = ringHead s evr c := by
  have now : (headMoved s evr c v).clk.tc = s.clk.tc := congrArg Clk.tc (setIrq_clk ..)
  have old : ((headMoved s evr c v).irq evr c).headOld = some (s.clk.tc, ringHead s evr c) :=
    congrArg RingIrq.headOld (irq_setIrq_same ..)
  rw [ringHead, old, now]
  exact if_pos rfl

theorem headMoved_ringLevel (s : State) (evr : Bool) (c v : Nat) :
    ringLevel (headMoved s evr c v) evr c = ringLevel s evr c := by
  have tail : (headMoved s evr c v).rg (ringReg evr c 0x14) = s.rg (ringReg evr c 0x14) :=
    (setIrq_rg ..).trans (rg_setRg_other _ _ _ _ (by simp))
  rw [ringLevel, headMoved_ringHead, tail, ringLevel]

theorem regsBut_headMoved (s : State) (evr : Bool) (c v : Nat) : RegsBut [ringReg evr c 0x10] s (headMoved s evr c v) :=
  regsBut_of_regs (setIrq_regs ..) (regsBut_setRg (by simp) (regsBut_refl _ s))

/-! ## The time condition (R154) -/

theorem exec_irqNsExpire {s : State} {evr : Bool} {c : Nat} (hc : c < if evr then 16 else 1024) (hl : Live s dFAB) :
    exec (.irqNsExpire evr c) s = .next (irqTime s evr c) := by
  refine (gateIn_live hl (fun s => irqTime s evr (c % (if evr then 16 else 1024)))).trans ?_
  rw [Nat.mod_eq_of_lt hc]

/-- A ring whose time condition fired. -/
def irqFired (s : State) (evr : Bool) (c : Nat) : State := s.setIrq evr c { s.irq evr c with fired := true }

section
variable {s : State} {evr : Bool} {c : Nat} (hen : ringEn s evr c = true) (hlevel : ringLevel s evr c ≠ 0)
  (hns : s.rg (ringReg evr c 0xC) ≠ 0) (htime : (s.irq evr c).since + s.rg (ringReg evr c 0xC) ≤ s.now)
include hen hlevel hns htime

theorem irqTime_fires : irqTime s evr c = irqFired s evr c := by
  have due : (ringEn s evr c && ringLevel s evr c != 0 && s.rg (ringReg evr c 0xC) != 0 &&
      decide ((s.irq evr c).since + s.rg (ringReg evr c 0xC) ≤ s.now)) = true := by simp [hen, hlevel, hns, htime]
  exact if_pos due

theorem ringCond_irqFired : ringCond (irqFired s evr c) evr c = true := by
  have irq : (irqFired s evr c).irq evr c = { s.irq evr c with fired := true } := irq_setIrq_same ..
  have now : (irqFired s evr c).now = s.now := setIrq_now ..
  have clk : (irqFired s evr c).clk = s.clk := setIrq_clk ..
  have rg : ∀ o, (irqFired s evr c).rg o = s.rg o := fun o => setIrq_rg ..
  have en : ringEn (irqFired s evr c) evr c = true := (setIrq_rgBit ..).trans hen
  have head : ringHead (irqFired s evr c) evr c = ringHead s evr c := by rw [ringHead, irq, clk, rg, ringHead]
  have level : ringLevel (irqFired s evr c) evr c = ringLevel s evr c := by rw [ringLevel, rg, head, ringLevel]
  have timed : ringTimed (irqFired s evr c) evr c = true := by simp [ringTimed, irq, rg, now, hns, htime]
  simp [ringCond, en, level, timed, hlevel]

end

theorem irqFired_frame (s : State) (evr : Bool) (c : Nat) :
    irqFired s evr c = { s with work := { s.work with cirq := (irqFired s evr c).work.cirq,
                                                      eirq := (irqFired s evr c).work.eirq } } := by
  have h := eq_of_sansRingRegs (sansRingRegs_setIrq s evr c { s.irq evr c with fired := true })
  rw [setIrq_regs] at h
  exact h

/-! ## The program store (R155) -/

theorem exec_pstoreLowWrite {s : State} {n : Nat} (hn : n < 32768) (hl : Live s dFAB) (v : Word) :
    exec (.pstoreLowWrite n v) s = .next (pstoreLow (touch s dFAB) n v) := by
  refine (gate_live hl 7 0 (.pstoreLowWrite n v) (fun s => pstoreLow s (n % 32768) v)).trans ?_
  rw [Nat.mod_eq_of_lt hn]

theorem exec_pstoreHighWrite {s : State} {n : Nat} (hn : n < 32768) (hl : Live s dFAB) (v : Word) :
    exec (.pstoreHighWrite n v) s = .next (pstoreHigh (touch s dFAB) n v) := by
  refine (gate_live hl 7 0 (.pstoreHighWrite n v) (fun s => pstoreHigh s (n % 32768) v)).trans ?_
  rw [Nat.mod_eq_of_lt hn]

@[simp] theorem touch_instr (s : State) (d i : Nat) : (touch s d).instr i = s.instr i :=
  congrArg (fun w : Work => tget 0#64 w.pstore i) (touch_work s d)

/-- The low word that a write of instruction n's high word goes with. -/
def lowWord (s : State) (n : Nat) : Nat :=
  match tfind s.work.pstoreLow n with
  | some w => w.toNat
  | none => (s.instr n).toNat % 2 ^ 32

theorem lowWord_held {s : State} {n : Nat} {w : Word} (h : tfind s.work.pstoreLow n = some w) :
    lowWord s n = w.toNat := by
  rw [lowWord, h]

theorem lowWord_own {s : State} {n : Nat} (h : tfind s.work.pstoreLow n = none) :
    lowWord s n = (s.instr n).toNat % 2 ^ 32 := by
  rw [lowWord, h]

section
variable (s : State) (n : Nat) (v : Word)

theorem instr_pstoreHigh_same : (pstoreHigh s n v).instr n = BitVec.ofNat 64 (v.toNat * 2 ^ 32 + lowWord s n) :=
  tget_tset_same ..

theorem instr_pstoreHigh_other {i : Nat} (h : i ≠ n) : (pstoreHigh s n v).instr i = s.instr i :=
  tget_tset_other _ _ _ _ _ _ h

theorem pstoreHigh_uses_held : tfind (pstoreHigh s n v).work.pstoreLow n = none := tfind_terase_same ..

theorem pstoreHigh_regs : (pstoreHigh s n v).regs = s.regs := rfl

theorem sameMem_pstoreHigh : SameMem s (pstoreHigh s n v) := fun _ => ⟨rfl, rfl, rfl, rfl⟩

end

theorem sameMem_pstoreHigh_touch (s : State) (d n : Nat) (v : Word) : SameMem s (pstoreHigh (touch s d) n v) := by
  intro a
  simpa using sameMem_pstoreHigh (touch s d) n v a

/-- Settles O30: a ring's CFG and HEAD by the case of the write, the time condition by its test, and a program store word
by the tables it writes. -/
theorem ringRegisters : Obligations.RingRegisters := by
  unfold Obligations.RingRegisters
  refine ⟨?cring, ?badSize, ?evr, ?taken, ?beyond, ?time, ?low, ?held, ?own⟩
  case cring =>
    intro s c v hc hl hv hen h6 h20 hbase
    refine ⟨ringOn (touch s dFAB) false c v.toNat, ?_, ?_⟩
    · rw [exec_cringEnable hc hl hv, ringCfgWrite_good (by simpa using hen) hv h6 h20 (by simpa using hbase)]
    · obtain ⟨on, level, size, regs⟩ := ringOn_reads (touch s dFAB) false c hv
      refine ⟨on, level, size, regsBut_trans (regsBut_touch _ s dFAB) regs, ?_⟩
      rw [← touch_work s dFAB]
      exact ringOn_cring_frame ..
  case badSize =>
    intro s e v he hl hv hen hsize
    refine ⟨_, exec_evrEnable he hl hv, ?_⟩
    rw [ringCfgWrite_badSize (by simpa using hen) hv hsize]
    refine ⟨?_, rgBit_setRgBit_same _ _ _ _ (by decide), onlyRegs_of_sansRegs
      ((sansRegs_setRgBit ..).trans (sansRegs_setRg ..))
      (regsBut_setRgBit (by simp) (regsBut_setRg (by simp) (regsBut_touch _ s dFAB)))⟩
    rw [ringEn, rgBit_setRgBit_other _ _ _ _ _ _ (by simp [ringStat]), rgBit_setRg _ _ _ _ (by decide), bit,
      bits_putBits_same]
    rfl
  case evr =>
    intro s e v he hl hv hen h6 h20 hbase
    refine ⟨ringOn (touch s dFAB) true e v.toNat, ?_, ?_⟩
    · rw [exec_evrEnable he hl hv, ringCfgWrite_good (by simpa using hen) hv h6 h20 (by simpa using hbase)]
    · obtain ⟨on, level, -, regs⟩ := ringOn_reads (touch s dFAB) true e hv
      refine ⟨on, level, regsBut_trans (regsBut_touch _ s dFAB) regs, ?_⟩
      rw [← touch_work s dFAB]
      exact ringOn_evr_frame ..
  case taken =>
    intro s evr c v hc hl hle
    refine ⟨_, exec_cringHeadWrite hc hl v, ?_⟩
    rw [ringHeadWrite_taken (by simpa using hle), headMoved_head, headMoved_ringLevel, Nat.mod_eq_of_lt v.isLt,
      touch_ringLevel]
    obtain ⟨since, fired⟩ := headMoved_irq (touch s dFAB) evr c v.toNat
    exact ⟨rfl, rfl, since.trans (touch_now ..), fired,
      regsBut_trans (regsBut_touch _ s dFAB) (regsBut_headMoved _ _ _ _)⟩
  case beyond =>
    intro s evr c v hc hl hlt
    refine ⟨_, exec_cringHeadWrite hc hl v, ?_⟩
    rw [ringHeadWrite_beyond (by simpa using hlt)]
    exact ⟨rgBit_setRgBit_same _ _ _ _ (by decide), onlyRegs_of_sansRegs (sansRegs_setRgBit ..)
      (regsBut_setRgBit (by simp) (regsBut_touch _ s dFAB))⟩
  case time =>
    intro s evr c hc hl hen hlevel hns htime
    refine ⟨_, exec_irqNsExpire hc hl, ?_⟩
    rw [irqTime_fires hen hlevel hns htime]
    exact ⟨congrArg RingIrq.fired (irq_setIrq_same ..), ringCond_irqFired hen hlevel hns htime, irqFired_frame ..⟩
  case low =>
    intro s n v hn hl
    refine ⟨_, exec_pstoreLowWrite hn hl v, fun i => touch_instr s dFAB i, tfind_tput_same .., ?_⟩
    rw [← touch_work s dFAB]
    rfl
  case held =>
    intro s n v low hn hl hlow
    refine ⟨_, exec_pstoreHighWrite hn hl v, ?_, fun i hi => (instr_pstoreHigh_other _ _ _ hi).trans (touch_instr ..),
      pstoreHigh_uses_held .., (pstoreHigh_regs ..).trans (touch_regs ..), sameMem_pstoreHigh_touch s dFAB n v⟩
    rw [instr_pstoreHigh_same, lowWord_held (by rw [touch_work]; exact hlow)]
  case own =>
    intro s n v hn hl hlow
    refine ⟨_, exec_pstoreHighWrite hn hl v, ?_, fun i hi => (instr_pstoreHigh_other _ _ _ hi).trans (touch_instr ..),
      (pstoreHigh_regs ..).trans (touch_regs ..), sameMem_pstoreHigh_touch s dFAB n v⟩
    rw [instr_pstoreHigh_same, lowWord_own (by rw [touch_work]; exact hlow), touch_instr]

end Sys2Proof.Machine


/-! SUPPORT. Completion of commands (R146 to R149): the clean of a mover's dirty record may reach past the die's banks, where
the word of a bank's run state is one of a completion ring. -/

namespace Sys2Proof.Machine

/-- A FENCE of SCOPE CORE without QUIET and without a deadline, whose record goes to completion ring 0. -/
def coreFence : Desc := [0x108#64, 0#64, 0#64, 0#64, 0#64, 0#64, 0#64, 0#64]

/-- The program context of that command of ring 0, done. -/
def coreFenceCtx : PCtx :=
  { pctxStart 0 0 0 { desc := coreFence, seq := 0, notBefore := true, wflag := none, polled := 0 } with done := true }

/-- The granule at bank 31,493, offset 0: PWR_BANK of this number is the word CRING_TAIL of completion ring 0. -/
def strayLine : Nat := 31493 * 2 ^ 14

/-- After reset: program context 0 with that command, completion ring 0 enabled with one record, and the stray line dirty in
the record of mover 0. -/
def strayState : State :=
  let s := (State.reset.setPctx 0 coreFenceCtx).setRg (ringReg false 0 8) (2 ^ 29 + 2 ^ 24 * 6)
  { s.setRg (ringReg false 0 0x14) 1 with
    slc := { s.slc with lines := [(strayLine, { data := 0, dirty := true, fill := 0, stale := false })],
                        dirty := [(128, [strayLine])] } }

theorem live_strayState : Live strayState dFAB := by decide +kernel

/-- The state meets every hypothesis of a completion with a record in a ring with room. -/
theorem strayState_meets :
    strayState.work.pctxs.find? (fun e => e.2.ring == 0 && e.2.seq == 0 && pctxSettled strayState e.1 e.2) =
      some (0, coreFenceCtx) ∧
    dQuiet coreFenceCtx.desc = false ∧ ringEn strayState false (dCring coreFenceCtx.desc) = true ∧
    ringFull strayState false (dCring coreFenceCtx.desc) = false ∧ strayState.work.cwait = [] := by decide +kernel

theorem exec_commandComplete {s : State} (hl : Live s dFAB) {r seq k : Nat} {x : PCtx}
    (h : s.work.pctxs.find? (fun e => e.2.ring == r && e.2.seq == seq && pctxSettled s e.1 e.2) = some (k, x)) :
    exec (.commandComplete r seq) s = .next (cmdComplete s k x) := by
  refine (gateIn_live hl (fun s =>
    match s.work.pctxs.find? (fun e => e.2.ring == r && e.2.seq == seq && pctxSettled s e.1 e.2) with
    | none => s
    | some e => cmdComplete s e.1 e.2)).trans ?_
  rw [h]

theorem strayState_tail : strayState.rg (ringReg false (dCring coreFenceCtx.desc) 0x14) = 1 := by decide +kernel

/-- The clean of the stray line clears the low bits of TAIL, and the record then raises it to 1 again. -/
theorem cmdComplete_strayState_tail :
    (cmdComplete strayState 0 coreFenceCtx).rg (ringReg false (dCring coreFenceCtx.desc) 0x14) = 1 := by decide +kernel

/-- Refutes O29: its second clause does not bound the lines in the mover's dirty record. At SCOPE CORE they are written
back before the record is placed, and a line of bank 31,493 returns that bank to ON in a word that is CRING_TAIL of ring 0:
the record leaves TAIL at 1 instead of 2. The SLC caches no bank of its own die (R234), so no command leaves such a line. -/
theorem not_commandCompletion : ¬ Obligations.CommandCompletion := by
  unfold Obligations.CommandCompletion
  rintro ⟨-, places, -⟩
  obtain ⟨settled, quiet, enabled, room, alone⟩ := strayState_meets
  obtain ⟨t, ht, -, -, -, tail⟩ := places strayState 0 0 0 coreFenceCtx (by decide) live_strayState settled rfl rfl rfl
    quiet enabled room alone
  obtain rfl : cmdComplete strayState 0 coreFenceCtx = t := by
    rw [exec_commandComplete live_strayState settled] at ht
    injection ht
  rw [cmdComplete_strayState_tail, strayState_tail] at tail
  exact absurd tail (by decide)

end Sys2Proof.Machine


/-! SUPPORT. Accesses past the SLC (R49, R61, R234, R296, R307): what one leaves as it was - the program contexts, the flag
store and the barriers, the registers of synchronisation, and which lines of the SLC are dirty. -/

namespace Sys2Proof.Machine

/-! ## Keys of a table -/

section
variable {α : Type} {t : Table α} {k : Nat} {v x : α}

theorem tsorted_iff_keys (t : Table α) : tsorted t = true ↔ (t.map (·.1)).Pairwise (· < ·) := by
  induction t with
  | nil => simp [tsorted]
  | cons e r ih =>
    obtain ⟨k, v⟩ := e
    rw [tsorted_cons, List.map_cons, List.pairwise_cons, ih]
    simp [above]

theorem mem_of_tfind (h : tfind t k = some v) : (k, v) ∈ t := by
  induction t with
  | nil => cases h
  | cons e r ih =>
    obtain ⟨j, w⟩ := e
    unfold tfind at h
    split at h
    · next hj =>
      obtain rfl := Option.some.inj h
      rw [hj]
      exact List.mem_cons_self ..
    · exact List.mem_cons_of_mem _ (ih h)

theorem tfind_of_mem (hs : tsorted t = true) {e : Nat × α} (he : e ∈ t) : tfind t e.1 = some e.2 := by
  induction t with
  | nil => cases he
  | cons a r ih =>
    obtain ⟨j, w⟩ := a
    obtain ⟨habove, hr⟩ := (tsorted_cons j w r).mp hs
    rcases List.mem_cons.mp he with rfl | hm
    · simp [tfind]
    · have later : j ≠ e.1 := (habove e hm).ne
      rw [tfind, if_neg later, ih hr hm]

/-- An entry put at a listed key replaces it. -/
theorem keys_tput (hs : tsorted t = true) (h : tfind t k = some x) (v : α) :
    (tput t k v).map (·.1) = t.map (·.1) := by
  induction t with
  | nil => cases h
  | cons a r ih =>
    obtain ⟨j, w⟩ := a
    obtain ⟨habove, hr⟩ := (tsorted_cons j w r).mp hs
    unfold tfind at h
    unfold tput
    split at h
    · next hj => simp [hj]
    · next hj =>
      have later : j < k := habove _ (mem_of_tfind h)
      rw [if_neg (by omega), if_neg (by omega), List.map_cons, List.map_cons, ih hr h]

end

/-! ## The lines of the SLC -/

/-- Whether the line of a granule is dirty, where there is one. -/
def dirtyAt (s : State) (k : Nat) : Option Bool := (s.line k).map (·.dirty)

/-- The same granules have lines, and the same of them are dirty. -/
structure LinesKept (s t : State) : Prop where
  lines : tsorted s.slc.lines = true →
    t.slc.lines.map (·.1) = s.slc.lines.map (·.1) ∧ ∀ k, dirtyAt t k = dirtyAt s k

theorem linesKept_of_slc {s t : State} (h : t.slc = s.slc) : LinesKept s t := by
  refine ⟨fun _ => ?_⟩
  simp [dirtyAt, State.line, h]

theorem LinesKept.refl (s : State) : LinesKept s s := linesKept_of_slc rfl

theorem LinesKept.sorted {s t : State} (h : LinesKept s t) (hs : tsorted s.slc.lines = true) :
    tsorted t.slc.lines = true := by
  rw [tsorted_iff_keys, (h.lines hs).1]
  exact (tsorted_iff_keys _).mp hs

theorem LinesKept.trans {s t u : State} (h : LinesKept s t) (g : LinesKept t u) : LinesKept s u := by
  refine ⟨fun hs => ?_⟩
  obtain ⟨keys, dirty⟩ := h.lines hs
  obtain ⟨keys', dirty'⟩ := g.lines (h.sorted hs)
  exact ⟨keys'.trans keys, fun k => (dirty' k).trans (dirty k)⟩

/-- A line replaced by one that is as dirty. -/
theorem linesKept_tput {s t : State} {k : Nat} {l m : Line} (h : s.line k = some l) (hd : m.dirty = l.dirty)
    (ht : t.slc.lines = tput s.slc.lines k m) : LinesKept s t := by
  refine ⟨fun hs => ⟨by rw [ht, keys_tput hs h], fun j => ?_⟩⟩
  have line : t.line j = tfind (tput s.slc.lines k m) j := congrArg (tfind · j) ht
  by_cases hj : j = k
  · rw [hj, tfind_tput_same] at line
    rw [hj, dirtyAt, line, dirtyAt, h]
    exact congrArg some hd
  · rw [tfind_tput_other _ _ _ _ hj] at line
    exact congrArg (Option.map (·.dirty)) line

theorem linesKept_slcPassing (s : State) (a : Nat) : LinesKept s (slcPassing s a) := by
  unfold slcPassing
  dsimp only
  split
  · exact .refl s
  · next l hl =>
    split
    · split
      · exact linesKept_tput (m := { l with data := freeGranule s.freeCtr, stale := true }) hl rfl rfl
      · exact linesKept_tput (m := { l with data := freeGranule s.freeCtr, stale := true }) hl rfl rfl
    · exact linesKept_tput (m := { l with stale := true }) hl rfl rfl

/-! ## What leaves the SLC as it was -/

@[simp] theorem countEvent_slc (s : State) (ev q n : Nat) : (countEvent s ev q n).slc = s.slc := by
  unfold countEvent
  split <;> rfl

theorem moved_slc (s : State) (k : Nat) : (moved s k).slc = s.slc := rfl

theorem linkSend_slc {s t : State} {p : Nat} {o : Out} (h : linkSend s p o = some t) : t.slc = s.slc := by
  unfold linkSend at h
  dsimp only at h
  split at h
  · obtain rfl := Option.some.inj h
    rw [emit_slc, moved_slc, countEvent_slc, setLink_slc]
  · cases h

@[simp] theorem linkOut_slc (s : State) (p : Nat) (o : Out) : (linkOut s p o).slc = s.slc := by
  unfold linkOut
  dsimp only
  split
  · split <;> rfl
  · split
    · next h => exact linkSend_slc h
    · split <;> rfl

@[simp] theorem bankStore_slc (s : State) (b off : Nat) (data : List WByte) : (bankStore s b off data).1.slc = s.slc := by
  unfold bankStore
  dsimp only
  split
  · split <;> rfl
  · rfl

@[simp] theorem finishHalf_slc (s : State) (b : Nat) : (finishHalf s b).slc = s.slc := by
  unfold finishHalf
  split
  · rfl
  · split
    · rfl
    · dsimp only
      split
      · rfl
      · exact bankStore_slc ..

/-! ## Records and events -/

theorem linesKept_setStackMem (s : State) (m : Memory) : LinesKept s { s with stackMem := m } := linesKept_of_slc rfl

theorem linesKept_setExtMem (s : State) (m : Memory) : LinesKept s { s with extMem := m } := linesKept_of_slc rfl

theorem linesKept_countRg (s : State) (o n : Nat) : LinesKept s (s.countRg o n) := linesKept_of_slc rfl

theorem linesKept_setRgBit (s : State) (o i : Nat) (b : Bool) : LinesKept s (s.setRgBit o i b) := linesKept_of_slc rfl

theorem linesKept_recWrite (s : State) (host : Bool) (a : Nat) (data : List Byte) :
    LinesKept s (recWrite s host a data) := by
  unfold recWrite
  dsimp only
  split
  · exact linesKept_of_slc rfl
  · split
    · split
      · split
        · exact .refl s
        · exact linesKept_of_slc ((bankStore_slc ..).trans (finishHalf_slc ..))
      · split
        · exact .refl s
        · exact .refl s
        · exact .refl s
        · exact (linesKept_setStackMem s (s.stackMem.writeN (ppaOff a) data)).trans (linesKept_slcPassing ..)
    · split
      · exact ((linesKept_setExtMem s (s.extMem.writeN a data)).trans (linesKept_slcPassing ..)).trans
          (linesKept_of_slc (linkOut_slc ..))
      · exact .refl s

theorem linesKept_ringPlace (s : State) (evr : Bool) (c w : Nat) (mark : Bool) (body : Nat → List Byte) :
    LinesKept s (ringPlace s evr c w mark body) :=
  (linesKept_recWrite ..).trans (linesKept_of_slc (setIrq_slc ..))

theorem linesKept_evrPlace (s : State) (e : Nat) (r : EventRec) : LinesKept s (evrPlace s e r) := by
  unfold evrPlace
  split
  · exact linesKept_ringPlace ..
  · exact linesKept_of_slc rfl

theorem linesKept_routeRing (s : State) (r : EventRec) : LinesKept s (routeRing s r) := by
  have ring : LinesKept s (if bit (lineRoute s r.line) 7 then evrPlace s (bits (lineRoute s r.line) 0 4) r else s) := by
    split
    · exact linesKept_evrPlace ..
    · exact .refl s
  unfold routeRing
  dsimp only
  split
  · exact ring.trans (linesKept_evrPlace ..)
  · exact ring

theorem linesKept_deliver (s : State) (r : EventRec) {put : State → EventRec → State}
    (h : ∀ t, LinesKept t (put t r)) : LinesKept s (deliver s r put) := by
  unfold deliver
  dsimp only
  split
  · exact linesKept_of_slc rfl
  · split
    · exact (linesKept_routeRing s r).trans (h _)
    · exact linesKept_routeRing s r

theorem stampEvent_slc (s : State) (src : Nat) (ctx : Option (Nat × Nat)) (type line a0 a1 : Nat) :
    (stampEvent s src ctx type line a0 a1).2.slc = s.slc := rfl

theorem linesKept_eventBehind (s : State) (src type line a0 a1 : Nat) :
    LinesKept s (eventBehind s src type line a0 a1) := by
  have stamped := stampEvent_slc s src none type line a0 a1
  unfold eventBehind
  split
  · next h =>
    rw [h] at stamped
    exact (linesKept_of_slc stamped).trans (linesKept_deliver _ _ (fun _ => linesKept_of_slc rfl))
  · next h =>
    rw [h] at stamped
    exact linesKept_of_slc stamped

theorem linesKept_clerkPut (s : State) (r : EventRec) : LinesKept s (clerkPut s r) := by
  unfold clerkPut
  dsimp only
  split
  · exact .refl s
  · split
    · exact linesKept_of_slc rfl
    · split
      · exact linesKept_of_slc rfl
      · exact ((linesKept_countRg s _ 1).trans (linesKept_setRgBit _ _ 0 true)).trans (linesKept_eventBehind ..)

theorem linesKept_event (s : State) (src : Nat) (ctx : Option (Nat × Nat)) (type line a0 a1 : Nat) :
    LinesKept s (event s src ctx type line a0 a1) := by
  have stamped := stampEvent_slc s src ctx type line a0 a1
  unfold event
  split
  · next h =>
    rw [h] at stamped
    exact linesKept_of_slc stamped
  · next h =>
    rw [h] at stamped
    exact .trans (linesKept_of_slc stamped) (linesKept_deliver _ _ (fun t => linesKept_clerkPut t _))

/-! ## What an access keeps -/

/-- The program contexts, the flag store with the barriers, and the registers of synchronisation are as they were. -/
structure SyncKept (s t : State) : Prop where
  pctxs : t.work.pctxs = s.work.pctxs
  sync : t.sync = s.sync
  regs : ∀ o, 0x6000 ≤ o → o < 0x7000 → t.rg o = s.rg o

/-- So are the lines of the SLC, their bytes aside. -/
def AccessKept (s t : State) : Prop := SyncKept s t ∧ LinesKept s t

section
variable {s t u : State}

theorem SyncKept.refl (s : State) : SyncKept s s := ⟨rfl, rfl, fun _ _ _ => rfl⟩

theorem SyncKept.trans (h : SyncKept s t) (g : SyncKept t u) : SyncKept s u :=
  ⟨g.pctxs.trans h.pctxs, g.sync.trans h.sync, fun o hlo hhi => (g.regs o hlo hhi).trans (h.regs o hlo hhi)⟩

theorem SyncKept.pctx (h : SyncKept s t) (k : Nat) : t.pctx k = s.pctx k := congrArg (tfind · k) h.pctxs

theorem SyncKept.bar (h : SyncKept s t) (c : Nat) : t.bar c = s.bar c :=
  congrArg (fun y : Sync => tget barReset y.bars c) h.sync

theorem AccessKept.refl (s : State) : AccessKept s s := ⟨.refl s, .refl s⟩

theorem AccessKept.trans (h : AccessKept s t) (g : AccessKept t u) : AccessKept s u := ⟨h.1.trans g.1, h.2.trans g.2⟩

theorem accessKept_of_fields (hp : t.work.pctxs = s.work.pctxs) (hs : t.sync = s.sync) (hr : t.regs = s.regs)
    (hl : t.slc = s.slc) : AccessKept s t :=
  ⟨⟨hp, hs, fun o _ _ => congrArg (fun l => (tget (regReset o) l o).toNat) hr⟩, linesKept_of_slc hl⟩

/-- A write that leaves the SLC as it was. -/
theorem accessKept_of_sansWrite (h : sansWrite t = sansWrite s) (hl : t.slc = s.slc) : AccessKept s t :=
  accessKept_of_fields (congrArg (fun u : State => u.work.pctxs) h :) (congrArg (fun u : State => u.sync) h :)
    (congrArg (fun u : State => u.regs) h :) hl

end

theorem accessKept_setRg (s : State) {o : Nat} (h : 0x7000 ≤ o ∨ o < 0x6000) (v : Nat) : AccessKept s (s.setRg o v) :=
  ⟨⟨rfl, rfl, fun p hlo hhi => rg_setRg_other s o p v (by omega)⟩, linesKept_of_slc rfl⟩

theorem accessKept_setRgBit (s : State) {o : Nat} (h : 0x7000 ≤ o ∨ o < 0x6000) (i : Nat) (b : Bool) :
    AccessKept s (s.setRgBit o i b) :=
  (accessKept_setRg s h _).trans (accessKept_of_fields rfl rfl rfl rfl)

theorem accessKept_countErrs (s : State) {o : Nat} (h : 0x7000 ≤ o ∨ o < 0x6000) (ce ue : Nat) :
    AccessKept s (countErrs s o ce ue) :=
  (accessKept_setRg s h _).trans (accessKept_of_fields rfl rfl rfl rfl)

/-- An event changes no register of synchronisation. -/
theorem eventRegs_above {o : Nat} (h : o ∈ eventRegs) : 0x7000 ≤ o := by
  have : ∀ p ∈ eventRegs, 0x7000 ≤ p := by decide
  exact this o h

theorem accessKept_event (s : State) (src : Nat) (ctx : Option (Nat × Nat)) (type line a0 a1 : Nat) :
    AccessKept s (event s src ctx type line a0 a1) := by
  obtain ⟨regs, sans⟩ := eventFrame_event s src ctx type line a0 a1
  exact ⟨⟨(congrArg (fun u : State => u.work.pctxs) sans :), (congrArg (fun u : State => u.sync) sans :),
    fun o _ hhi => regs o (fun hm => absurd (eventRegs_above hm) (by omega))⟩, linesKept_event ..⟩

theorem accessKept_rasError (s : State) (src : Nat) (ctx : Option (Nat × Nat)) (code addr kind loc words detail : Nat) :
    AccessKept s (rasError s src ctx code addr kind loc words detail) :=
  (accessKept_setRgBit s (.inl (by decide)) 0 true).trans (accessKept_event ..)

theorem accessKept_countEvent (s : State) (ev q n : Nat) : AccessKept s (countEvent s ev q n) :=
  accessKept_of_sansWrite (sansWrite_countEvent ..) (countEvent_slc ..)

theorem accessKept_linkOut (s : State) (p : Nat) (o : Out) : AccessKept s (linkOut s p o) :=
  accessKept_of_sansWrite (sansWrite_linkOut ..) (linkOut_slc ..)

theorem accessKept_bankStore (s : State) (b off : Nat) (data : List WByte) : AccessKept s (bankStore s b off data).1 :=
  accessKept_of_sansWrite (sansWrite_bankStore ..) (bankStore_slc ..)

theorem accessKept_finishHalf (s : State) (b : Nat) : AccessKept s (finishHalf s b) :=
  accessKept_of_sansWrite (sansWrite_finishHalf ..) (finishHalf_slc ..)

/-! ## A request at its domain (R338, R340) -/

theorem accessKept_touch (s : State) (d : Nat) : AccessKept s (touch s d) :=
  accessKept_of_fields (congrArg Work.pctxs (touch_work s d)) (touch_sync s d) (touch_regs s d) (touch_slc s d)

theorem accessKept_setDom (s : State) (d : Nat) (x : Dom) : AccessKept s (s.setDom d x) :=
  accessKept_of_fields rfl rfl rfl rfl

theorem accessKept_wakeRec (s : State) (d kind src : Nat) : AccessKept s (wakeRec s d kind src) := by
  have above : 0x7000 ≤ Reg.pwrWakesrc d := by
    simp only [Reg.pwrWakesrc]
    omega
  have marked : AccessKept s ((s.setRg (Reg.pwrWakesrc d) (kind + src * 2 ^ 16)).setRgBit Reg.pwrCause 0 true) :=
    (accessKept_setRg s (.inl above) _).trans (accessKept_setRgBit _ (.inl (by decide)) 0 true)
  exact marked.trans (accessKept_event ..)

theorem accessKept_wakeOne (s : State) (d kind src least : Nat) : AccessKept s (wakeOne s d kind src least) := by
  unfold wakeOne
  dsimp only
  split
  · exact (accessKept_setDom ..).trans (accessKept_wakeRec ..)
  · exact accessKept_setDom ..
  · exact .refl s

theorem accessKept_wakeDom (s : State) (d kind src : Nat) : AccessKept s (wakeDom s d kind src) := by
  unfold wakeDom
  dsimp only
  split
  · exact .refl s
  · split
    · exact accessKept_wakeOne ..
    · exact (accessKept_wakeOne ..).trans (accessKept_wakeOne ..)

theorem accessKept_reach (s : State) (rq : Rq) (d : Nat) : AccessKept s (reach s rq d) := by
  unfold reach
  split
  · exact accessKept_touch ..
  · exact accessKept_wakeDom ..

theorem accessKept_noteAccess (s : State) (host wr : Bool) (a n : Nat) : AccessKept s (noteAccess s host wr a n) := by
  unfold noteAccess
  split
  · exact .refl s
  · exact accessKept_of_fields rfl rfl rfl rfl

/-! ## Requests that leave the die (R296, R302) -/

theorem accessKept_foldl {α : Type} {f : State → α → State} (h : ∀ s a, AccessKept s (f s a)) (l : List α) (s : State) :
    AccessKept s (l.foldl f s) := by
  induction l generalizing s with
  | nil => exact .refl s
  | cons a l ih => exact (h s a).trans (ih (f s a))

theorem accessKept_farOut (s : State) (rq : Rq) (wr : Bool) (a : Nat) (d : Granule × Enables) :
    AccessKept s (farOut s rq wr a d) :=
  accessKept_foldl (fun _ _ => accessKept_linkOut ..) _ s

theorem accessKept_extOut (s : State) (rq : Rq) (wr : Bool) (a n : Nat) (d : Granule × Enables) :
    AccessKept s (extOut s rq wr a n d) := by
  unfold extOut
  dsimp only
  split
  · exact (accessKept_farOut ..).trans (accessKept_countEvent ..)
  · split
    · exact accessKept_linkOut ..
    · exact .trans (accessKept_linkOut ..) (accessKept_countEvent ..)

theorem accessKept_extWrite (s : State) (a : Nat) (data : List WByte) : AccessKept s (extWrite s a data).1 := by
  unfold extWrite
  dsimp only
  split
  · exact accessKept_of_fields rfl rfl rfl rfl
  · split
    · exact .refl s
    · exact accessKept_of_fields rfl rfl rfl rfl

/-! ## Banks and stacks (R61, R307, R308, R323) -/

theorem accessKept_exitRetention (s : State) (b : Nat) : AccessKept s (exitRetention s b) := by
  unfold exitRetention
  split
  · exact accessKept_setRg s (.inl (by simp only [Reg.pwrBank]; omega)) _
  · exact .refl s

theorem accessKept_bankWrite (s : State) (space b off : Nat) (data : List WByte) :
    AccessKept s (bankWrite s space b off data).1 := by
  have store := accessKept_bankStore s b off data
  unfold bankWrite
  dsimp only
  split
  · exact .refl s
  · split
    · split
      · next h => rwa [h] at store
      · next h => rwa [h] at store
    · split
      · exact .refl s
      · split
        · exact .refl s
        · exact accessKept_bankStore ..

theorem accessKept_countBankErr (s : State) (p ce ue : Nat) : AccessKept s (countBankErr s p ce ue) :=
  accessKept_countErrs s (.inl (by simp only [Reg.bankErrcnt]; omega)) ce ue

theorem accessKept_setRas (s : State) (x : Ras) : AccessKept s { s with ras := x } :=
  accessKept_of_fields rfl rfl rfl rfl

theorem accessKept_ceRoll (s : State) : AccessKept s (ceRoll s) := by
  unfold ceRoll
  dsimp only
  split
  · exact .refl s
  · exact accessKept_of_fields rfl rfl rfl rfl

theorem accessKept_takeCe (s : State) (src : Nat) (ctx : Option (Nat × Nat)) (p a n : Nat) :
    AccessKept s (takeCe s src ctx p a n) := by
  unfold takeCe
  dsimp only
  have counted : AccessKept s (countBankErr (ceRoll s) p n 0) := (accessKept_ceRoll s).trans (accessKept_countBankErr ..)
  split
  · exact .refl s
  · split
    · exact counted.trans ((accessKept_setRas ..).trans (accessKept_rasError ..))
    · exact counted.trans (accessKept_setRas ..)

theorem accessKept_takeNow (s : State) (k : Took) : AccessKept s (takeNow s k) := by
  have corrected : AccessKept s (if k.kind = 1 then takeCe s k.src k.ctx k.loc k.addr k.ce else s) := by
    split
    · exact accessKept_takeCe ..
    · exact .refl s
  unfold takeNow
  dsimp only
  split
  · exact corrected
  · refine corrected.trans (.trans ?_ (accessKept_rasError ..))
    split
    · exact accessKept_countBankErr ..
    · exact .refl _

theorem accessKept_takeRead (s : State) (k : Took) : AccessKept s (takeRead s k) := by
  unfold takeRead
  split
  · exact accessKept_takeNow ..
  · split
    · exact .refl s
    · exact accessKept_of_fields rfl rfl rfl rfl

theorem accessKept_takeBank (s : State) (rq : Rq) (b off : Nat) (r : BankAns) : AccessKept s (takeBank s rq b off r) :=
  accessKept_takeRead ..

theorem accessKept_stackWrite (s : State) (o : Nat) (data : List WByte) : AccessKept s (stackWrite s o data) := by
  unfold stackWrite
  dsimp only
  split
  · split <;> exact accessKept_of_fields rfl rfl rfl rfl
  · exact accessKept_of_fields rfl rfl rfl rfl

/-! ## A write past the SLC and its records -/

theorem accessKept_memWrite (s : State) (rq : Rq) (a : Nat) (data : List WByte) :
    AccessKept s (memWrite s rq a data).1 := by
  have reached : ∀ d, AccessKept s (reach (noteAccess s false true a data.length) rq d) := fun d =>
    (accessKept_noteAccess ..).trans (accessKept_reach ..)
  unfold memWrite
  dsimp only
  split
  · exact .refl s
  · split
    · exact (reached _).trans ((accessKept_extOut ..).trans (accessKept_extWrite ..))
    · split
      · split
        · exact (reached _).trans ((accessKept_countEvent ..).trans (accessKept_stackWrite ..))
        · exact .refl s
      · exact (reached _).trans ((accessKept_exitRetention ..).trans ((accessKept_countEvent ..).trans
          ((accessKept_finishHalf ..).trans ((accessKept_bankWrite ..).trans (accessKept_takeBank ..)))))

theorem accessKept_ledgerSrc (s : State) (src type : Nat) (ctx : Option (Nat × Nat)) (a0 a1 : Nat) :
    AccessKept s (ledgerSrc s src type ctx a0 a1) := by
  have sans := sansLedger_ledgerSrc s src type ctx a0 a1
  have regs := regsBut_ledgerSrc (l := [Reg.evlLost]) (by simp) (regsBut_refl _ s) src type ctx a0 a1
  exact ⟨⟨(congrArg (fun u : State => u.work.pctxs) sans :), (congrArg (fun u : State => u.sync) sans :),
    fun o hlo _ => regs o (by simp [Reg.evlLost]; omega)⟩, linesKept_of_slc (congrArg (fun u : State => u.slc) sans :)⟩

theorem accessKept_rangeRecs (s : State) (src : Nat) (ctx : Option (Nat × Nat)) (a n : Nat) :
    AccessKept s (rangeRecs s src ctx a n) := by
  refine accessKept_foldl (fun t i => ?_) _ s
  dsimp only
  split
  · exact accessKept_ledgerSrc ..
  · exact .refl t

theorem accessKept_runRecs (s : State) (rq : Rq) (l : List Nat) : AccessKept s (runRecs s rq l) :=
  accessKept_foldl (fun _ _ => accessKept_rangeRecs ..) _ s

/-! ## Cleaning (R235) -/

/-- The state after the write-back of a dirty line and its records. -/
def lineWritten (s : State) (k : Nat) (l : Line) : State :=
  runRecs (memWrite s (slcRq s) (k * 128) (granuleWBytes l.data (BitVec.allOnes 128))).1 (slcRq s) [k * 128]

/-- The state with a line put as clean and out of every port's dirty record. -/
def markClean (s : State) (k : Nat) (l : Line) : State :=
  { s.setLine k { l with dirty := false } with
    slc := { (s.setLine k { l with dirty := false }).slc with dirty := s.slc.dirty.map (fun d => (d.1, delMem k d.2)) } }

theorem accessKept_lineWritten (s : State) (k : Nat) (l : Line) : AccessKept s (lineWritten s k l) :=
  (accessKept_memWrite ..).trans (accessKept_runRecs ..)

theorem cleanLine_dirty {s : State} {k : Nat} {l : Line} (h : s.line k = some l) (hd : l.dirty = true) :
    cleanLine s k = markClean (lineWritten s k l) k l := by
  unfold cleanLine
  rw [h]
  exact if_pos hd

theorem cleanLine_clean {s : State} {k : Nat} {l : Line} (h : s.line k = some l) (hd : l.dirty = false) :
    cleanLine s k = s := by
  unfold cleanLine
  rw [h]
  exact if_neg (by simp [hd])

theorem cleanLine_none {s : State} {k : Nat} (h : s.line k = none) : cleanLine s k = s := by
  unfold cleanLine
  rw [h]

theorem syncKept_markClean (s : State) (k : Nat) (l : Line) : SyncKept s (markClean s k l) := ⟨rfl, rfl, fun _ _ _ => rfl⟩

theorem syncKept_cleanLine (s : State) (k : Nat) : SyncKept s (cleanLine s k) := by
  cases h : s.line k with
  | none => rw [cleanLine_none h]; exact .refl s
  | some l =>
    cases hd : l.dirty with
    | false => rw [cleanLine_clean h hd]; exact .refl s
    | true =>
      rw [cleanLine_dirty h hd]
      exact (accessKept_lineWritten s k l).1.trans (syncKept_markClean ..)

theorem syncKept_cleanLines (ks : List Nat) (s : State) : SyncKept s (ks.foldl cleanLine s) := by
  induction ks generalizing s with
  | nil => exact .refl s
  | cons k ks ih => exact (syncKept_cleanLine s k).trans (ih (cleanLine s k))

theorem syncKept_releaseClean (s : State) (src scope : Nat) : SyncKept s (releaseClean s src scope) := by
  unfold releaseClean
  split
  · exact .refl s
  · exact syncKept_cleanLines ..

end Sys2Proof.Machine


/-! SUPPORT. Sweeps of the SLC, DIGEST_READ and the start of RELAY (R140, R203, R204, R378): what a sweep leaves of the
lines, and the ends of these commands. -/

namespace Sys2Proof.Machine

/-! ## FLUSH: every line of a list clean (R140) -/

/-- The same granules have lines; those of a list are clean, the others as dirty as before. -/
structure LinesCleaned (ks : List Nat) (s t : State) : Prop where
  lines : tsorted s.slc.lines = true →
    t.slc.lines.map (·.1) = s.slc.lines.map (·.1) ∧
      ∀ j, dirtyAt t j = if j ∈ ks then (dirtyAt s j).map (fun _ => false) else dirtyAt s j

theorem linesCleaned_markClean {s : State} {k : Nat} {m : Line} (h : s.line k = some m) (l : Line) :
    LinesCleaned [k] s (markClean s k l) := by
  refine ⟨fun hs => ⟨keys_tput hs h { l with dirty := false }, fun j => ?_⟩⟩
  have line : (markClean s k l).line j = tfind (tput s.slc.lines k { l with dirty := false }) j := rfl
  by_cases hj : j = k
  · rw [hj, tfind_tput_same] at line
    rw [hj, if_pos (by simp), dirtyAt, dirtyAt, line, h]
    rfl
  · rw [tfind_tput_other _ _ _ _ hj] at line
    rw [if_neg (by simpa using hj)]
    exact congrArg (Option.map (·.dirty)) line

theorem LinesCleaned.of_kept {ks : List Nat} {s t u : State} (h : LinesKept s t) (g : LinesCleaned ks t u) :
    LinesCleaned ks s u := by
  refine ⟨fun hs => ?_⟩
  obtain ⟨keys, dirty⟩ := h.lines hs
  obtain ⟨keys', dirty'⟩ := g.lines (h.sorted hs)
  exact ⟨keys'.trans keys, fun j => by rw [dirty', dirty]⟩

/-- A line that is not dirty needs no clean. -/
theorem linesCleaned_refl {s : State} {k : Nat} (h : dirtyAt s k ≠ some true) : LinesCleaned [k] s s := by
  refine ⟨fun _ => ⟨rfl, fun j => ?_⟩⟩
  split
  · next hj =>
    obtain rfl := List.mem_singleton.mp hj
    cases hd : dirtyAt s j with
    | none => rfl
    | some d =>
      cases d with
      | false => rfl
      | true => exact absurd hd h
  · rfl

theorem linesCleaned_cleanLine (s : State) (k : Nat) : LinesCleaned [k] s (cleanLine s k) := by
  cases h : s.line k with
  | none =>
    rw [cleanLine_none h]
    exact linesCleaned_refl (by simp [dirtyAt, h])
  | some l =>
    cases hd : l.dirty with
    | false =>
      rw [cleanLine_clean h hd]
      exact linesCleaned_refl (by simp [dirtyAt, h, hd])
    | true =>
      rw [cleanLine_dirty h hd]
      have kept := (accessKept_lineWritten s k l).2
      refine ⟨fun hs => ?_⟩
      have still : dirtyAt (lineWritten s k l) k = some true := by rw [(kept.lines hs).2, dirtyAt, h, ← hd]; rfl
      obtain ⟨m, hm, -⟩ := Option.map_eq_some_iff.mp still
      exact (LinesCleaned.of_kept kept (linesCleaned_markClean hm l)).lines hs

theorem LinesCleaned.cons {k : Nat} {ks : List Nat} {s t u : State} (h : LinesCleaned [k] s t) (g : LinesCleaned ks t u) :
    LinesCleaned (k :: ks) s u := by
  refine ⟨fun hs => ?_⟩
  obtain ⟨keys, dirty⟩ := h.lines hs
  have sorted : tsorted t.slc.lines = true := by
    rw [tsorted_iff_keys, keys]
    exact (tsorted_iff_keys _).mp hs
  obtain ⟨keys', dirty'⟩ := g.lines sorted
  refine ⟨keys'.trans keys, fun j => ?_⟩
  rw [dirty', dirty]
  by_cases hj : j = k <;> by_cases hm : j ∈ ks <;> simp [hj, hm]

theorem linesCleaned_cleanLines (ks : List Nat) (s : State) : LinesCleaned ks s (ks.foldl cleanLine s) := by
  induction ks generalizing s with
  | nil => exact ⟨fun _ => ⟨rfl, fun j => (if_neg (List.not_mem_nil)).symm⟩⟩
  | cons k ks ih => exact (linesCleaned_cleanLine s k).cons (ih (cleanLine s k))

/-- A sweep of every line that cleans leaves no dirty one. -/
theorem clean_of_linesCleaned {s t : State} (hs : tsorted s.slc.lines = true)
    (h : LinesCleaned (s.slc.lines.map (·.1)) s t) : ∀ l ∈ t.slc.lines, l.2.dirty = false := by
  intro l hl
  obtain ⟨keys, dirty⟩ := h.lines hs
  have sorted : tsorted t.slc.lines = true := by
    rw [tsorted_iff_keys, keys]
    exact (tsorted_iff_keys _).mp hs
  have hk : l.1 ∈ s.slc.lines.map (·.1) := keys ▸ List.mem_map_of_mem hl
  have now := dirty l.1
  rw [if_pos hk, dirtyAt, State.line, tfind_of_mem sorted hl] at now
  cases h : dirtyAt s l.1 with
  | none => rw [h] at now; cases now
  | some d => rw [h] at now; exact Option.some.inj now

/-! ## INVALIDATE with no dirty line (R140) -/

/-- A sweep that drops lines of which none is dirty changes the SLC alone. -/
theorem slcSweep_drop {s : State} (h : ∀ l ∈ s.slc.lines, l.2.dirty = false) (ks : List Nat) :
    ∃ c, slcSweep s ks true = { s with slc := c } ∧ c.lines = s.slc.lines.filter (fun e => decide (e.1 ∉ ks)) := by
  induction ks generalizing s with
  | nil => exact ⟨s.slc, rfl, by simp⟩
  | cons k ks ih =>
    have clean : cleanLine s k = s := by
      cases hl : s.line k with
      | none => exact cleanLine_none hl
      | some l => exact cleanLine_clean hl (h _ (mem_of_tfind hl))
    have lines : (s.dropLine k).slc.lines = s.slc.lines.filter (fun e => e.1 != k) := terase_eq_filter ..
    have left : ∀ l ∈ (s.dropLine k).slc.lines, l.2.dirty = false := by
      intro l hl
      rw [lines] at hl
      exact h l (List.mem_filter.mp hl).1
    obtain ⟨c, hc, hlines⟩ := ih left
    refine ⟨c, ?_, ?_⟩
    · calc slcSweep s (k :: ks) true = slcSweep ((cleanLine s k).dropLine k) ks true := rfl
        _ = slcSweep (s.dropLine k) ks true := by rw [clean]
        _ = { s with slc := c } := hc
    · rw [hlines, lines, List.filter_filter]
      refine List.filter_congr fun e _ => ?_
      by_cases hk : e.1 = k <;> simp [hk]

/-! ## The effects -/

theorem pctx_of_begins {s u : State} {r op k : Nat} {p : Desc → Bool} {x : PCtx} (h : Begins s r op p k x u) :
    u.pctx k = some x := by
  obtain ⟨-, -, v, -, -, -, -, -, rfl⟩ := h
  exact pctx_set_same v k x

section
variable {s : State} {k : Nat} {x : PCtx}

theorem sweepEff_noBanks (drop : Bool) (h : slcBanks s = 0) : sweepEff drop s k x = pctxDone s k .ok := if_pos h

theorem sweepEff_all (drop : Bool) (h : slcBanks s ≠ 0) (hall : bit (dAux0 x.desc) 0 = true) :
    sweepEff drop s k x = pctxDone (slcSweep s (s.slc.lines.map (·.1)) drop) k .ok :=
  (if_neg h).trans (if_pos hall)

theorem sweepEff_range {drop : Bool} {w : State} {e : Option XErr} (h : slcBanks s ≠ 0)
    (hrange : bit (dAux0 x.desc) 0 = false)
    (hrun : sweepSpan (pctxVia s k x) drop (dLen x.desc / 128 + 2) (dSrc x.desc) (dLen x.desc) s = (w, e)) :
    sweepEff drop s k x = cmdEnd w k x e := by
  unfold sweepEff
  rw [if_neg h, if_neg (by simp [hrange]), hrun]

theorem digestReadEff_ends {y : State} {n : Nat}
    (h : writeSpan (if bit (dAux0 x.desc) 3 then digestClear s (k / 8) (bits (dAux0 x.desc) 0 3) else s) (pctxVia s k x)
      false none (dDst x.desc) (allOn (digestRecord s (k / 8) (bits (dAux0 x.desc) 0 3))) = (y, none, n)) :
    digestReadEff s k x = pctxDone y k .ok := by
  unfold digestReadEff
  dsimp only
  rw [h]
  rfl

theorem digestRecord_length (s : State) (m d : Nat) : (digestRecord s m d).length = 64 := by
  simp [digestRecord, dwBytes, toBytes]

theorem digestClear_count (s : State) (m d : Nat) : ((digestClear s m d).digest m d).count = 0 :=
  congrArg Digest.count (tget_tset_same ..)

section
variable {v : State} {b : List Byte} (ha : dAux2 x.desc % 8 = 0)
  (h : readSpan s (pctxVia s k x) false (dAux2 x.desc) (16 + 8 * bits (dAux0 x.desc) 0 10) = (v, none, b))
include ha h

theorem relayEff_passes (hok : chainCheck v (relayOf x.desc b) = .ok) :
    relayEff s k x = if (relayOf x.desc b).len = 0 then pctxDone v k .ok
      else v.setPctx k { x with relay := some (relayOf x.desc b) } := by
  unfold relayEff
  simp only [ha, h, hok, ne_eq, not_true_eq_false, if_false]

theorem relayEff_gap (hgap : chainCheck v (relayOf x.desc b) = .chainGap) :
    relayEff s k x = cmdFault v k x (bareErr .chainGap) := by
  unfold relayEff
  simp only [ha, h, hgap, ne_eq, not_true_eq_false, if_false]

end

theorem relayOf_len (d : Desc) (b : List Byte) : (relayOf d b).len = dLen d := rfl

theorem chainCheck_empty {y : Relay} (h : y.len = 0) : chainCheck s y = .ok := if_pos h

theorem chainCheck_gap {y : Relay} (hlen : 0 < y.len) (h : ∃ e ∈ y.links, ¬ e.1 ∈ s.build.dies) :
    chainCheck s y = .chainGap := by
  obtain ⟨e, he, hd⟩ := h
  have gap : y.links.any (fun e => !(decide (e.1 ∈ s.build.dies))) = true :=
    List.any_eq_true.mpr ⟨e, he, by simpa using hd⟩
  unfold chainCheck
  rw [if_neg (by omega), if_pos gap]

end

section
variable {s u : State} {r k : Nat} {x : PCtx} (hl : Live s dFAB)
include hl

theorem exec_invalidate (h : Begins s r 0x10 anyDesc k x u) : exec (.invalidate r) s = .next (sweepEff true u k x) :=
  gateIn_begins hl h (sweepEff true)

theorem exec_flush (h : Begins s r 0x11 anyDesc k x u) : exec (.flush r) s = .next (sweepEff false u k x) :=
  gateIn_begins hl h (sweepEff false)

theorem exec_digestRead (h : Begins s r 0x12 anyDesc k x u) :
    exec (.digestRead r) s = .next (issueCmd digestReadEff u k x) :=
  gateIn_begins hl h (issueCmd digestReadEff)

theorem exec_relay (h : Begins s r 0x05 anyDesc k x u) : exec (.relay r) s = .next (issueCmd relayEff u k x) :=
  gateIn_begins hl h (issueCmd relayEff)

end

theorem pctxDone_slc (s : State) (k : Nat) (st : Status) : (pctxDone s k st).slc = s.slc := by
  cases h : s.pctx k with
  | none => rw [pctxDone_none h]
  | some x =>
    obtain ⟨l, e⟩ := pctxDone_some h st
    rw [e]
    rfl

/-- Settles O33: each row by the end of its effect. -/
theorem sweepCommands : Obligations.SweepCommands := by
  unfold Obligations.SweepCommands
  refine ⟨?noBanks, ?invalidate, ?flush, ?range, ?digest, ?relay⟩
  case noBanks =>
    intro s r k x u hl hbanks hst
    refine ⟨fun hb => ⟨_, exec_invalidate hl hb, ?_⟩, fun hb => ⟨_, exec_flush hl hb, ?_⟩⟩
    all_goals
      rw [sweepEff_noBanks _ hbanks]
      exact ⟨doneOk_pctxDone (pctx_of_begins hb) hst, sameMem_pctxDone u k .ok⟩
  case invalidate =>
    intro s r k x u hl hb hbanks hall hst hclean
    obtain ⟨c, hc, hlines⟩ := slcSweep_drop hclean (u.slc.lines.map (·.1))
    have none_left : c.lines = [] := by
      rw [hlines, List.filter_eq_nil_iff]
      intro e he
      simp [List.mem_map_of_mem he]
    have mem : SameMem u { u with slc := c } := fun _ => ⟨rfl, rfl, rfl, rfl⟩
    have runs : State.pctx { u with slc := c } k = some x := (pctx_of_begins hb :)
    refine ⟨_, exec_invalidate hl hb, ?_⟩
    rw [sweepEff_all _ hbanks hall, hc, pctxDone_slc]
    exact ⟨doneOk_pctxDone runs hst, none_left,
      mem.trans (sameMem_pctxDone _ k .ok)⟩
  case flush =>
    intro s r k x u hl hb hbanks hall hst hs
    have sweep := linesCleaned_cleanLines (u.slc.lines.map (·.1)) u
    have kept := syncKept_cleanLines (u.slc.lines.map (·.1)) u
    refine ⟨_, exec_flush hl hb, ?_⟩
    rw [sweepEff_all _ hbanks hall, pctxDone_slc]
    exact ⟨doneOk_pctxDone ((kept.pctx k).trans (pctx_of_begins hb)) hst, clean_of_linesCleaned hs sweep,
      (sweep.lines hs).1⟩
  case range =>
    intro s r k x u w e hl hbanks hrange
    refine ⟨fun hb hrun => ?_, fun hb hrun => ?_⟩
    · rw [exec_invalidate hl hb, sweepEff_range hbanks hrange hrun]
    · rw [exec_flush hl hb, sweepEff_range hbanks hrange hrun]
  case digest =>
    intro s r k n x u w v y hl hb hi hv hrun
    subst hv
    have e : digestReadEff w k x.waitless = pctxDone y k .ok := digestReadEff_ends (x := x.waitless) hrun
    refine ⟨by rw [exec_digestRead hl hb, issueCmd_issues hi, e], fun z hz hst => doneOk_pctxDone hz hst,
      digestRecord_length .., fun hclear => ?_⟩
    rw [if_pos hclear]
    exact digestClear_count ..
  case relay =>
    intro s r k x u w v b hl hb hi ha hread
    rw [exec_relay hl hb, issueCmd_issues hi]
    refine ⟨fun hlen => ?_, fun hlen hok => ?_, fun hlen hgap => ?_⟩
    · rw [relayEff_passes (x := x.waitless) ha hread (chainCheck_empty hlen), relayOf_len]
      exact congrArg _ (if_pos hlen)
    · rw [relayEff_passes (x := x.waitless) ha hread hok, relayOf_len]
      exact congrArg _ (if_neg (Nat.pos_iff_ne_zero.mp hlen))
    · have gap : chainCheck v (relayOf x.desc b) = .chainGap := chainCheck_gap hlen hgap
      rw [relayEff_gap (x := x.waitless) ha hread gap]
      exact ⟨gap, rfl⟩

end Sys2Proof.Machine


/-! SUPPORT. SIGNAL, WAIT, FENCE, BARRIER, STAMP and STREAM (R141, R158, R239, R248, R257 to R270): what the records of a
sync event leave as it was, flag operations that meet no waiter, a flag write that leaves the die, and the ends of these
commands. -/

namespace Sys2Proof.Machine

/-! ## Records of a sync event (R259, R373) -/

/-- The state without what counts and records touch: registers, what the hardware drove in them, the event ledger, counters
and the trace buffer. -/
def sansRecs (s : State) : State :=
  { s with regs := [], hw := State.reset.hw, evl := State.reset.evl, obs := State.reset.obs }

section
variable {s t : State}

theorem sansRecs_work (h : sansRecs t = sansRecs s) : t.work = s.work := (congrArg (fun u : State => u.work) h :)

theorem sansRecs_sync (h : sansRecs t = sansRecs s) : t.sync = s.sync := (congrArg (fun u : State => u.sync) h :)

theorem sansRecs_pctx (h : sansRecs t = sansRecs s) (k : Nat) : t.pctx k = s.pctx k :=
  congrArg (fun w : Work => tfind w.pctxs k) (sansRecs_work h)

theorem sansRecs_flag (h : sansRecs t = sansRecs s) (p : Nat) : t.flag p = s.flag p :=
  congrArg (fun y : Sync => tget flagReset y.flags p) (sansRecs_sync h)

theorem sansRecs_bar (h : sansRecs t = sansRecs s) (c : Nat) : t.bar c = s.bar c :=
  congrArg (fun y : Sync => tget barReset y.bars c) (sansRecs_sync h)

theorem sameMem_of_sansRecs (h : sansRecs t = sansRecs s) : SameMem s t := by
  have bank : t.bankMem = s.bankMem := (congrArg (fun u : State => u.bankMem) h :)
  have stack : t.stackMem = s.stackMem := (congrArg (fun u : State => u.stackMem) h :)
  have ext : t.extMem = s.extMem := (congrArg (fun u : State => u.extMem) h :)
  have clerk : t.clerkMem = s.clerkMem := (congrArg (fun u : State => u.clerkMem) h :)
  intro a
  rw [bank, stack, ext, clerk]
  exact ⟨rfl, rfl, rfl, rfl⟩

theorem sansRecs_of_sansLedger (h : sansLedger t = sansLedger s) : sansRecs t = sansRecs s :=
  congrArg (fun u : State => { u with obs := State.reset.obs }) h

end

theorem sansRecs_ledgerSrc (s : State) (src type : Nat) (ctx : Option (Nat × Nat)) (a0 a1 : Nat) :
    sansRecs (ledgerSrc s src type ctx a0 a1) = sansRecs s := sansRecs_of_sansLedger (sansLedger_ledgerSrc ..)

theorem sansRecs_countEvent (s : State) (ev q n : Nat) : sansRecs (countEvent s ev q n) = sansRecs s := by
  unfold countEvent
  split <;> rfl

theorem sansRecs_takeSeq (s : State) (src : Nat) : sansRecs (takeSeq s src).2.2 = sansRecs s := rfl

theorem sansRecs_traceDrop (s : State) : sansRecs (traceDrop s) = sansRecs s := rfl

theorem sansRecs_tracePush (s : State) (r : TraceRec) : sansRecs (tracePush s r) = sansRecs s := by
  have taken := sansRecs_takeSeq s s.srcClerk
  unfold tracePush
  dsimp only
  split
  · rfl
  · split
    · split
      · next e => rw [e] at taken; exact (sansRecs_traceDrop _).trans taken
      · next e => rw [e] at taken; exact taken
    · rfl

theorem sansRecs_traceEv (s : State) (src op other obj : Nat) : sansRecs (traceEv s src op other obj) = sansRecs s := by
  have taken := sansRecs_takeSeq s src
  unfold traceEv
  generalize (if src / 256 = s.pwr.dieId then unitNode (src % 256) else 32) = node
  dsimp only
  split
  · split
    · exact (sansRecs_tracePush ..).trans taken
    · exact (sansRecs_traceDrop _).trans taken
  · rfl

theorem sansRecs_syncRec (s : State) (src : Nat) (ctx : Option (Nat × Nat)) (obj op last : Nat) :
    sansRecs (syncRec s src ctx obj op last) = sansRecs s := by
  refine (sansRecs_traceEv ..).trans ?_
  split
  · exact sansRecs_ledgerSrc ..
  · rfl

/-! ## Flag operations that meet no waiter (R257, R258, R309) -/

/-- Evaluation after a flag operation with no waiter at the flag. -/
theorem flagEval_noWaiters {s : State} {p : Nat} (h : ∀ w ∈ s.sync.waiters, w.flag ≠ p) : flagEval s p = s := by
  have nobody : ∀ m, s.sync.waiters.filter (fun w => w.flag == p && w.mode == m) = [] := fun m =>
    List.filter_eq_nil_iff.mpr (fun w hw => by simp [h w hw])
  unfold flagEval
  simp only [nobody, List.foldl_nil, firstRanked]
  split <;> simp [nobody]

theorem sameMem_tableWrite (s : State) (k : Tab) (e : Nat) : SameMem s (tableWrite s k e) := fun _ => ⟨rfl, rfl, rfl, rfl⟩

theorem flagPut_waiters (s : State) (p : Nat) (v : Bool) (src : Nat) :
    (flagPut s p v src).sync.waiters = s.sync.waiters := by
  unfold flagPut
  dsimp only
  split <;> rfl

/-- A flag's change commutes with leaving out what records touch. -/
theorem sansRecs_flagPut (s : State) (p : Nat) (v : Bool) (src : Nat) :
    sansRecs (flagPut s p v src) = flagPut (sansRecs s) p v src := by
  have same : (sansRecs s).flag p = s.flag p := rfl
  unfold flagPut
  dsimp only
  rw [same]
  split <;> rfl

theorem flag_flagPut_same (s : State) (p : Nat) (v : Bool) (src : Nat) : ((flagPut s p v src).flag p).value = v := by
  unfold flagPut
  dsimp only
  split
  · assumption
  · exact congrArg Flag.value (tget_tset_same ..)

theorem flag_flagPut_other (s : State) {p g : Nat} (h : g ≠ p) (v : Bool) (src : Nat) :
    (flagPut s p v src).flag g = s.flag g := by
  unfold flagPut
  dsimp only
  split
  · rfl
  · exact tget_tset_other _ _ _ _ _ _ h

theorem flagPut_work (s : State) (p : Nat) (v : Bool) (src : Nat) : (flagPut s p v src).work = s.work := by
  unfold flagPut
  dsimp only
  split <;> rfl

theorem sameMem_flagPut (s : State) (p : Nat) (v : Bool) (src : Nat) : SameMem s (flagPut s p v src) := by
  unfold flagPut
  dsimp only
  split <;> exact fun _ => ⟨rfl, rfl, rfl, rfl⟩

/-- The read of a flag's word that does not fail is counted at most. -/
theorem sansRecs_flagRead {s : State} {p : Nat} (h : flagSt s p = .ok) (src : Nat) (ctx : Option (Nat × Nat)) :
    sansRecs (flagRead s p src ctx) = sansRecs s := by
  have good : tfind s.tableMark (Tab.key .flag p) ≠ some .ue := by
    intro bad
    simp [flagSt, tableBad, bad] at h
  unfold flagRead tableReads
  split
  · rfl
  · rfl
  · next bad => exact absurd bad good

/-- A flag operation that meets no waiter, records aside. -/
theorem sansRecs_flagOp {s : State} {p : Nat} (h : flagSt s p = .ok) (hw : ∀ w ∈ s.sync.waiters, w.flag ≠ p) (v : Bool)
    (src : Nat) (ctx : Option (Nat × Nat)) :
    sansRecs (flagOp s p v src ctx) = sansRecs (flagPut (tableWrite s .flag p) p v src) := by
  have read : sansRecs (tableWrite (flagRead s p src ctx) .flag p) = sansRecs (tableWrite s .flag p) :=
    congrArg (fun u : State => tableWrite u .flag p) (sansRecs_flagRead h src ctx)
  have put : sansRecs (flagPut (tableWrite (flagRead s p src ctx) .flag p) p v src) =
      sansRecs (flagPut (tableWrite s .flag p) p v src) := by
    rw [sansRecs_flagPut, read, sansRecs_flagPut]
  unfold flagOp
  dsimp only
  rw [if_neg (by simp [h])]
  generalize (if (s.flag p).value = v then _ else _ : Nat) = last
  have recs := (sansRecs_syncRec (countEvent (flagPut (tableWrite (flagRead s p src ctx) .flag p) p v src) 0x14
    (if v then 0 else 1) 1) src ctx p (if v then 0 else 1) last).trans ((sansRecs_countEvent ..).trans put)
  have waiters := (congrArg Sync.waiters (sansRecs_sync recs)).trans (flagPut_waiters (tableWrite s .flag p) p v src)
  rw [flagEval_noWaiters (by rw [waiters]; exact hw), recs]

/-- The state after a wait that holds, records aside: under mode 2 it consumes its flag (R258). -/
def flagTaken (s : State) (p mode src : Nat) : State := if mode = 2 then flagPut s p false src else s

theorem flagTaken_waiters (s : State) (p mode src : Nat) : (flagTaken s p mode src).sync.waiters = s.sync.waiters := by
  unfold flagTaken
  split
  · exact flagPut_waiters ..
  · rfl

theorem flagTaken_work (s : State) (p mode src : Nat) : (flagTaken s p mode src).work = s.work := by
  unfold flagTaken
  split
  · exact flagPut_work ..
  · rfl

theorem sameMem_flagTaken (s : State) (p mode src : Nat) : SameMem s (flagTaken s p mode src) := by
  unfold flagTaken
  split
  · exact sameMem_flagPut _ _ _ _
  · exact fun _ => ⟨rfl, rfl, rfl, rfl⟩

theorem flag_flagTaken_same (s : State) (p mode src : Nat) :
    ((flagTaken s p mode src).flag p).value = if mode = 2 then false else (s.flag p).value := by
  unfold flagTaken
  split
  · exact flag_flagPut_same ..
  · rfl

theorem flag_flagTaken_other (s : State) {p g : Nat} (h : g ≠ p) (mode src : Nat) :
    (flagTaken s p mode src).flag g = s.flag g := by
  unfold flagTaken
  split
  · exact flag_flagPut_other s h ..
  · rfl


theorem sansRecs_waitNow {s : State} {p mode : Nat} (hw : mode = 2 → ∀ w ∈ s.sync.waiters, w.flag ≠ p) (src : Nat)
    (ctx : Option (Nat × Nat)) :
    sansRecs (waitNow s p mode src ctx) = sansRecs (flagTaken s p mode src) := by
  have recs : sansRecs (syncRec (countEvent s 0x14 (2 + mode) 1) src ctx p (2 + mode) (s.flag p).last) = sansRecs s :=
    (sansRecs_syncRec ..).trans (sansRecs_countEvent ..)
  unfold waitNow flagTaken
  dsimp only
  split
  · next hm =>
    have put := (sansRecs_flagPut _ p false src).trans
      ((congrArg (fun u => flagPut u p false src) recs).trans (sansRecs_flagPut s p false src).symm)
    have waiters := (congrArg Sync.waiters (sansRecs_sync put)).trans (flagPut_waiters s p false src)
    rw [flagEval_noWaiters (by rw [waiters]; exact hw hm), put]
  · exact recs

/-! ## The effects on this die -/

theorem pctxDone_sync (s : State) (k : Nat) (st : Status) : (pctxDone s k st).sync = s.sync := by
  cases h : s.pctx k with
  | none => rw [pctxDone_none h]
  | some x =>
    obtain ⟨l, e⟩ := pctxDone_some h st
    rw [e]
    rfl

theorem pctxDone_evl (s : State) (k : Nat) (st : Status) : (pctxDone s k st).evl = s.evl := by
  cases h : s.pctx k with
  | none => rw [pctxDone_none h]
  | some x =>
    obtain ⟨l, e⟩ := pctxDone_some h st
    rw [e]
    rfl

theorem pctxDone_flag (s : State) (k : Nat) (st : Status) (f : Nat) : (pctxDone s k st).flag f = s.flag f :=
  congrArg (fun y : Sync => tget flagReset y.flags f) (pctxDone_sync s k st)

/-- A command that is done after an effect which keeps the program contexts and the memories, records aside. -/
theorem done_of_sansRecs {u v w : State} {k : Nat} {x : PCtx} (hv : sansRecs v = sansRecs w) (hw : w.work = u.work)
    (hmem : SameMem u w) (hx : u.pctx k = some x) (hst : x.status = none) :
    DoneOk (pctxDone v k .ok) k ∧ SameMem u (pctxDone v k .ok) := by
  have pctx : v.pctx k = some x :=
    (sansRecs_pctx hv k).trans ((congrArg (fun y : Work => tfind y.pctxs k) hw).trans hx)
  exact ⟨doneOk_pctxDone pctx hst, hmem.trans ((sameMem_of_sansRecs hv).trans (sameMem_pctxDone v k .ok))⟩

section
variable {s : State} {k f : Nat} {x : PCtx}

theorem signalEff_here (hf : dFlag s x.desc (bits (dAux0 x.desc) 0 14) = some f)
    (hhere : bit (dAux0 x.desc) 20 = false ∨ bits (dAux0 x.desc) 16 4 = s.pwr.dieId) (hok : flagSt s f = .ok) :
    signalEff s k x =
      pctxDone (flagOp s f (bits (dAux0 x.desc) 14 2 == 0) (pctxSrc s k) (dTag x.desc)) k .ok := by
  have notFar : ¬ (bit (dAux0 x.desc) 20 = true ∧ bits (dAux0 x.desc) 16 4 ≠ s.pwr.dieId) := by
    rcases hhere with h | h <;> simp [h]
  unfold signalEff
  dsimp only
  rw [hf]
  dsimp only
  rw [if_neg notFar, hok, cmdEndSt, if_pos rfl]

section
variable (hf : dFlag s x.desc (bits (dAux0 x.desc) 0 14) = some f) (hok : flagSt s f = .ok)
include hf hok

theorem waitEff_holds (hw : waitHolds s f (bits (dAux0 x.desc) 14 2) = true) :
    waitEff s k x = pctxDone (waitNow s f (bits (dAux0 x.desc) 14 2) (pctxSrc s k) (dTag x.desc)) k .ok := by
  unfold waitEff
  dsimp only
  rw [hf]
  dsimp only
  rw [if_neg (by simp [hok]), if_pos hw]

theorem waitEff_waits (hw : waitHolds s f (bits (dAux0 x.desc) 14 2) = false) :
    waitEff s k x = pctxWaitFlag s k x f (bits (dAux0 x.desc) 14 2) (dScope x.desc) := by
  unfold waitEff
  dsimp only
  rw [hf]
  dsimp only
  rw [if_neg (by simp [hok]), if_neg (by simp [hw])]

end

/-- The waiter that a command's WAIT registers. -/
def cmdWaiter (s : State) (k : Nat) (x : PCtx) (f : Nat) : Waiter :=
  { flag := f, mode := bits (dAux0 x.desc) 14 2, who := .pctx k, acq := true, scope := dScope x.desc,
    dl := shortStamp s.now (dDeadline x.desc), src := pctxSrc s k, ctx := dTag x.desc, order := 0, overdue := false }

theorem pctxWaitFlag_registers (h : dSpin s x.desc = false) :
    pctxWaitFlag s k x f (bits (dAux0 x.desc) 14 2) (dScope x.desc) =
      waitAdd (s.setPctx k { x.waits s.now (.flag f) with spin := false }) (cmdWaiter s k x f) := by
  unfold pctxWaitFlag
  dsimp only
  rw [h, if_neg Bool.false_ne_true]
  rfl

theorem pctxWaitFlag_spins (h : dSpin s x.desc = true) :
    pctxWaitFlag s k x f (bits (dAux0 x.desc) 14 2) (dScope x.desc) =
      s.setPctx k { x.waits s.now (.flag f) with spin := true } := by
  unfold pctxWaitFlag
  dsimp only
  rw [h, if_pos rfl]

end

/-- A registration adds the waiter with the next order number; the rest of the flag store stays. -/
theorem waitAdd_sync (s : State) (w : Waiter) :
    (waitAdd s w).sync = { s.sync with waiters := s.sync.waiters ++ [{ w with order := s.sync.order }],
                                       order := s.sync.order + 1 } := by
  have counted := sansRecs_sync (sansRecs_countEvent s 0x14 (2 + w.mode) 1)
  unfold waitAdd
  dsimp only
  rw [counted]

theorem waitAdd_work (s : State) (w : Waiter) : (waitAdd s w).work = s.work :=
  (sansRecs_work (sansRecs_countEvent s 0x14 (2 + w.mode) 1) :)

theorem sameMem_waitAdd (s : State) (w : Waiter) : SameMem s (waitAdd s w) :=
  fun a => sameMem_of_sansRecs (sansRecs_countEvent s 0x14 (2 + w.mode) 1) a

/-! ## Barriers (R270) -/

/-- A channel of n participants with one arrival more in its current round. -/
def Bar.arrive (b : Bar) (n : Nat) (a : Arrival) : Bar :=
  { b with arrived := b.arrived + 1, arrivals := b.arrivals ++ [a],
           toggle := if b.arrived + 1 = n then !b.toggle else b.toggle }

theorem barCountArrival_room {s : State} {c : Nat} (hen : barEn s c = true) (hroom : (s.bar c).arrived < barCount s c)
    (a : Arrival) :
    barCountArrival s c a = syncRec (s.setBar c ((s.bar c).arrive (barCount s c) a)) a.src a.ctx c 5 0 := by
  unfold barCountArrival
  dsimp only
  rw [if_neg (by simp [hen]), if_pos hroom]
  rfl

theorem SyncKept.barCfg {s t : State} (h : SyncKept s t) {c : Nat} (hc : c < 32) :
    t.rg (Reg.barCfg c) = s.rg (Reg.barCfg c) :=
  h.regs _ (by simp only [Reg.barCfg]; omega) (by simp only [Reg.barCfg]; omega)

theorem SyncKept.barEn {s t : State} (h : SyncKept s t) {c : Nat} (hc : c < 32) : barEn t c = barEn s c :=
  congrArg (bit · 0) (h.barCfg hc)

theorem SyncKept.barCount {s t : State} (h : SyncKept s t) {c : Nat} (hc : c < 32) : barCount t c = barCount s c :=
  congrArg (bits · 1 8 + 1) (h.barCfg hc)

theorem sameMem_setBar (s : State) (c : Nat) (x : Bar) : SameMem s (s.setBar c x) := fun _ => ⟨rfl, rfl, rfl, rfl⟩

theorem releaseClean_engine (s : State) (src : Nat) : releaseClean s src 0 = s := if_pos (.inl rfl)

/-- An arrival on a channel with room, once its release waits are done: its port's dirty lines are cleaned, then it is
counted. -/
theorem barArrive_counts {s : State} {c : Nat} {a : Arrival} (hc : c < 32) (hen : barEn s c = true)
    (hready : releaseReady s a.src a.scope = true) (hroom : (s.bar c).arrived < barCount s c) :
    barArrive s c a =
      syncRec ((releaseClean s a.src a.scope).setBar c ((s.bar c).arrive (barCount s c) a)) a.src a.ctx c 5 0 := by
  have kept := syncKept_releaseClean s a.src a.scope
  have on : barEn (releaseClean s a.src a.scope) c = true := (kept.barEn hc).trans hen
  have room : ((releaseClean s a.src a.scope).bar c).arrived < barCount (releaseClean s a.src a.scope) c := by
    rw [kept.bar, kept.barCount hc]
    exact hroom
  unfold barArrive
  rw [if_neg (by simp [hen]), if_pos hready, barCountArrival_room on room, kept.bar, kept.barCount hc]

section
variable {s : State} {c : Nat} {a : Arrival} (hc : c < 32) (hen : barEn s c = true)
  (hready : releaseReady s a.src a.scope = true) (hroom : (s.bar c).arrived < barCount s c)
include hc hen hready hroom

theorem bar_barArrive : (barArrive s c a).bar c = (s.bar c).arrive (barCount s c) a := by
  rw [barArrive_counts hc hen hready hroom, sansRecs_bar (sansRecs_syncRec ..), bar_set_same]

theorem pctx_barArrive (k : Nat) : (barArrive s c a).pctx k = s.pctx k := by
  rw [barArrive_counts hc hen hready hroom, sansRecs_pctx (sansRecs_syncRec ..)]
  exact (syncKept_releaseClean s a.src a.scope).pctx k

theorem sameMem_barArrive (hscope : a.scope = 0) : SameMem s (barArrive s c a) := by
  rw [barArrive_counts hc hen hready hroom, hscope, releaseClean_engine]
  exact (sameMem_setBar s c _).trans (sameMem_of_sansRecs (sansRecs_syncRec ..))

end

/-- The arrival of a command's BARRIER. -/
def cmdArrival (s : State) (k : Nat) (x : PCtx) : Arrival :=
  { src := pctxSrc s k, scope := dScope x.desc, ctx := dTag x.desc, who := some (.pctx k) }

/-- A command's arrival on a channel with room, once its release waits are done: it is counted, and the command waits. -/
theorem barrierEff_counts {s : State} {k c : Nat} {x : PCtx} (hc : c = bits (dAux0 x.desc) 0 5) (hen : barEn s c = true)
    (hready : releaseReady s (pctxSrc s k) (dScope x.desc) = true) (hroom : (s.bar c).arrived < barCount s c) :
    (barrierEff s k x).bar c = (s.bar c).arrive (barCount s c) (cmdArrival s k x) ∧
    (barrierEff s k x).pctx k = some (x.waits s.now (.barrier c)) ∧
    (dScope x.desc = 0 → SameMem s (barrierEff s k x)) := by
  have small : c < 32 := hc ▸ bits_lt _ 0 5
  have eff : barrierEff s k x = barArrive (s.setPctx k (x.waits s.now (.barrier c))) c (cmdArrival s k x) := by
    rw [hc]
    rfl
  have ready : releaseReady (s.setPctx k (x.waits s.now (.barrier c))) (cmdArrival s k x).src (cmdArrival s k x).scope =
      true := hready
  have on : barEn (s.setPctx k (x.waits s.now (.barrier c))) c = true := hen
  rw [eff]
  exact ⟨bar_barArrive small on ready hroom, (pctx_barArrive small on ready hroom k).trans (pctx_set_same ..),
    fun hscope => (sameMem_setPctx s k _).trans (sameMem_barArrive small on ready hroom hscope)⟩

/-! ## Stamps (R50) -/

/-- A record that finds its source's waiting places and the tc's stamps free is kept. -/
theorem waiting_ledgerSrc {s : State} {src : Nat} (hen : s.rgBit Reg.evlCtl 0 = true) (hw : evlWaiting s src < 8)
    (hs : s.evl.stampTc = s.clk.tc → tget 0 s.evl.stamped src < 32) (type : Nat) (ctx : Option (Nat × Nat))
    (a0 a1 : Nat) :
    (ledgerSrc s src type ctx a0 a1).evl.waiting = s.evl.waiting ++
      [{ stamp := s.now, src := src, seq := tget 0 s.evl.seqs src, type := type, unlocked := !s.rgBit Reg.ptStatus 0,
         ctx := ctx, arg0 := BitVec.ofNat 64 a0, arg1 := BitVec.ofNat 64 a1 }] := by
  have fits : (takeSeq s src).2.1 = true := by
    simp only [takeSeq, decide_eq_true_eq]
    split
    · next h => exact hs h
    · decide
  have room : evlWaiting (takeSeq s src).2.2 src < 8 := hw
  unfold ledgerSrc
  rw [if_pos hen]
  dsimp only
  rw [if_pos (by simp [fits, room])]
  rfl

/-! ## Programs (R158) -/

theorem tget_above {α : Type} (d : α) {t : Table α} {k : Nat} (h : above t k) : tget d t k = d := by
  induction t with
  | nil => rfl
  | cons e r ih =>
    obtain ⟨j, w⟩ := e
    have later : k < j := h (j, w) (List.mem_cons_self ..)
    rw [tget, if_neg (by omega)]
    exact ih (fun e he => h e (List.mem_cons_of_mem _ he))

/-- Entries that are 0 need not be listed. -/
theorem tget_filter_nonzero {t : Table Nat} (hs : tsorted t = true) (k : Nat) :
    tget 0 (t.filter (fun e => e.2 != 0)) k = tget 0 t k := by
  induction t with
  | nil => rfl
  | cons e r ih =>
    obtain ⟨j, w⟩ := e
    obtain ⟨habove, hr⟩ := (tsorted_cons j w r).mp hs
    by_cases hw : w = 0
    · rw [List.filter_cons_of_neg (by simp [hw]), ih hr, tget]
      split
      · next hj => rw [← hj, tget_above 0 habove, hw]
      · rfl
    · rw [List.filter_cons_of_pos (by simp [hw]), tget, tget, ih hr]

theorem streamStart_ra (d : Desc) (i : Nat) :
    (streamStart d).front.ra i = tget 0 [(0, dSrc d), (1, dDst d), (2, dAux2 d)] i :=
  tget_filter_nonzero rfl i

theorem streamStart_rn (d : Desc) (i : Nat) : (streamStart d).front.rn i = tget 0 [(0, dLen d), (1, dAux1 d)] i :=
  tget_filter_nonzero rfl i

theorem streamEff_starts {s : State} {k : Nat} {x : PCtx} (hc : dCtxV x.desc = true) (h0 : dSrc x.desc < 2 ^ 48)
    (h1 : dDst x.desc < 2 ^ 48) (h2 : dAux2 x.desc < 2 ^ 48) :
    streamEff s k x = s.setPctx k { x with stream := some (streamStart x.desc), spin := dSpin s x.desc } := by
  unfold streamEff
  dsimp only
  rw [if_neg]
  simp only [hc, Bool.not_true, Bool.false_or, Bool.or_eq_true, decide_eq_true_eq]
  omega


/-! ## A flag operation on another die (R248, R267) -/

/-- The state without what a write that leaves by a die-link port touches: what counts and records touch, the port, the
lock-up detector's marks, the flights, the output, the next key and the quiescence times. -/
def sansSend (s : State) : State :=
  { sansRecs s with ras := State.reset.ras, out := [], mesh := { s.mesh with flights := [] },
                    edge := { s.edge with links := [] }, sync := { s.sync with nextKey := 0, quietSince := [] } }

section
variable {s t : State}

theorem sansSend_of_sansRecs (h : sansRecs t = sansRecs s) : sansSend t = sansSend s := by
  have ras : ∀ u, sansSend u = sansSend (sansRecs u) := fun _ => rfl
  rw [ras t, h, ← ras s]

theorem sansSend_pctx (h : sansSend t = sansSend s) (k : Nat) : t.pctx k = s.pctx k :=
  (congrArg (fun u : State => u.pctx k) h :)

theorem sansSend_flags (h : sansSend t = sansSend s) : t.sync.flags = s.sync.flags :=
  (congrArg (fun u : State => u.sync.flags) h :)

theorem sameMem_of_sansSend (h : sansSend t = sansSend s) : SameMem s t := by
  have bank : t.bankMem = s.bankMem := (congrArg (fun u : State => u.bankMem) h :)
  have stack : t.stackMem = s.stackMem := (congrArg (fun u : State => u.stackMem) h :)
  have ext : t.extMem = s.extMem := (congrArg (fun u : State => u.extMem) h :)
  have clerk : t.clerkMem = s.clerkMem := (congrArg (fun u : State => u.clerkMem) h :)
  intro a
  rw [bank, stack, ext, clerk]
  exact ⟨rfl, rfl, rfl, rfl⟩

end

theorem sansSend_setLink (s : State) (p : Nat) (x : Link) : sansSend (s.setLink p x) = sansSend s := rfl

theorem sansSend_moved (s : State) (k : Nat) : sansSend (moved s k) = sansSend s := rfl

theorem sansSend_emit (s : State) (o : Out) : sansSend (s.emit o) = sansSend s := rfl

theorem sansSend_linkSend {s t : State} {p : Nat} {o : Out} (h : linkSend s p o = some t) : sansSend t = sansSend s := by
  unfold linkSend at h
  dsimp only at h
  split at h
  · obtain rfl := Option.some.inj h
    rw [sansSend_emit, sansSend_moved, sansSend_of_sansRecs (sansRecs_countEvent ..), sansSend_setLink]
  · cases h

/-- What leaves by an UP port with credit, not latched and with nothing waiting is sent at once. -/
theorem linkOut_sends {s : State} {p : Nat} {o : Out} (hup : (s.link p).state = .up) (hwait : (s.link p).waiting = [])
    (hcredit : creditsUsed s p (outWay o).2.1 (outWay o).2.2.1 < 32) (hclamp : clampOn s 34 = false) :
    linkSend s p o = some (linkOut s p o) := by
  have lane : laneWaits s p o = false := by simp [laneWaits, hwait]
  have sends : ∃ t, linkSend s p o = some t := by
    unfold linkSend
    dsimp only
    rw [if_pos ⟨hup, hcredit, by simp [hclamp]⟩]
    exact ⟨_, rfl⟩
  obtain ⟨t, ht⟩ := sends
  have out : linkOut s p o = t := by
    unfold linkOut
    dsimp only
    rw [lane, ht]
    rfl
  rw [out, ht]

theorem ppaDie_diePPA {die space : Nat} (hd : die < 16) (hs : space < 16) (off : Nat) :
    ppaDie (diePPA die space off) = die := by
  simp only [ppaDie, diePPA, bits]
  omega

/-- The state with a flight of the next key. -/
def withFlight (s : State) (x : Flight) : State :=
  ({ s with sync := { s.sync with nextKey := s.sync.nextKey + 1 } }).setFlight (2 ^ 32 + s.sync.nextKey) x

theorem controlOut_eq (s : State) (src : Nat) (ctx : Option (Nat × Nat)) (lane dl a v : Nat) :
    ∃ x, controlOut s src ctx lane dl a v = linkOut (withFlight s x) (routePort s (ppaDie a))
      (.control (routePort s (ppaDie a)) (ppaDie a) lane src true (2 ^ 32 + s.sync.nextKey) dl a (BitVec.ofNat 64 v)) :=
  ⟨_, rfl⟩

theorem sansSend_withFlight (s : State) (x : Flight) : sansSend (withFlight s x) = sansSend s := rfl

/-- A port takes what leaves on a lane at once: it is UP with credit, not latched, and nothing waits at it. -/
def PortSends (s : State) (p lane : Nat) : Prop :=
  (s.link p).state = .up ∧ (s.link p).waiting = [] ∧ creditsUsed s p lane false < 32 ∧ clampOn s 34 = false

/-- A write to a control space of another die, over a port that takes it at once. -/
theorem controlOut_sends {s : State} {a lane : Nat} (h : PortSends s (routePort s (ppaDie a)) lane) (src : Nat)
    (ctx : Option (Nat × Nat)) (dl v : Nat) :
    sansSend (controlOut s src ctx lane dl a v) = sansSend s ∧
    (controlOut s src ctx lane dl a v).out = s.out ++ [.control (routePort s (ppaDie a)) (ppaDie a) lane src true
      (2 ^ 32 + s.sync.nextKey) dl a (BitVec.ofNat 64 v)] := by
  obtain ⟨hup, hwait, hcredit, hclamp⟩ := h
  obtain ⟨x, hx⟩ := controlOut_eq s src ctx lane dl a v
  have sent := linkOut_sends (s := withFlight s x) (o := .control (routePort s (ppaDie a)) (ppaDie a) lane src true
    (2 ^ 32 + s.sync.nextKey) dl a (BitVec.ofNat 64 v)) hup hwait hcredit hclamp
  obtain ⟨-, -, -, out⟩ := linkSend_some sent
  rw [hx]
  exact ⟨(sansSend_linkSend sent).trans (sansSend_withFlight s x), out⟩

theorem sansSend_lendOff (s : State) (n : Nat) : sansSend (lendOff s n) = sansSend s := by
  unfold lendOff
  dsimp only
  split <;> rfl

theorem lendOff_out (s : State) (n : Nat) : (lendOff s n).out = s.out := by
  unfold lendOff
  dsimp only
  split <;> rfl

/-- A waiting command, no STREAM, is done. -/
theorem pctxWake_done {s : State} {k : Nat} {x : PCtx} (h : s.pctx k = some x) (hx : x.stream = none) :
    pctxWake s k = (lendOff s (k / 8)).setPctx k { x with wait := none, done := true } := by
  unfold pctxWake
  rw [h]
  simp only [hx]

theorem ownerAnswer_pctx_ok (s : State) (k : Nat) : ownerAnswer s (.pctx k) .ok = pctxWake s k := by
  unfold ownerAnswer
  exact if_pos rfl

/-- The release of a SIGNAL to another die. -/
def signalRelease (s : State) (k : Nat) (x : PCtx) (die f : Nat) (set : Bool) : Release :=
  { src := pctxSrc s k, ctx := dTag x.desc, scope := 5, effect := .farFlag die f set (dClass x.desc), owner := .pctx k }

section
variable {s : State} {k die f : Nat} {x : PCtx} {set : Bool}

/-- The release of a far flag waits for the lane's earlier writes only, and cleans nothing (R248). -/
theorem releaseMake_signal (h : laneOrdered s (pctxSrc s k) die (dClass x.desc) (2 ^ 64) = true) :
    releaseMake s (signalRelease s k x die f set) = releaseEffect s (signalRelease s k x die f set) := by
  have may : mayRelease s s.sync.nextKey (signalRelease s k x die f set) = true := h
  have clean : releaseClean s (pctxSrc s k) 5 = s := if_pos (.inr (.inl rfl))
  unfold releaseMake
  rw [if_pos may]
  exact congrArg (releaseEffect · (signalRelease s k x die f set)) clean

/-- The write that a SIGNAL to another die sends. -/
def signalOut (s : State) (k : Nat) (x : PCtx) (die f : Nat) (set : Bool) : State :=
  controlOut s (pctxSrc s k) (dTag x.desc) (dClass x.desc) (pullIn s (dClass x.desc) (shortStamp s.now 0))
    (diePPA die 0xA (8 * f)) (b2n set)

theorem signalOut_sends (hd : die < 16) (h : PortSends s (routePort s die) (dClass x.desc)) :
    sansSend (signalOut s k x die f set) = sansSend s ∧
    (signalOut s k x die f set).out = s.out ++ [.control (routePort s die) die (dClass x.desc) (pctxSrc s k) true
      (2 ^ 32 + s.sync.nextKey) (pullIn s (dClass x.desc) (shortStamp s.now 0)) (diePPA die 0xA (8 * f))
      (BitVec.ofNat 64 (b2n set))] := by
  have dest : ppaDie (diePPA die 0xA (8 * f)) = die := ppaDie_diePPA hd (by decide) _
  have sends := controlOut_sends (a := diePPA die 0xA (8 * f)) (by rw [dest]; exact h) (pctxSrc s k) (dTag x.desc)
    (pullIn s (dClass x.desc) (shortStamp s.now 0)) (b2n set)
  rw [dest] at sends
  exact sends

theorem releaseEffect_signal (hd : die ≠ s.pwr.dieId) (hb : die ∈ s.build.dies)
    (hq : portQuar s (routePort s die) = false) :
    releaseEffect s (signalRelease s k x die f set) = pctxWake (signalOut s k x die f set) k := by
  have sent : remoteFlag s die f set (pctxSrc s k) (dClass x.desc) (dTag x.desc) = (.ok, signalOut s k x die f set) := by
    unfold remoteFlag
    dsimp only
    rw [if_neg hd, if_neg (not_not_intro hb), hq, if_neg Bool.false_ne_true]
    rfl
  unfold releaseEffect signalRelease
  dsimp only
  rw [sent]
  exact ownerAnswer_pctx_ok ..

theorem signalEff_far (hf : dFlag s x.desc (bits (dAux0 x.desc) 0 14) = some f) (hdie : die = bits (dAux0 x.desc) 16 4)
    (hfar : bit (dAux0 x.desc) 20 = true) (hd : die ≠ s.pwr.dieId) (hb : die ∈ s.build.dies)
    (hq : portQuar s (routePort s die) = false)
    (hlane : laneOrdered s (pctxSrc s k) die (dClass x.desc) (2 ^ 64) = true) :
    signalEff s k x = pctxWake (signalOut s k x die f (bits (dAux0 x.desc) 14 2 == 0)) k := by
  have far : farSignal s k x die f (bits (dAux0 x.desc) 14 2 == 0) =
      releaseMake s (signalRelease s k x die f (bits (dAux0 x.desc) 14 2 == 0)) := by
    unfold farSignal
    rw [if_neg (not_not_intro hb), hq, if_neg Bool.false_ne_true]
    rfl
  unfold signalEff
  dsimp only
  rw [hf]
  dsimp only
  rw [if_pos ⟨hfar, hdie ▸ hd⟩, ← hdie, far, releaseMake_signal hlane, releaseEffect_signal hd hb hq]

end

/-! ## The rows -/

/-- A command that begins is one right after its start, with its SFLAG. -/
theorem stream_of_begins {s u : State} {r op k : Nat} {p : Desc → Bool} {x : PCtx} (h : Begins s r op p k x u) :
    x.stream = none := by
  obtain ⟨y, t, v, hstart, -, -, -, rfl, -⟩ := h
  unfold cmdStart at hstart
  dsimp only at hstart
  split at hstart
  · split at hstart
    · obtain ⟨-, rfl, -⟩ := Prod.mk.inj (Option.some.inj hstart)
      rfl
    · cases hstart
  · cases hstart

section
variable {s u : State} {r k : Nat} {x : PCtx} (hl : Live s dFAB)
include hl

theorem exec_signal (h : Begins s r 0x08 anyDesc k x u) : exec (.signal r) s = .next (signalEff u k x) :=
  gateIn_begins hl h signalEff

theorem exec_wait (h : Begins s r 0x09 anyDesc k x u) : exec (.wait r) s = .next (waitEff u k x) :=
  gateIn_begins hl h waitEff

theorem exec_fence (h : Begins s r 0x0A anyDesc k x u) : exec (.fence r) s = .next (pctxDone u k .ok) :=
  gateIn_begins hl h (fun t k _ => pctxDone t k .ok)

theorem exec_barrier (h : Begins s r 0x0B anyDesc k x u) : exec (.barrier r) s = .next (barrierEff u k x) :=
  gateIn_begins hl h barrierEff

theorem exec_stamp (h : Begins s r 0x13 anyDesc k x u) :
    exec (.stamp r) s = .next (pctxDone (ledgerRec u (128 + k / 8) 0x0A (dTag x.desc) (dAux2 x.desc)
      (ringSeq x.ring x.seq 0x13)) k .ok) :=
  gateIn_begins hl h (fun t k x =>
    pctxDone (ledgerRec t (128 + k / 8) 0x0A (dTag x.desc) (dAux2 x.desc) (ringSeq x.ring x.seq 0x13)) k .ok)

theorem exec_stream (h : Begins s r 0x06 anyDesc k x u) : exec (.stream r) s = .next (streamEff u k x) :=
  gateIn_begins hl h streamEff

end

/-- Settles O32: each row by the end of its effect. -/
theorem controlCommands : Obligations.ControlCommands := by
  unfold Obligations.ControlCommands
  refine ⟨?signal, ?far, ?waitHolds, ?waitRegisters, ?waitSpins, ?fence, ?arrives, ?completes, ?stamp, ?stream⟩
  case signal =>
    intro s r k f x u hl hb hf hhere hst hok hw
    have recs := sansRecs_flagOp hok hw (bits (dAux0 x.desc) 14 2 == 0) (pctxSrc u k) (dTag x.desc)
    obtain ⟨done, mem⟩ := done_of_sansRecs (u := u) recs (flagPut_work ..)
      ((sameMem_tableWrite u .flag f).trans (sameMem_flagPut _ _ _ _)) (pctx_of_begins hb) hst
    refine ⟨_, exec_signal hl hb, ?_⟩
    rw [signalEff_here hf hhere hok]
    refine ⟨?_, done, fun g hg => ?_, mem⟩
    · rw [pctxDone_flag, sansRecs_flag recs, flag_flagPut_same]
    · rw [pctxDone_flag, sansRecs_flag recs, flag_flagPut_other _ hg]
      rfl
  case far =>
    intro s r k f p d x u hl hb hf hd hfar hdie hbuild hp hq hst hlane hup hwait hcredit hclamp
    subst hp
    have sends : PortSends u (routePort u d) (dClass x.desc) := ⟨beq_iff_eq.mp hup, hwait, hcredit, hclamp⟩
    obtain ⟨sans, out⟩ := signalOut_sends (k := k) (f := f) (set := bits (dAux0 x.desc) 14 2 == 0)
      (hd ▸ bits_lt _ 16 4) sends
    have pctx := (sansSend_pctx sans k).trans (pctx_of_begins hb)
    have lend := (sansSend_lendOff _ (k / 8)).trans sans
    refine ⟨_, 2 ^ 32 + u.sync.nextKey, exec_signal hl hb, ?_⟩
    rw [signalEff_far hf hd hfar hdie hbuild hq hlane, pctxWake_done pctx (stream_of_begins hb)]
    exact ⟨⟨_, pctx_set_same .., rfl, rfl, hst⟩, (sansSend_flags lend :),
      (sameMem_of_sansSend lend).trans (sameMem_setPctx _ _ _), (lendOff_out ..).trans out⟩
  case waitHolds =>
    intro s r k f x u hl hb hf hok hholds hst hw
    have recs := sansRecs_waitNow hw (pctxSrc u k) (dTag x.desc)
    obtain ⟨done, mem⟩ := done_of_sansRecs recs (flagTaken_work ..) (sameMem_flagTaken u f _ _) (pctx_of_begins hb) hst
    refine ⟨_, exec_wait hl hb, ?_⟩
    rw [waitEff_holds hf hok hholds]
    refine ⟨done, mem, ?_, fun g hg => ?_, ?_⟩
    · rw [pctxDone_flag, sansRecs_flag recs, flag_flagTaken_same]
    · rw [pctxDone_flag, sansRecs_flag recs, flag_flagTaken_other u hg]
    · rw [pctxDone_sync, sansRecs_sync recs, flagTaken_waiters]
  case waitRegisters =>
    intro s r k f x u hl hb hf hok hholds hspin
    refine ⟨_, { cmdWaiter u k x f with order := u.sync.order }, exec_wait hl hb, ?_⟩
    rw [waitEff_waits hf hok hholds, pctxWaitFlag_registers hspin, waitAdd_sync]
    refine ⟨rfl, rfl, rfl, rfl, rfl, rfl, ?_, rfl, (sameMem_setPctx _ _ _).trans (sameMem_waitAdd _ _)⟩
    unfold State.pctx
    rw [waitAdd_work]
    exact pctx_set_same ..
  case waitSpins =>
    intro s r k f x u hl hb hf hok hholds hspin
    refine ⟨_, exec_wait hl hb, ?_⟩
    rw [waitEff_waits hf hok hholds, pctxWaitFlag_spins hspin]
    exact ⟨pctx_set_same .., rfl⟩
  case fence =>
    intro s r k x u hl hb hst
    have pctx := pctx_of_begins hb
    refine ⟨_, exec_fence hl hb, doneOk_pctxDone pctx hst, ?_⟩
    obtain ⟨l, e⟩ := pctxDone_some pctx .ok
    rw [e]
    rfl
  case arrives =>
    intro s r k c x u hl hb hc hen hready hroom
    obtain ⟨bar, pctx, mem⟩ := barrierEff_counts hc hen hready (by omega)
    refine ⟨_, exec_barrier hl hb, ?_, ?_, pctx, mem⟩
    · rw [bar]
      rfl
    · rw [bar]
      exact if_neg (by omega)
  case completes =>
    intro s r k c x u hl hb hc hen hready hlast
    obtain ⟨bar, pctx, -⟩ := barrierEff_counts hc hen hready (by omega)
    refine ⟨_, exec_barrier hl hb, ?_, ?_, pctx⟩
    · rw [bar]
      exact hlast
    · rw [bar]
      exact if_pos hlast
  case stamp =>
    intro s r k x u hl hb hst
    have recs := sansRecs_ledgerSrc u (u.src (128 + k / 8)) 0x0A (dTag x.desc) (dAux2 x.desc) (ringSeq x.ring x.seq 0x13)
    obtain ⟨done, mem⟩ := done_of_sansRecs recs rfl (fun _ => ⟨rfl, rfl, rfl, rfl⟩) (pctx_of_begins hb) hst
    refine ⟨_, exec_stamp hl hb, done, mem, fun hen hroom hstamps => ?_⟩
    rw [pctxDone_evl]
    exact ⟨_, waiting_ledgerSrc hen hroom hstamps .., rfl, rfl, rfl, rfl⟩
  case stream =>
    intro s r k x u hl hb hctx h0 h1 h2
    refine ⟨_, streamStart x.desc, { x with stream := some (streamStart x.desc), spin := dSpin u x.desc },
      exec_stream hl hb, ?_⟩
    rw [streamEff_starts hctx h0 h1 h2]
    exact ⟨pctx_set_same .., rfl, rfl, rfl, rfl, streamStart_ra .., streamStart_ra .., streamStart_ra ..,
      streamStart_rn .., streamStart_rn .., rfl, rfl, rfl⟩

end Sys2Proof.Machine


/-! SUPPORT. Stream programs (R156 to R181): the program of a program context, the programs of a mover that runs one, the back
and the reads of a program where nothing moves, and a row of the instruction that such a program's front stands at. -/

namespace Sys2Proof.Machine

/-! ## The program of a program context -/

/-- A program context with its program replaced. -/
def PCtx.running (x : PCtx) (y : Stream) : PCtx := { x with stream := some y }

section
variable {s : State} {k : Nat} {x : PCtx} {y : Stream}

theorem program_iff : s.program k = some (x, y) ↔ s.pctx k = some x ∧ x.done = false ∧ x.stream = some y := by
  unfold State.program
  split
  · next z hz =>
    rw [hz]
    split
    · next hd => simp only [reduceCtorEq, Option.some.injEq, false_iff]; rintro ⟨rfl, hx, -⟩; simp [hd] at hx
    · next hd =>
      simp only [Option.map_eq_some_iff, Prod.mk.injEq, Option.some.injEq]
      constructor
      · rintro ⟨m, hm, rfl, rfl⟩; exact ⟨rfl, by simpa using hd, hm⟩
      · rintro ⟨rfl, -, hm⟩; exact ⟨y, hm, rfl, rfl⟩
  · next hz => simp [hz]

theorem onStream_program (h : s.program k = some (x, y)) (f : Stream → Stream) :
    onStream s k f = s.setPctx k (x.running (f y)) := by
  obtain ⟨hpctx, -, hstream⟩ := program_iff.mp h
  simp [onStream, hpctx, hstream, PCtx.running]

theorem program_setPctx (h : s.program k = some (x, y)) (t : State) (z : Stream) :
    (t.setPctx k (x.running z)).program k = some (x.running z, z) :=
  program_iff.mpr ⟨pctx_set_same .., (program_iff.mp h).2.1, rfl⟩

/-- Both `Runs` and `State.program` say that a command's program is still running. -/
theorem runs_of_program (h : s.program k = some (x, y)) : Runs s k y :=
  ⟨x, program_iff.mp h⟩

theorem program_of_pctxs {t : State} (h : t.work.pctxs = s.work.pctxs) (k : Nat) : t.program k = s.program k := by
  unfold State.program State.pctx
  rw [h]

end

/-! ## The programs of a mover (R173) -/

theorem insertPctx_perm (s : State) (e : Nat × PCtx) (l : List (Nat × PCtx)) : (insertPctx s e l).Perm (e :: l) := by
  induction l with
  | nil => exact .refl _
  | cons x l ih =>
    unfold insertPctx
    split
    · exact .refl _
    · exact (ih.cons x).trans (.swap e x l)

/-- The order in which a mover serves its programs adds none and leaves none out. -/
theorem mem_moverPrograms {s : State} {m : Nat} {e : Nat × PCtx} :
    e ∈ moverPrograms s m ↔ e ∈ s.work.pctxs ∧ e.1 / 8 = m ∧ e.2.done = false ∧ e.2.stream.isSome = true := by
  have perm (l : List (Nat × PCtx)) : (l.foldr (insertPctx s) []).Perm l := by
    induction l with
    | nil => exact .refl _
    | cons x l ih => exact (insertPctx_perm s x _).trans (ih.cons x)
  unfold moverPrograms runningOf
  rw [(perm _).mem_iff]
  simp only [List.mem_filter, Bool.and_eq_true, beq_iff_eq, Bool.not_eq_true']
  tauto

/-- Every program that the mover of program context k runs is k's, and there is one. -/
def RunsAlone (s : State) (k : Nat) : Prop :=
  (∃ e ∈ s.work.pctxs, e.1 = k ∧ e.2.done = false ∧ e.2.stream.isSome = true) ∧
    ∀ e ∈ s.work.pctxs, e.1 / 8 = k / 8 → e.2.done = false → e.2.stream.isSome = true → e.1 = k

theorem runsAlone_of_moverPrograms {s : State} {k : Nat} {x : PCtx} (h : moverPrograms s (k / 8) = [(k, x)]) :
    RunsAlone s k := by
  have mem : ∀ e, e ∈ moverPrograms s (k / 8) ↔ e = (k, x) := by simp [h]
  constructor
  · obtain ⟨hmem, -, hdone, hstream⟩ := mem_moverPrograms.mp ((mem (k, x)).mpr rfl)
    exact ⟨(k, x), hmem, rfl, hdone, hstream⟩
  · intro e he hm hd hs
    rw [(mem e).mp (mem_moverPrograms.mpr ⟨he, hm, hd, hs⟩)]

theorem mem_tput_self {α : Type} (t : Table α) (k : Nat) (v : α) : (k, v) ∈ tput t k v :=
  mem_of_tfind (tfind_tput_same t k v)

theorem RunsAlone.setPctx {s : State} {k : Nat} {x : PCtx} {y : Stream} (h : RunsAlone s k)
    (hp : s.program k = some (x, y)) (z : Stream) : RunsAlone (s.setPctx k (x.running z)) k := by
  constructor
  · exact ⟨_, mem_tput_self .., rfl, (program_iff.mp hp).2.1, rfl⟩
  · intro e he hm hd hs
    obtain rfl | old := mem_tput he
    · rfl
    · exact h.2 e old hm hd hs

theorem RunsAlone.of_pctxs {s t : State} {k : Nat} (h : RunsAlone s k) (e : t.work.pctxs = s.work.pctxs) : RunsAlone t k := by
  unfold RunsAlone
  rw [e]
  exact h

/-- One program goes on, as far as it can. -/
def programGo (s : State) (k : Nat) : State :=
  match s.program k with
  | some (_, y) => goProgram (2 * y.back.length + 1) k s
  | none => s

theorem streamGo_eq (s : State) (m : Nat) : streamGo s m = (moverPrograms s m).foldl (fun t e => programGo t e.1) s := rfl

/-- The programs of a mover that runs one go on as that one does. -/
theorem streamGo_alone {s t : State} {k : Nat} (h : RunsAlone s k) (go : programGo s k = t) (rests : programGo t k = t) :
    streamGo s (k / 8) = t := by
  obtain ⟨⟨e, he, rfl, hd, hs⟩, all⟩ := h
  have keys : ∀ a ∈ moverPrograms s (e.1 / 8), a.1 = e.1 := fun a ha =>
    have ⟨hmem, hm, hdone, hstream⟩ := mem_moverPrograms.mp ha
    all a hmem hm hdone hstream
  have one : e ∈ moverPrograms s (e.1 / 8) := mem_moverPrograms.mpr ⟨he, rfl, hd, hs⟩
  have stays (l : List (Nat × PCtx)) (hl : ∀ a ∈ l, a.1 = e.1) : l.foldl (fun u a => programGo u a.1) t = t := by
    induction l with
    | nil => rfl
    | cons a l ih =>
      obtain ⟨ha, hl⟩ := List.forall_mem_cons.mp hl
      rw [List.foldl_cons, ha, rests, ih hl]
  rw [streamGo_eq]
  cases hm : moverPrograms s (e.1 / 8) with
  | nil => rw [hm] at one; cases one
  | cons a l =>
    rw [hm] at keys
    obtain ⟨ha, hl⟩ := List.forall_mem_cons.mp keys
    rw [List.foldl_cons, ha, go, stays l hl]

/-! ## Where a program rests -/

/-- No wait is recorded and no read is due before the first item that fails. -/
def BackQuiet (y : Stream) : Prop :=
  ∀ a ∈ y.back.takeWhile (fun b => !itemFails b), isWaitf a = false ∧ (itemReads a = false ∨ a.got.isSome = true)

theorem quiet_of_all {y : Stream} (h : ∀ a ∈ y.back, isWaitf a = false ∧ (itemReads a = false ∨ a.got.isSome = true)) :
    BackQuiet y := fun a ha => h a ((List.takeWhile_prefix _).subset ha)

theorem quiet_empty {y : Stream} (h : y.back = []) : BackQuiet y := quiet_of_all (by simp [h])

theorem quiet_single {y : Stream} {b : BackItem} (h : y.back = [b]) (hw : isWaitf b = false) (hr : itemReads b = false) :
    BackQuiet y := quiet_of_all (by simp [h, hw, hr])

section
variable {s : State} {k : Nat} {x : PCtx} {y : Stream}

theorem frontWaits_quiet (h : s.program k = some (x, y)) (hq : BackQuiet y) : frontWaits s k = s := by
  have none_ : (y.back.takeWhile (fun b => !itemFails b)).find? isWaitf = none :=
    List.find?_eq_none.mpr fun a ha => by simp [(hq a ha).1]
  unfold frontWaits
  rw [h]
  dsimp only
  rw [none_]
  split
  · next e => cases e
  · rfl

/-- Where every item before the first that fails is no read or has its reads made, the reads come to an end. -/
theorem readPass_quiet (h : s.program k = some (x, y)) (f i : Nat)
    (hq : ∀ a ∈ (y.back.drop i).takeWhile (fun b => !itemFails b), itemReads a = false ∨ a.got.isSome = true) :
    readPass k f i s = (s, false) := by
  induction f generalizing i with
  | zero => rfl
  | succ f ih =>
    unfold readPass
    rw [h]
    dsimp only
    split
    · rfl
    · next b l hb =>
      rw [hb, List.takeWhile_cons] at hq
      cases hf : itemFails b with
      | true => simp
      | false =>
        rw [hf] at hq
        have skip : (!itemReads b || b.got.isSome) = true := by simpa using hq b (by simp)
        rw [if_neg Bool.false_ne_true, if_pos skip]
        refine ih (i + 1) fun a ha => hq a (List.mem_cons_of_mem _ ?_)
        rwa [← List.drop_drop, hb] at ha

theorem frontReads_quiet (h : s.program k = some (x, y)) (hq : BackQuiet y) : frontReads s k = (s, false) := by
  unfold frontReads
  rw [h]
  exact readPass_quiet h _ 0 fun a ha => (hq a ha).2

/-- One round of a quiet program is a step of its back. -/
theorem goProgram_quiet (h : s.program k = some (x, y)) (hq : BackQuiet y) (f : Nat) :
    goProgram (f + 1) k s = if ((backStep s k).program k).map (·.2.back) = some y.back then backStep s k
      else goProgram f k (backStep s k) := by
  rw [goProgram, frontWaits_quiet h hq, frontReads_quiet h hq, h]
  rfl

/-- A program context whose program moves no further. -/
def Rests (s : State) (k : Nat) : Prop := ∀ f, goProgram f k s = s

/-- A quiet program whose back stands rests. -/
theorem rests_quiet (h : s.program k = some (x, y)) (hq : BackQuiet y) (hb : backStep s k = s) : Rests s k := by
  rintro (- | f)
  · rfl
  · rw [goProgram_quiet h hq, hb, h]
    exact if_pos rfl

/-- A program context whose command is done rests. -/
theorem rests_ended (h : s.program k = none) : Rests s k := by
  have waits : frontWaits s k = s := by unfold frontWaits; rw [h]
  have reads : frontReads s k = (s, false) := by unfold frontReads; rw [h]
  have back : backStep s k = s := by unfold backStep; rw [h]
  rintro (- | f)
  · rfl
  · rw [goProgram, waits, reads, back]
    exact if_pos rfl

theorem Rests.programGo (h : Rests s k) : programGo s k = s := by
  unfold Machine.programGo
  split
  · exact h _
  · rfl

theorem streamGo_rests (ha : RunsAlone s k) (h : Rests s k) : streamGo s (k / 8) = s :=
  streamGo_alone ha h.programGo h.programGo

/-- A quiet program that rests after one step of its back goes on by that step. -/
theorem streamGo_step (ha : RunsAlone s k) (h : s.program k = some (x, y)) (hq : BackQuiet y)
    (hr : Rests (backStep s k) k) : streamGo s (k / 8) = backStep s k := by
  refine streamGo_alone ha ?_ hr.programGo
  unfold Machine.programGo
  rw [h]
  dsimp only
  rw [goProgram_quiet h hq, hr, ite_self]

/-! ## Where the back stands -/

theorem backStep_empty (h : s.program k = some (x, y)) (hy : y.back = []) : backStep s k = s := by
  unfold backStep
  rw [h]
  dsimp only
  rw [hy]

/-- The back performs an item that is no NEXT and makes no access. -/
theorem backStep_performs (h : s.program k = some (x, y)) {b : BackItem} {l : List BackItem} (hy : y.back = b :: l)
    (hw : backWaits x = false) (hr : itemReads b = false) (hwr : itemWrites b = false) (hn : isNext b = false) :
    backStep s k = backDo s k x y b := by
  unfold backStep
  rw [h]
  dsimp only
  rw [hy]
  dsimp only
  rw [hw, hr, if_neg (by simp)]
  split
  · next hop => simp [isNext, hop] at hn
  · rw [hwr, if_neg Bool.false_ne_true]

/-- The back stands at a NEXT whose condition is resolved. -/
theorem backStep_next (h : s.program k = some (x, y)) {b : BackItem} {l : List BackItem} (hy : y.back = b :: l)
    {c p t n : Nat} {pred : Bool} (hop : b.op = .next c p t n pred) (hc : c ≤ 2) : backStep s k = s := by
  unfold backStep
  rw [h]
  dsimp only
  rw [hy]
  dsimp only
  rw [hop]
  dsimp only
  rw [if_neg (show ¬ (c = 3 ∨ c = 4) by omega), ite_self]

/-- The back resolves the condition of a NEXT that its first item is. -/
theorem backStep_resolves (h : s.program k = some (x, y)) {b : BackItem} {l : List BackItem} (hy : y.back = b :: l)
    (hw : backWaits x = false) {c p t n : Nat} {pred : Bool} (hop : b.op = .next c p t n pred) (hc : c = 3 ∨ c = 4) :
    backStep s k = nextResolve s k y b c p t n pred := by
  have noRead : itemReads b = false := by simp [itemReads, hop]
  unfold backStep
  rw [h]
  dsimp only
  rw [hy]
  dsimp only
  rw [hw, noRead, if_neg (by simp), hop]
  exact if_pos hc

/-- The back stands at a pending fault until it is taken. -/
theorem backStep_fault (h : s.program k = some (x, y)) {b : BackItem} {l : List BackItem} (hy : y.back = b :: l)
    (hgot : b.got = none) {st : Status} {a : DWord} {cva host : Bool} (hop : b.op = .fault st a cva host) :
    backStep s k = s := by
  have done : backDo s k x y b = s := by
    unfold backDo
    rw [hgot, hop]
    rfl
  have noWrite : itemWrites b = false := by simp [itemWrites, hop]
  unfold backStep
  rw [h]
  dsimp only
  rw [hy]
  dsimp only
  rw [hop]
  dsimp only
  rw [noWrite, if_neg Bool.false_ne_true, done, ite_self]

/-- A program with an empty back rests. -/
theorem streamGo_empty (ha : RunsAlone s k) (h : s.program k = some (x, y)) (hy : y.back = []) : streamGo s (k / 8) = s :=
  streamGo_rests ha (rests_quiet h (quiet_empty hy) (backStep_empty h hy))

end

/-! ## From a row to the effect of its instruction (R156, R159, R173) -/

section
variable {s : State} {m p op i k : Nat} {x : PCtx} {y : Stream}

theorem pctxIndex_mover (m p : Nat) : (m % 32 * 8 + p % 8) / 8 = m % 32 := by omega

/-- The decoder takes the front of a program that rests with an empty back and runs alone on its mover. -/
theorem frontFirst_alone (h : s.program k = some (x, y)) (ha : moverPrograms s (k / 8) = [(k, x)]) (hy : y.back = [])
    (hst : frontStands y = false) (hch : y.check = none) (hcr : y.crossed = false) : frontFirst s k = true := by
  have ready : frontReady s k = true := by
    unfold frontReady
    rw [h, frontReads_quiet h (quiet_empty hy)]
    simp [hst, frontBlocked, hch, hcr, hy]
  unfold frontFirst
  simp [ha, ready]

/-- No word of the store was rewritten since the program's start. -/
theorem taintOn_unchanged (h : y.changed = []) (i : Nat) : taintOn s k y i = s := by
  unfold taintOn
  rw [h]
  exact if_neg (by simp)

theorem Fetches.program (h : Fetches s m p op x y i) : s.program (m % 32 * 8 + p % 8) = some (x, y) := h.1

theorem Fetches.back (h : Fetches s m p op x y i) : y.back = [] := by
  obtain ⟨-, -, back, -⟩ := h
  exact back

theorem Fetches.waits (h : Fetches s m p op x y i) : backWaits x = false := by
  obtain ⟨-, -, -, -, -, -, waits, -⟩ := h
  exact waits

theorem Fetches.alone (h : Fetches s m p op x y i) : RunsAlone s (m % 32 * 8 + p % 8) := by
  obtain ⟨-, alone, -⟩ := h
  exact runsAlone_of_moverPrograms (by rwa [pctxIndex_mover])

/-- An instruction that a program context fetches takes its row's effect; then the mover's programs go on. -/
theorem rowOf_fetches (hl : Live s dFAB) (h : Fetches s m p op x y i)
    (eff : State → Nat → PCtx → Stream → Nat → State) :
    rowOf m p op eff s = .next (streamGo (eff s (m % 32 * 8 + p % 8) x y i) (m % 32)) := by
  have rests : streamGo s (m % 32) = s := pctxIndex_mover m p ▸ streamGo_empty h.alone h.program h.back
  obtain ⟨program, alone, back, moves, check, crossed, -, words, changed, good, ins, opcode⟩ := h
  have first : frontFirst s (m % 32 * 8 + p % 8) = true :=
    frontFirst_alone program (by rwa [pctxIndex_mover]) back moves check crossed
  unfold rowOf
  rw [gateIn_live hl]
  unfold streamRow
  dsimp only
  rw [rests, program]
  dsimp only
  rw [first, if_neg (by decide), good]
  dsimp only
  rw [tableReads_clean words, ← ins]
  dsimp only
  rw [taintOn_unchanged changed, if_pos opcode]

/-- An instruction that only the front executes changes the front and nothing else. -/
theorem rowOf_front (hl : Live s dFAB) (h : Fetches s m p op x y i) {g : State → PCtx → Stream → Nat → Step1} {f : Front}
    (hg : g s x y i = .go f []) :
    rowOf m p op (pureEff g) s = .next (s.setPctx (m % 32 * 8 + p % 8) (x.running { y with front := f })) := by
  have eff : pureEff g s (m % 32 * 8 + p % 8) x y i =
      s.setPctx (m % 32 * 8 + p % 8) (x.running { y with front := f }) := by
    unfold pureEff
    rw [hg]
    refine (onStream_program h.program _).trans ?_
    rw [List.map_nil, List.append_nil]
  have rests := streamGo_empty (h.alone.setPctx h.program { y with front := f }) (program_setPctx h.program s _) h.back
  rw [pctxIndex_mover] at rests
  rw [rowOf_fetches hl h, eff, rests]

end

end Sys2Proof.Machine


/-! SUPPORT. The instructions that only the front of a stream program executes (R160 to R162, R177): the registers that each
reads back, and the result that each decodes to. -/

namespace Sys2Proof.Machine

/-! ## The registers of a front (Table 7.1) -/

section
variable (f : Front) (i v : Nat)

theorem ra_setA_same : (f.setA i v).ra i = v % 2 ^ 48 := tget_tset_same ..

theorem ra_setA_other {j : Nat} (h : j ≠ i) : (f.setA i v).ra j = f.ra j := tget_tset_other _ _ _ _ _ _ h

theorem rn_setN_same : (f.setN i v).rn i = v % 2 ^ 32 := tget_tset_same ..

theorem setR_a {r : Nat} (h : r < 16) : f.setR r v = f.setA r v := if_pos h

theorem setR_n {r : Nat} (h : 16 ≤ r) : f.setR r v = f.setN (r - 16) v := if_neg (by omega)

theorem rr_a {r : Nat} (h : r < 16) : f.rr r = f.ra r := if_pos h

theorem rr_n {r : Nat} (h : 16 ≤ r) : f.rr r = f.rn (r - 16) := if_neg (by omega)

end

theorem toCode_lt_pow (x : Int) (w : Nat) : toCode x w < 2 ^ w := by
  unfold toCode
  have pos : (0 : Int) < ((2 ^ w : Nat) : Int) := by positivity
  have lt := Int.emod_lt_of_pos x pos
  have nonneg := Int.emod_nonneg x pos.ne'
  omega

theorem toCode_mod (x : Int) (w : Nat) : toCode x w % 2 ^ w = toCode x w := Nat.mod_eq_of_lt (toCode_lt_pow x w)

theorem toCode_int (x : Int) (w : Nat) : (toCode x w : Int) = x % 2 ^ w := by
  unfold toCode
  rw [Int.toNat_of_nonneg (Int.emod_nonneg x (by positivity))]
  push_cast
  rfl

theorem toCode_nat (n w : Nat) : toCode (n : Int) w = n % 2 ^ w := by
  have h := toCode_int (n : Int) w
  exact_mod_cast h

/-! ## ADDA (R160) -/

/-- The increment of an ADDA: a scaled n register, or an immediate. -/
def addaBy (f : Front) (i : Nat) : Int :=
  if bit i 11 then ((f.rn (bits i 12 3) * 2 ^ bits i 15 5 : Nat) : Int) else signed (bits i 20 32) 32

theorem addaGo_a (s : State) (x : PCtx) (y : Stream) {i : Nat} (h : bits i 6 5 < 16) :
    addaGo s x y i = .go (y.front.setA (bits i 6 5)
      (toCode ((y.front.ra (bits i 6 5) : Int) + addaBy y.front i) 48)).stepped [] := by
  unfold addaGo
  dsimp only
  rw [if_pos h, setR_a _ _ h, rr_a _ h]
  rfl

theorem addaGo_n (s : State) (x : PCtx) (y : Stream) {i : Nat} (h : 16 ≤ bits i 6 5) :
    addaGo s x y i = .go (y.front.setN (bits i 6 5 - 16)
      (toCode ((y.front.rn (bits i 6 5 - 16) : Int) + addaBy y.front i) 32)).stepped [] := by
  unfold addaGo
  dsimp only
  rw [if_neg (Nat.not_lt.mpr h), setR_n _ _ h, rr_n _ h]
  rfl

/-- A register of w bits advanced by an ADDA. -/
theorem toCode_addaBy (f : Front) (i v w : Nat) :
    (bit i 11 = true → toCode ((v : Int) + addaBy f i) w = (v + f.rn (bits i 12 3) * 2 ^ bits i 15 5) % 2 ^ w) ∧
    (bit i 11 = false → (toCode ((v : Int) + addaBy f i) w : Int) = ((v : Int) + signed (bits i 20 32) 32) % 2 ^ w) := by
  unfold addaBy
  constructor <;> intro h
  · rw [h, if_pos rfl, ← toCode_nat]
    push_cast
    rfl
  · rw [h, if_neg Bool.false_ne_true, toCode_int]

/-! ## LOOP and ENDL (R161, R162) -/

/-- The trips of a LOOP: an n register, or an immediate. -/
def loopTrips (f : Front) (i : Nat) : Nat := if bit i 6 then f.rn (bits i 7 3) else bits i 20 32 + 1

section
variable {s : State} {y : Stream} {i : Nat} (x : PCtx)
  (room : y.front.levels.length < 6) (ends : bits (s.instr (y.front.pc + bits i 10 10)).toNat 0 6 = 0x04)
include room ends

theorem loopGo_skips (h : loopTrips y.front i = 0) :
    loopGo s x y i = .go { y.front with pc := y.front.pc + bits i 10 10 + 1 } [] := by
  unfold loopTrips at h
  unfold loopGo
  dsimp only
  rw [if_neg (by omega), if_pos h]

theorem loopGo_enters (h : 0 < loopTrips y.front i) :
    loopGo s x y i = .go { y.front with
      pc := y.front.pc + 1,
      levels := { trips := loopTrips y.front i, body := y.front.pc + 1, endl := y.front.pc + bits i 10 10 } ::
        y.front.levels } [] := by
  unfold loopTrips at h
  unfold loopGo
  dsimp only
  rw [if_neg (by omega), if_neg (by omega)]
  rfl

end

/-- An a register with its stride of a depth of another front added. -/
def strideAdded (f : Front) (d : Nat) (g : Front) (r : Nat) : Front :=
  g.setA r (toCode ((g.ra r : Int) + tget 0 f.strides (6 * r + d)) 48)

/-- The strides of the first n registers are added one after another, each once. -/
theorem foldl_strideAdded_ra (f : Front) (d n a : Nat) :
    ((((List.range n).foldl (strideAdded f d) f).ra a : Nat) : Int) =
      if a < n then ((f.ra a : Int) + tget 0 f.strides (6 * a + d)) % 2 ^ 48 else (f.ra a : Int) := by
  induction n with
  | zero => rfl
  | succ n ih =>
    rw [List.range_succ, List.foldl_append, List.foldl_cons, List.foldl_nil, strideAdded]
    by_cases ha : a = n
    · subst ha
      rw [ra_setA_same, toCode_mod, toCode_int, ih, if_neg (lt_irrefl a), if_pos (Nat.lt_succ_self a)]
    · rw [ra_setA_other _ _ _ ha, ih]
      exact if_congr (by omega) rfl rfl

/-- Strides change a registers only. -/
theorem foldl_strideAdded_frame (f : Front) (d : Nat) (l : List Nat) (g : Front) :
    l.foldl (strideAdded f d) g = { g with a := (l.foldl (strideAdded f d) g).a } := by
  induction l generalizing g with
  | nil => rfl
  | cons r l ih => exact ih (strideAdded f d g r)

theorem addStrides_a (f : Front) (d : Nat) {a : Nat} (h : a < 16) :
    ((tget 0 (addStrides f d).a a : Nat) : Int) = ((f.ra a : Int) + tget 0 f.strides (6 * a + d)) % 2 ^ 48 :=
  (foldl_strideAdded_ra f d 16 a).trans (if_pos h)

theorem addStrides_frame (f : Front) (d : Nat) : addStrides f d = { f with a := (addStrides f d).a } :=
  foldl_strideAdded_frame f d (List.range 16) f

section
variable (s : State) (x : PCtx) {y : Stream} {l : Level} {r : List Level} (i : Nat)
  (levels : y.front.levels = l :: r) (here_ : l.endl = y.front.pc)
include levels here_

theorem endlGo_repeats (h : 1 < l.trips) :
    endlGo s x y i = .go { y.front with
      a := (addStrides y.front r.length).a, pc := l.body, levels := { l with trips := l.trips - 1 } :: r } [] := by
  unfold endlGo
  rw [levels]
  dsimp only
  rw [if_neg (not_not_intro here_), if_pos h, addStrides_frame]

theorem endlGo_leaves (h : l.trips ≤ 1) :
    endlGo s x y i = .go { y.front with
      a := (addStrides y.front r.length).a, pc := y.front.pc + 1, levels := r } [] := by
  unfold endlGo
  rw [levels]
  dsimp only
  rw [if_neg (not_not_intro here_), if_neg (Nat.not_lt.mpr h), addStrides_frame]

end

/-! ## SEAM (R177) -/

theorem seamGo_guard (s : State) (x : PCtx) {y : Stream} (i : Nat) (h : y.crossed = false) :
    seamGo s x y i = .go { y.front with guardSet := seamPut y.front i y.front.guardSet }.stepped [] := by
  unfold seamGo
  dsimp only
  rw [h, if_neg Bool.false_ne_true]

/-- A SEAM with NONE set declares no range. -/
theorem seamPut_none (f : Front) {i : Nat} (c : SeamSet) (h : bit i 16 = true) : (seamPut f i c).ranges = c.ranges := by
  unfold seamPut
  exact if_pos h

/-- A SEAM with NONE clear declares the granules of its range. -/
theorem seamPut_range (f : Front) {i : Nat} (c : SeamSet) (h : bit i 16 = false) :
    ∃ lo hi, tfind (seamPut f i c).ranges (bits i 6 3) = some (lo, hi) ∧ lo = f.ra (bits i 9 4) / 128 * 128 ∧
      (f.rn (bits i 13 3) = 0 → hi = lo) ∧
      (0 < f.rn (bits i 13 3) → f.ra (bits i 9 4) + f.rn (bits i 13 3) ≤ hi) := by
  refine ⟨_, if f.rn (bits i 13 3) = 0 then f.ra (bits i 9 4) / 128 * 128
    else (f.ra (bits i 9 4) + f.rn (bits i 13 3) + 127) / 128 * 128, ?_, rfl, fun h0 => if_pos h0, fun hn => ?_⟩
  · unfold seamPut
    dsimp only
    rw [h, if_neg Bool.false_ne_true]
    exact tfind_tput_same ..
  · rw [if_neg (by omega)]
    omega

/-- Settles O34: each instruction by the result that its row decodes to. -/
theorem streamRegisters : Obligations.StreamRegisters := by
  unfold Obligations.StreamRegisters
  refine ⟨?seta, ?addaA, ?addaN, ?stride, ?loop, ?endl, ?guard, ?declare⟩
  case seta =>
    intro s m p i x y hl hf
    exact rowOf_front hl hf rfl
  case addaA =>
    intro s m p i x y hl hf hr
    obtain ⟨scaled, immediate⟩ := toCode_addaBy y.front i (y.front.ra (bits i 6 5)) 48
    have same := (ra_setA_same y.front (bits i 6 5) _).trans
      (toCode_mod ((y.front.ra (bits i 6 5) : Int) + addaBy y.front i) 48)
    exact ⟨_, rowOf_front hl hf (addaGo_a s x y hr), rfl, rfl, rfl, rfl, fun h => same.trans (scaled h),
      fun h => (congrArg Nat.cast same).trans (immediate h), fun r h => ra_setA_other _ _ _ h⟩
  case addaN =>
    intro s m p i x y hl hf hr
    obtain ⟨scaled, immediate⟩ := toCode_addaBy y.front i (y.front.rn (bits i 6 5 - 16)) 32
    have same := (rn_setN_same y.front (bits i 6 5 - 16) _).trans
      (toCode_mod ((y.front.rn (bits i 6 5 - 16) : Int) + addaBy y.front i) 32)
    exact ⟨_, rowOf_front hl hf (addaGo_n s x y hr), rfl, rfl, fun h => same.trans (scaled h),
      fun h => (congrArg Nat.cast same).trans (immediate h)⟩
  case stride =>
    intro s m p i x y hl hf
    exact ⟨_, rowOf_front hl hf rfl, rfl, rfl, rfl, rfl, tget_tset_same ..⟩
  case loop =>
    intro s m p i x y hl hf room ends
    rcases Nat.eq_zero_or_pos (loopTrips y.front i) with none_ | some_
    · exact ⟨_, _, rowOf_front hl hf (loopGo_skips x room ends none_), rfl, rfl, rfl, fun _ => ⟨rfl, rfl⟩,
        fun h => absurd h (Nat.not_lt.mpr none_.le)⟩
    · exact ⟨_, _, rowOf_front hl hf (loopGo_enters x room ends some_), rfl, rfl, rfl,
        fun h => absurd h some_.ne', fun _ => ⟨rfl, _, rfl, rfl, rfl, rfl⟩⟩
  case endl =>
    intro s m p i x y l r hl hf levels here_
    rcases Nat.lt_or_ge 1 l.trips with more | last
    · exact ⟨_, rowOf_front hl hf (endlGo_repeats s x i levels here_ more), fun a ha => addStrides_a _ _ ha, rfl,
        fun _ => ⟨rfl, rfl⟩, fun h => absurd more (Nat.not_lt.mpr h)⟩
    · exact ⟨_, rowOf_front hl hf (endlGo_leaves s x i levels here_ last), fun a ha => addStrides_a _ _ ha, rfl,
        fun h => absurd h (Nat.not_lt.mpr last), fun _ => ⟨rfl, rfl⟩⟩
  case guard =>
    intro s m p i x y hl hf crossed
    exact ⟨_, rowOf_front hl hf (seamGo_guard s x i crossed), rfl, rfl, rfl, rfl, rfl, seamPut_none _ _, seamPut_range _ _⟩
  case declare =>
    intro s m p i x y hl hf crossed
    obtain ⟨-, -, -, -, -, closed, -⟩ := hf
    exact absurd (crossed.symm.trans closed) (by decide)

end Sys2Proof.Machine


/-! SUPPORT. The ends of a program (R163, R164, R174 to R181): HALT, NEXT from its front to its retirement, the squash of what ran
ahead on the wrong path, a pending fault, and a front that may not go on. -/

namespace Sys2Proof.Machine

/-! ## HALT (R164) -/

section
variable {s : State} {k : Nat} {x : PCtx} {y : Stream}

/-- The back ends the command at HALT. -/
theorem backStep_halt (h : s.program k = some (x, y)) {b : BackItem} {l : List BackItem} (hy : y.back = b :: l)
    (hw : backWaits x = false) (hgot : b.got = none) (hop : b.op = .halt) :
    backStep s k = onStream (pctxDone s k .ok) k (fun y => { y with back := [], stage := [], folds := [] }) := by
  rw [backStep_performs h hy hw (by simp [itemReads, hop]) (by simp [itemWrites, hop]) (by simp [isNext, hop])]
  unfold backDo
  rw [hgot, hop]
  rfl

/-- A change of a done command's program leaves the command done. -/
theorem onStream_pctxDone (h : s.pctx k = some x) (hst : x.status = none) (f : Stream → Stream) :
    (onStream (pctxDone s k .ok) k f).program k = none ∧ DoneOk (onStream (pctxDone s k .ok) k f) k ∧
    onStream (pctxDone s k .ok) k f = { s with
      work := { s.work with pctxs := (onStream (pctxDone s k .ok) k f).work.pctxs },
      regu := (onStream (pctxDone s k .ok) k f).regu } := by
  obtain ⟨l, done⟩ := pctxDone_some h .ok
  have eq : onStream (pctxDone s k .ok) k f = ((withWaiting s l).setPctx k (x.ended s.clk.tc .ok)).setPctx k
      { x.ended s.clk.tc .ok with stream := x.stream.map f } := by
    unfold onStream
    rw [pctx_pctxDone h, done]
    rfl
  rw [eq]
  refine ⟨?_, ⟨_, pctx_set_same .., rfl, rfl, hst⟩, rfl⟩
  unfold State.program
  rw [pctx_set_same]
  rfl

end

/-! ## The front at a NEXT (R163, R176, R178, R179) -/

/-- A program whose front met a NEXT: its item for the back, whether the front crossed it, the front that a squash goes back to,
and the front as it is now. -/
def Stream.metNext (y : Stream) (op : BackOp) (cross : Bool) (check : Option Front) (f : Front) : Stream :=
  { y with back := [itemAt y.front op], crossed := cross, check := check, front := f }

/-- A front that neither crossed a NEXT nor speculates stands at the NEXT, its item at the back. -/
theorem metNext_stands {y : Stream} (hch : y.check = none) (hcr : y.crossed = false) (op : BackOp) :
    y.metNext op false none y.front = { y with back := [itemAt y.front op] } := by
  unfold Stream.metNext
  rw [← hch, ← hcr]

/-- The item of a NEXT whose condition the front resolves. -/
def earlyNext (y : Stream) (i : Nat) : BackOp :=
  .next (if frontTaken y.front i then 0 else 1) 0 (bits i 6 15) (y.front.pc + 1) (frontTaken y.front i)

/-- The item of a NEXT on a flag. -/
def flagNext (y : Stream) (i g : Nat) : BackOp :=
  .next (bits i 21 3) g (bits i 6 15) (y.front.pc + 1) (bit i 41)

/-- Whether the front crosses a NEXT on a flag ahead of its retirement. -/
def predicts (s : State) (y : Stream) : Bool := y.front.guardSet.isOpen && s.rgBit Reg.strmCfg 16

section
variable {s : State} {k : Nat} {x : PCtx} {y : Stream} {i : Nat}

theorem nextEff_early (h : s.program k = some (x, y)) (hy : y.back = []) (hlev : y.front.levels = [])
    (hc : bits i 21 3 ≤ 2) :
    nextEff s k x y i = s.setPctx k (x.running (y.metNext (earlyNext y i) y.front.guardSet.isOpen none
      (if y.front.guardSet.isOpen then nextFront y.front (frontTaken y.front i) (bits i 6 15) else y.front))) := by
  have early : (bits i 21 3 == 3 || bits i 21 3 == 4) = false := by
    simp only [Bool.or_eq_false_iff, beq_eq_false_iff_ne]
    omega
  unfold nextEff
  dsimp only
  rw [hlev, early]
  simp only [List.isEmpty_nil, Bool.not_true, Bool.false_eq_true, if_false, Bool.not_false, Bool.true_or, Bool.and_true,
    Bool.and_false]
  rw [onStream_program h, hy]
  rfl

theorem nextEff_flag {g : Nat} (h : s.program k = some (x, y)) (hy : y.back = []) (hlev : y.front.levels = [])
    (hc : bits i 21 3 = 3 ∨ bits i 21 3 = 4) (hg : flagOfIndex s (dCtx x.desc) (bits i 27 14) = some g) :
    nextEff s k x y i = s.setPctx k (x.running (y.metNext (flagNext y i g) (predicts s y)
      (if predicts s y then some y.front else none)
      (if predicts s y then nextFront y.front (bit i 41) (bits i 6 15) else y.front))) := by
  have late : (bits i 21 3 == 3 || bits i 21 3 == 4) = true := by simpa using hc
  unfold nextEff
  dsimp only
  rw [hlev, late]
  simp only [List.isEmpty_nil, Bool.not_true, Bool.false_eq_true, if_false, if_true, hg, Bool.false_or, Bool.and_true]
  rw [onStream_program h, hy]
  rfl

end

/-! ## The back at a NEXT (R163, R179, R180) -/

/-- The item of a NEXT whose condition is resolved. -/
def resolvedNext (b : BackItem) (taken : Bool) (flag target notTaken : Nat) (pred : Bool) : BackItem :=
  { b with op := .next (if taken then 0 else 1) flag target notTaken pred }

/-- Whether a NEXT is taken by its flag. -/
def flagTakes (s : State) (flag c : Nat) : Bool := (s.flag flag).value == (c == 3)

section
variable {s : State} {k : Nat} {x : PCtx} {y : Stream} {b : BackItem} {c flag target nt : Nat} {pred : Bool}

theorem resolves_le (taken : Bool) : (if taken then 0 else 1) ≤ 2 := by cases taken <;> decide

/-- A program whose only item is a NEXT that is resolved rests. -/
theorem rests_next (h : s.program k = some (x, y)) (hy : y.back = [b]) (hop : b.op = .next c flag target nt pred)
    (hc : c ≤ 2) : Rests s k :=
  rests_quiet h (quiet_single hy (by simp [isWaitf, hop]) (by simp [itemReads, hop])) (backStep_next h hy hop hc)

theorem nextResolve_right {f : Front} (h : s.program k = some (x, y)) (hch : y.check = some f)
    (right : flagTakes s flag c = pred) :
    nextResolve s k y b c flag target nt pred = s.setPctx k (x.running { y with
      check := none, back := resolvedNext b (flagTakes s flag c) flag target nt pred :: y.back.drop 1 }) := by
  unfold flagTakes at *
  unfold nextResolve
  dsimp only
  rw [hch]
  dsimp only
  rw [if_pos right, onStream_program h]
  rfl

theorem nextResolve_wrong {f : Front} (hch : y.check = some f) (wrong : flagTakes s flag c ≠ pred) :
    nextResolve s k y b c flag target nt pred =
      squash s k y f (resolvedNext b (flagTakes s flag c) flag target nt pred) (flagTakes s flag c) target := by
  unfold flagTakes at *
  unfold nextResolve
  dsimp only
  rw [hch]
  exact if_neg wrong

/-- A front that waited at a NEXT stays there behind a closed seam, and crosses it behind an open one. -/
theorem nextResolve_waited (h : s.program k = some (x, y)) (hch : y.check = none) (hcr : y.crossed = false) :
    nextResolve s k y b c flag target nt pred = s.setPctx k (x.running { y with
      back := resolvedNext b (flagTakes s flag c) flag target nt pred :: y.back.drop 1,
      crossed := y.front.guardSet.isOpen,
      front := if y.front.guardSet.isOpen then nextFront y.front (flagTakes s flag c) target else y.front }) := by
  unfold nextResolve
  dsimp only
  rw [hch]
  dsimp only
  rw [onStream_program h]
  simp only [hcr, hch, Bool.not_false, Bool.and_true, Bool.false_or]
  rfl

/-- The back resolves a NEXT on a flag, and the program rests there. -/
theorem streamGo_resolves (ha : RunsAlone s k) (h : s.program k = some (x, y)) (hq : BackQuiet y) (hw : backWaits x = false)
    {l : List BackItem} (hy : y.back = b :: l) (hop : b.op = .next c flag target nt pred) (hc : c = 3 ∨ c = 4) {z : PCtx}
    {v : Stream} (hprog : (nextResolve s k y b c flag target nt pred).program k = some (z, v))
    (hv : v.back = [resolvedNext b (flagTakes s flag c) flag target nt pred]) :
    streamGo s (k / 8) = nextResolve s k y b c flag target nt pred := by
  have step := backStep_resolves h hy hw hop hc
  rw [streamGo_step ha h hq (step.symm ▸ rests_next hprog hv rfl (resolves_le _)), step]

end

/-! ## A squash (R180) -/

theorem issueWaits_unwait (s : State) (k : Nat) (back : Bool) (src : Nat) :
    issueWaits (unwait s (.pctx k back)) src = issueWaits s src := by
  unfold unwait
  split
  · rfl
  · unfold issueWaits
    dsimp only
    rw [List.any_filter]
    refine congrArg (fun p => s.regu.waiting.any p) (funext fun w => ?_)
    cases w.who <;> simp [Issuer.same]

/-- The waits of a release look at the issue points, the ports and the flights. -/
theorem releaseReady_congr {s t : State} {src : Nat} (hi : issueWaits t src = issueWaits s src) (hp : t.ports = s.ports)
    (hd : t.pwr.dieId = s.pwr.dieId) (hm : t.mesh.flights = s.mesh.flights) (scope before : Nat) :
    releaseReady t src scope before = releaseReady s src scope before := by
  unfold releaseReady beatsDue
  rw [hi, hp, hd, hm]

/-- A program squashed to a NEXT, its front on the path that is right. -/
def Stream.squashed (y : Stream) (f : Front) (b : BackItem) (taken : Bool) (target : Nat) : Stream :=
  { y with back := [b], check := none, halted := false, front := nextFront f taken target }

section
variable {s : State} {k : Nat} {x : PCtx} {y : Stream} (h : s.program k = some (x, y)) (f : Front) (b : BackItem)
  (taken : Bool) (target : Nat)
include h

/-- A squash changes the program, what waits at the issue points, and the counts. -/
theorem squash_eq : ∃ l, sansCount (squash s k y f b taken target) =
    sansCount ((withWaiting s l).setPctx k (x.running (y.squashed f b taken target))) ∧
    ∀ src, issueWaits (withWaiting s l) src = issueWaits s src := by
  obtain ⟨l, hl⟩ := unwait_eq s (.pctx k false)
  refine ⟨l, ?_, fun src => hl ▸ issueWaits_unwait s k false src⟩
  have program : (withWaiting s l).program k = some (x, y) := h
  unfold squash
  dsimp only
  rw [sansCount_countEvent, sansCount_countEvent, hl, onStream_program program]
  rfl

theorem squash_pctxs : (squash s k y f b taken target).work.pctxs =
    (s.setPctx k (x.running (y.squashed f b taken target))).work.pctxs := by
  obtain ⟨l, e, -⟩ := squash_eq h f b taken target
  exact (congrArg (fun t : State => t.work.pctxs) e :)

theorem squash_program :
    (squash s k y f b taken target).program k =
      some (x.running (y.squashed f b taken target), y.squashed f b taken target) :=
  (program_of_pctxs (squash_pctxs h f b taken target) k).trans (program_setPctx h s _)

theorem sameMem_squash : SameMem s (squash s k y f b taken target) := by
  obtain ⟨l, e, -⟩ := squash_eq h f b taken target
  rw [eq_of_sansCount e]
  exact fun _ => ⟨rfl, rfl, rfl, rfl⟩

/-- A squash withdraws reads, which no release of the context waits for. -/
theorem releaseReady_squash (src scope before : Nat) :
    releaseReady (squash s k y f b taken target) src scope before = releaseReady s src scope before := by
  obtain ⟨l, e, waits⟩ := squash_eq h f b taken target
  rw [eq_of_sansCount e]
  exact releaseReady_congr (waits src) rfl rfl rfl scope before

theorem pctxSrc_squash : pctxSrc (squash s k y f b taken target) k = pctxSrc s k := by
  obtain ⟨l, e, -⟩ := squash_eq h f b taken target
  exact (congrArg (fun t : State => pctxSrc t k) e :)

end

/-- The back that reads the flag of a NEXT whose path was wrongly predicted squashes what ran ahead. -/
theorem streamGo_squashes {s : State} {k : Nat} {x : PCtx} {y : Stream} {f : Front} {b : BackItem} {l : List BackItem}
    {c flag target nt : Nat} {pred : Bool} (ha : RunsAlone s k) (h : s.program k = some (x, y)) (hq : BackQuiet y)
    (hw : backWaits x = false) (hch : y.check = some f) (hy : y.back = b :: l) (hop : b.op = .next c flag target nt pred)
    (hc : c = 3 ∨ c = 4) (wrong : flagTakes s flag c ≠ pred) : ∃ b',
    streamGo s (k / 8) = squash s k y f b' (flagTakes s flag c) target ∧
      b'.op = .next (if flagTakes s flag c then 0 else 1) flag target nt pred := by
  have resolve := nextResolve_wrong (k := k) (b := b) (target := target) (nt := nt) hch wrong
  have squashed := squash_program h f (resolvedNext b (flagTakes s flag c) flag target nt pred) (flagTakes s flag c) target
  exact ⟨_, (streamGo_resolves ha h hq hw hy hop hc (resolve ▸ squashed) rfl).trans resolve, rfl⟩

/-! ## The retirement of a NEXT (R176, R177) -/

/-- A program whose NEXT is retired. -/
def Stream.retired (y : Stream) (taken : Bool) (target : Nat) : Stream :=
  { y with back := [], crossed := false, front := seamShift (if y.crossed then y.front else nextFront y.front taken target) }

section
variable {s : State} {m p k : Nat} {x : PCtx} {y : Stream}

theorem exec_nextRetire (hl : Live s dFAB) (hk : k = m % 32 * 8 + p % 8) :
    exec (.nextRetire m p) s = .next (retireAt (streamGo s (m % 32)) k) := by
  subst hk
  exact gateIn_live hl (fun s => retireAt (streamGo s (m % 32)) (m % 32 * 8 + p % 8))

/-- The only item of a back, a NEXT, retires, and the next program goes on with an empty back. -/
theorem retireAt_next (h : s.program k = some (x, y)) (ha : RunsAlone s k) {b : BackItem} (hy : y.back = [b])
    {c flag target nt : Nat} {pred : Bool} (hop : b.op = .next c flag target nt pred)
    (hr : releaseReady s (pctxSrc s k) 1 = true) :
    retireAt s k = s.setPctx k (x.running (y.retired (c == 0) target)) := by
  have retires : nextRetire s k (c == 0) target = s.setPctx k (x.running (y.retired (c == 0) target)) := by
    unfold nextRetire
    rw [onStream_program h, hy]
    rfl
  obtain ⟨op, pc, prog, got, reads, writes⟩ := b
  obtain rfl : op = .next c flag target nt pred := hop
  unfold retireAt
  rw [h]
  dsimp only
  rw [hy]
  dsimp only
  rw [if_pos hr, retires]
  exact streamGo_empty (ha.setPctx h _) (program_setPctx h s _) rfl

end

/-! ## NEXT from its fetch to its resolution (R163, R178, R179) -/

section
variable {s : State} {m p i k g : Nat} {x : PCtx} {y : Stream}

theorem exec_next (hl : Live s dFAB) (hk : k = m % 32 * 8 + p % 8) (hf : Fetches s m p 0x02 x y i) :
    exec (.next m p) s = .next (streamGo (nextEff s k x y i) (k / 8)) := by
  subst hk
  rw [pctxIndex_mover]
  exact rowOf_fetches hl hf nextEff

variable (hk : k = m % 32 * 8 + p % 8) (hf : Fetches s m p 0x02 x y i) (hlev : y.front.levels = [])
include hk hf hlev

/-- A NEXT whose condition the front resolves stays at the back until it retires. -/
theorem streamGo_earlyNext (hc : bits i 21 3 ≤ 2) :
    streamGo (nextEff s k x y i) (k / 8) =
      s.setPctx k (x.running (y.metNext (earlyNext y i) y.front.guardSet.isOpen none
        (if y.front.guardSet.isOpen then nextFront y.front (frontTaken y.front i) (bits i 6 15) else y.front))) := by
  subst hk
  rw [nextEff_early hf.program hf.back hlev hc]
  exact streamGo_rests (hf.alone.setPctx hf.program _)
    (rests_next (program_setPctx hf.program s _) rfl rfl (resolves_le _))

variable (hc : bits i 21 3 = 3 ∨ bits i 21 3 = 4) (hg : flagOfIndex s (dCtx x.desc) (bits i 27 14) = some g)
include hc hg

/-- A front that does not predict waits at a NEXT on a flag until the back has read it. -/
theorem streamGo_flagNext_waits (hp : predicts s y = false) : ∃ u : State,
    streamGo (nextEff s k x y i) (k / 8) = u.setPctx k (x.running (y.metNext
      (.next (if flagTakes s g (bits i 21 3) then 0 else 1) g (bits i 6 15) (y.front.pc + 1) (bit i 41))
      y.front.guardSet.isOpen none
      (if y.front.guardSet.isOpen then nextFront y.front (flagTakes s g (bits i 21 3)) (bits i 6 15) else y.front))) ∧
    u = { s with work := { s.work with pctxs := u.work.pctxs } } := by
  subst hk
  have program := hf.program
  have eff := nextEff_flag program hf.back hlev hc hg
  rw [hp, if_neg Bool.false_ne_true, if_neg Bool.false_ne_true] at eff
  have met := program_setPctx program s (y.metNext (flagNext y i g) false none y.front)
  have resolve := nextResolve_waited (b := itemAt y.front (flagNext y i g)) (c := bits i 21 3) (flag := g)
    (target := bits i 6 15) (nt := y.front.pc + 1) (pred := bit i 41) met rfl rfl
  rw [eff, streamGo_resolves (hf.alone.setPctx program _) met (quiet_single rfl rfl rfl) hf.waits rfl rfl hc
    (resolve ▸ program_setPctx met _ _) rfl, resolve]
  exact ⟨_, rfl, rfl⟩

/-- A front that predicts has crossed a NEXT on a flag, and is on the path that the flag gives once the back has read it. -/
theorem streamGo_flagNext_predicts (hp : predicts s y = true) : ∃ v,
    Runs (streamGo (nextEff s k x y i) (k / 8)) k v ∧ v.crossed = true ∧ v.check = none ∧
      v.front = nextFront y.front (flagTakes s g (bits i 21 3)) (bits i 6 15) ∧
      SameMem s (streamGo (nextEff s k x y i) (k / 8)) := by
  subst hk
  have program := hf.program
  have eff := nextEff_flag program hf.back hlev hc hg
  rw [hp, if_pos rfl, if_pos rfl] at eff
  have met := program_setPctx program s (y.metNext (flagNext y i g) true (some y.front)
    (nextFront y.front (bit i 41) (bits i 6 15)))
  have alone := hf.alone.setPctx program (y.metNext (flagNext y i g) true (some y.front)
    (nextFront y.front (bit i 41) (bits i 6 15)))
  rw [eff]
  by_cases right : flagTakes s g (bits i 21 3) = bit i 41
  · have resolve := nextResolve_right (b := itemAt y.front (flagNext y i g)) (target := bits i 6 15)
      (nt := y.front.pc + 1) met rfl right
    have result := program_setPctx met (s.setPctx (m % 32 * 8 + p % 8) (x.running (y.metNext (flagNext y i g) true
      (some y.front) (nextFront y.front (bit i 41) (bits i 6 15)))))
    rw [streamGo_resolves alone met (quiet_single rfl rfl rfl) hf.waits rfl rfl hc (resolve ▸ result _) rfl, resolve]
    exact ⟨_, runs_of_program (result _), rfl, rfl, by rw [right]; rfl, fun _ => ⟨rfl, rfl, rfl, rfl⟩⟩
  · have resolve := nextResolve_wrong (s := s.setPctx (m % 32 * 8 + p % 8) (x.running (y.metNext (flagNext y i g) true
      (some y.front) (nextFront y.front (bit i 41) (bits i 6 15))))) (k := m % 32 * 8 + p % 8)
      (b := itemAt y.front (flagNext y i g)) (target := bits i 6 15) (nt := y.front.pc + 1)
      (y := y.metNext (flagNext y i g) true (some y.front) (nextFront y.front (bit i 41) (bits i 6 15))) rfl right
    have result := squash_program met y.front
    rw [streamGo_resolves alone met (quiet_single rfl rfl rfl) hf.waits rfl rfl hc (resolve ▸ result _ _ _) rfl, resolve]
    exact ⟨_, runs_of_program (result _ _ _), rfl, rfl, rfl, (sameMem_setPctx _ _ _).trans (sameMem_squash met _ _ _ _)⟩

end

/-! ## A pending fault (R181) -/

section
variable {s : State} {m p k : Nat} {x : PCtx} {y : Stream}

theorem exec_pendingFaultTake (hl : Live s dFAB) (hk : k = m % 32 * 8 + p % 8) :
    exec (.pendingFaultTake m p) s = .next (faultTake (streamGo s (m % 32)) k) := by
  subst hk
  exact gateIn_live hl (fun s => faultTake (streamGo s (m % 32)) (m % 32 * 8 + p % 8))

/-- A program whose first item is a pending fault rests until the fault is taken. -/
theorem rests_fault (h : s.program k = some (x, y)) {b : BackItem} {l : List BackItem} (hy : y.back = b :: l)
    (hgot : b.got = none) {st : Status} {a : DWord} {cva host : Bool} (hop : b.op = .fault st a cva host) : Rests s k := by
  have fails : itemFails b = true := by simp [itemFails, hop]
  have quiet : BackQuiet y := by
    unfold BackQuiet
    rw [hy, List.takeWhile_cons_of_neg (by simp [fails])]
    exact fun _ ha => absurd ha List.not_mem_nil
  exact rests_quiet h quiet (backStep_fault h hy hgot hop)

/-- The state in which a fault's command ends: STRM_FAULTm and STRM_FAULTPm written, nothing of the program left. -/
def faultShown (s : State) (k : Nat) (x : PCtx) (y : Stream) (w prog : Nat) : State :=
  ((s.driveField (Reg.strmFault (k / 8)) 0 32 w).setRg (Reg.strmFaultp (k / 8)) prog).setPctx k
    (x.running { y with back := [], stage := [], folds := [] })

/-- STRM_FAULTm of a fault: V, the program context, the status and the PC (R181). -/
def faultWord (k : Nat) (st : Status) (pc : Nat) : Nat := 2 ^ 31 + k % 8 * 2 ^ 28 + stCode st * 2 ^ 20 + pc % 32768

theorem stCode_lt (st : Status) : stCode st < 128 := by cases st <;> decide

theorem faultWord_lt (k : Nat) (st : Status) (pc : Nat) : faultWord k st pc < 2 ^ 32 := by
  have fits := stCode_lt st
  unfold faultWord
  omega

theorem pctx_faultShown (s : State) (k : Nat) (x : PCtx) (y : Stream) (w prog : Nat) :
    (faultShown s k x y w prog).pctx k = some (x.running { y with back := [], stage := [], folds := [] }) :=
  pctx_set_same ..

theorem onStream_faultShown (h : s.program k = some (x, y)) (w prog : Nat) :
    onStream ((s.driveField (Reg.strmFault (k / 8)) 0 32 w).setRg (Reg.strmFaultp (k / 8)) prog) k
      (fun y => { y with back := [], stage := [], folds := [] }) = faultShown s k x y w prog := by
  have work : ((s.driveField (Reg.strmFault (k / 8)) 0 32 w).setRg (Reg.strmFaultp (k / 8)) prog).work = s.work :=
    (setRg_work ..).trans (driveField_work ..)
  exact onStream_program ((program_of_pctxs (congrArg (fun w => w.pctxs) work) k).trans h) _

theorem faultTake_takes (h : s.program k = some (x, y)) {b : BackItem} {l : List BackItem} (hy : y.back = b :: l)
    {st : Status} {a : DWord} {cva host : Bool} (hop : b.op = .fault st a cva host) :
    faultTake s k = cmdFault (faultShown s k x y (faultWord k st b.pc) b.prog) k x
      { st := st, addr := a.toNat, cva := cva, host := host } := by
  obtain ⟨op, pc, prog, got, reads, writes⟩ := b
  obtain rfl : op = .fault st a cva host := hop
  rw [← onStream_faultShown h]
  unfold faultTake faultWord
  rw [h]
  dsimp only
  rw [hy]

/-- The end of a command with an error changes EVL_LOST alone of the registers. -/
theorem regsBut_cmdFault (s : State) (k : Nat) (x : PCtx) (e : XErr) : RegsBut [Reg.evlLost] s (cmdFault s k x e) := by
  have noted : RegsBut [Reg.evlLost] s (faultNoted s k x e) := by
    unfold faultNoted
    split
    · exact regsBut_refl _ s
    · exact regsBut_ledgerSrc (List.mem_singleton.mpr rfl) (regsBut_refl _ s) _ _ _ _ _
  rw [cmdFault_eq]
  cases hp : (faultNoted s k x e).pctx k with
  | none =>
    rw [pctxDone_none hp]
    exact noted
  | some z =>
    obtain ⟨l, done⟩ := pctxDone_some hp e.st
    rw [done]
    exact regsBut_of_regs rfl noted

theorem rg_faultShown_fault {w : Nat} (hw : w < 2 ^ 32) (prog : Nat) :
    (faultShown s k x y w prog).rg (Reg.strmFault (k / 8)) = w := by
  have field := rgField_setRgField_same s (Reg.strmFault (k / 8)) 0 32 w (by decide)
  have whole (u : State) (o : Nat) : u.rgField o 0 32 = u.rg o := by
    unfold State.rgField bits
    rw [pow_zero, Nat.div_one, Nat.mod_eq_of_lt (rg_lt u o)]
  calc (faultShown s k x y w prog).rg (Reg.strmFault (k / 8))
      = (s.driveField (Reg.strmFault (k / 8)) 0 32 w).rg (Reg.strmFault (k / 8)) :=
        rg_setRg_other _ _ _ _ (by simp only [Reg.strmFault, Reg.strmFaultp]; omega)
    _ = w := by rw [rg_driveField, ← whole, field, Nat.mod_eq_of_lt hw]

theorem rg_faultShown_program (w prog : Nat) :
    (faultShown s k x y w prog).rg (Reg.strmFaultp (k / 8)) = prog % 2 ^ 32 := rg_setRg_same ..

theorem sameMem_faultShown (w prog : Nat) : SameMem s (faultShown s k x y w prog) := fun _ => ⟨rfl, rfl, rfl, rfl⟩

/-- A fault that is taken ends the command with its status, and shows in STRM_FAULTm. -/
theorem faultTake_ends (h : s.program k = some (x, y)) {b : BackItem} {l : List BackItem} (hy : y.back = b :: l)
    {st : Status} {a : DWord} {cva host : Bool} (hop : b.op = .fault st a cva host) (hst : stOk st = false)
    (hx : x.status = none) :
    DoneWith (faultTake s k) k st ∧ (faultTake s k).rg (Reg.strmFault (k / 8)) = faultWord k st b.pc ∧
      (faultTake s k).rg (Reg.strmFaultp (k / 8)) = b.prog % 2 ^ 32 ∧ SameMem s (faultTake s k) := by
  rw [faultTake_takes h hy hop]
  have kept := regsBut_cmdFault (faultShown s k x y (faultWord k st b.pc) b.prog) k x
    { st := st, addr := a.toNat, cva := cva, host := host }
  refine ⟨doneWith_cmdFault (pctx_faultShown s k x y _ _) hx hst x, ?_, ?_,
    (sameMem_faultShown _ _).trans (sameMem_cmdFault _ _ _ _)⟩
  · rw [kept _ (by simp only [Reg.strmFault, Reg.evlLost, List.mem_singleton]; omega),
      rg_faultShown_fault (faultWord_lt k st b.pc)]
  · rw [kept _ (by simp only [Reg.strmFaultp, Reg.evlLost, List.mem_singleton]; omega), rg_faultShown_program]

end

/-! ## An instruction outside its program (R156) -/

section
variable {s : State} {m p op k : Nat} {x : PCtx} {y : Stream}

/-- A program that fetches a rewritten word is tainted, and nothing else changes. -/
theorem taintOn_program (h : s.program k = some (x, y)) (i : Nat) : ∃ z tainted,
    (taintOn s k y i).program k = some (z, { y with tainted := tainted }) ∧ SameMem s (taintOn s k y i) := by
  unfold taintOn
  split
  · rw [onStream_program h]
    exact ⟨_, true, program_setPctx h s _, sameMem_setPctx _ _ _⟩
  · exact ⟨x, y.tainted, h, fun _ => ⟨rfl, rfl, rfl, rfl⟩⟩

/-- The error of a fetch is pending at the back of a program that was empty, and its front stops. -/
theorem frontApply_bad (h : s.program k = some (x, y)) (hy : y.back = []) (i : Nat) (e : XErr) :
    ∃ v, Runs (frontApply (taintOn s k y i) k y (.bad e)) k v ∧ v.halted = true ∧
      v.back = [itemAt y.front (faultItem e)] ∧ SameMem s (frontApply (taintOn s k y i) k y (.bad e)) := by
  obtain ⟨z, tainted, program, mem⟩ := taintOn_program h i
  have pends : frontApply (taintOn s k y i) k y (.bad e) = (taintOn s k y i).setPctx k (z.running
      { y with tainted := tainted, halted := true, back := [itemAt y.front (faultItem e)] }) := by
    refine (onStream_program program _).trans ?_
    rw [hy]
    rfl
  rw [pends]
  exact ⟨_, runs_of_program (program_setPctx program _ _), rfl, rfl, mem.trans (sameMem_setPctx _ _ _)⟩

theorem fetchBad_outside (s : State) (x : PCtx) {f : Front} (h : f.pc < f.prog ∨ f.prog + 1023 < f.pc) :
    fetchBad s x f = some (bareErr .faultProt) := by
  unfold fetchBad
  dsimp only
  rw [if_pos (by omega)]

/-- Any row of a program context whose front may go on meets the error of its fetch. -/
theorem streamRow_bad (eff : State → Nat → PCtx → Stream → Nat → State) {e : XErr} (hgo : streamGo s (m % 32) = s)
    (h : s.program (m % 32 * 8 + p % 8) = some (x, y)) (hf : frontFirst s (m % 32 * 8 + p % 8) = true)
    (hbad : fetchBad s x y.front = some e) :
    streamRow s m p op eff = frontApply (taintOn s (m % 32 * 8 + p % 8) y (s.instr y.front.pc).toNat)
      (m % 32 * 8 + p % 8) y (.bad e) := by
  unfold streamRow
  dsimp only
  rw [hgo, h]
  dsimp only
  rw [hf, if_neg (by decide), hbad]

end

/-! ## A front that may not go on (R174, R176) -/

section
variable {s : State} {m p op k : Nat} {x : PCtx} {y : Stream}

theorem frontReady_stands (h : s.program k = some (x, y)) (hst : frontStands y = true) : frontReady s k = false := by
  unfold frontReady
  rw [h]
  simp [hst]

theorem frontReady_readStops (h : s.program k = some (x, y)) (hr : (frontReads s k).2 = true) : frontReady s k = false := by
  unfold frontReady
  rw [h]
  simp [hr]

/-- A program that keeps 64 items that write stands. -/
theorem frontStands_writes (h : 64 ≤ (y.back.filter itemWrites).length) : frontStands y = true := by
  simp [frontStands, h]

/-- A read that does not fit its allowance is not made. -/
theorem readItem_unfit {before : List BackItem} {b : BackItem} (hne : before ≠ [])
    (hheld : readHeld s k x y before b.op = false)
    (hfit : runFits s k y (before.any isNext) (itemHeld { b with got := some (fetchItem s k x y b.op).2.got }) = false) :
    readItem s k x y before b = (s, some false) := by
  unfold readItem
  rw [hheld, if_neg Bool.false_ne_true]
  dsimp only
  rw [hfit, if_pos (by simpa using hne)]

/-- The reads stop at a read that does not fit, which nothing before it holds up. -/
theorem readPass_stops (h : s.program k = some (x, y)) {b : BackItem} {r : List BackItem} (hb : itemFails b = false)
    (hreads : itemReads b = true) (hgot : b.got = none) (done ahead : List BackItem) (hy : y.back = done ++ ahead ++ b :: r)
    (hahead : ∀ a ∈ ahead, itemFails a = false ∧ (itemReads a = false ∨ a.got.isSome = true))
    (hread : readItem s k x y (done ++ ahead) b = (s, some false)) {f : Nat} (hf : ahead.length < f) :
    (readPass k f done.length s).2 = true := by
  induction ahead generalizing done f with
  | nil =>
    obtain ⟨f, rfl⟩ := Nat.exists_eq_succ_of_ne_zero (Nat.ne_of_gt hf)
    rw [List.append_nil] at hy hread
    unfold readPass
    rw [h]
    dsimp only
    rw [hy, List.drop_left, List.take_left]
    dsimp only
    rw [hb, hreads, hgot, hread]
    rfl
  | cons a l ih =>
    obtain ⟨f, rfl⟩ := Nat.exists_eq_succ_of_ne_zero (Nat.ne_zero_of_lt hf)
    obtain ⟨⟨hfails, hskip⟩, hl⟩ := List.forall_mem_cons.mp hahead
    have skip : (!itemReads a || a.got.isSome) = true := by simpa using hskip
    have rest : done ++ a :: l = (done ++ [a]) ++ l := by simp
    have next := ih (done ++ [a]) (rest ▸ hy) hl (rest ▸ hread) (f := f) (by simpa using hf)
    unfold readPass
    rw [h]
    dsimp only
    rw [hy, List.append_assoc, List.drop_left]
    dsimp only [List.cons_append]
    rw [hfails, if_neg Bool.false_ne_true, if_pos skip]
    simpa using next

/-- A row of a program context whose front may not go on changes nothing, once the programs of its mover rest. -/
theorem streamRow_notReady (eff : State → Nat → PCtx → Stream → Nat → State) (hgo : streamGo s (m % 32) = s)
    (hr : frontReady s (m % 32 * 8 + p % 8) = false) : streamRow s m p op eff = s := by
  have first : frontFirst s (m % 32 * 8 + p % 8) = false := by
    unfold frontFirst
    rw [hr]
    rfl
  unfold streamRow
  dsimp only
  rw [hgo, first]
  split <;> rfl

end

/-- Settles O37: a NEXT by its path from the front to its retirement, the other ends by the step of the back or the front that
makes them. -/
theorem streamControl : Obligations.StreamControl := by
  unfold Obligations.StreamControl
  refine ⟨?halt, ?waits, ?waitsFlag, ?crosses, ?crossesFlag, ?retires, ?squashes, ?fault, ?outside, ?stands⟩
  case halt =>
    intro s m p i k x y hl hk hf hst
    subst hk
    have effect : haltEff s (m % 32 * 8 + p % 8) x y i = s.setPctx (m % 32 * 8 + p % 8)
        (x.running { y with halted := true, back := [itemAt y.front .halt] }) := by
      refine (onStream_program hf.program _).trans ?_
      rw [hf.back]
      rfl
    have program := program_setPctx hf.program s { y with halted := true, back := [itemAt y.front .halt] }
    have step := backStep_halt program rfl hf.waits rfl rfl
    obtain ⟨ended, done, frame⟩ := onStream_pctxDone (program_iff.mp program).1 hst
      (fun y => { y with back := [], stage := [], folds := [] })
    have goes := streamGo_step (hf.alone.setPctx hf.program _) program (quiet_single rfl rfl rfl)
      (step.symm ▸ rests_ended ended)
    rw [pctxIndex_mover, step] at goes
    refine ⟨_, (rowOf_fetches hl hf haltEff).trans (by rw [effect, goes]), done, ?_⟩
    rw [frame]
    rfl
  case waits =>
    intro s m p i k x y hl hk hf hlev hopen hc
    have goes := streamGo_earlyNext hk hf hlev hc
    obtain ⟨-, -, -, -, hch, hcr, -⟩ := id hf
    rw [hopen, if_neg Bool.false_ne_true, metNext_stands hch hcr] at goes
    refine ⟨_, earlyNext y i, (exec_next hl hk hf).trans (by rw [goes]), ?_, rfl, rfl⟩
    exact runs_of_program (program_setPctx (hk ▸ hf.program) s _)
  case waitsFlag =>
    intro s m p i k g x y hl hk hf hlev hopen hc hg
    obtain ⟨u, goes, frame⟩ := streamGo_flagNext_waits hk hf hlev hc hg (by unfold predicts; rw [hopen]; rfl)
    obtain ⟨-, -, -, -, hch, hcr, -⟩ := id hf
    rw [hopen, if_neg Bool.false_ne_true, metNext_stands hch hcr] at goes
    refine ⟨_, _, (exec_next hl hk hf).trans (by rw [goes]), runs_of_program (program_setPctx (hk ▸ hf.program) u _),
      ?_, ?_⟩
    · unfold flagTakes
      simp only [beq_iff_eq]
    · rw [frame]
      rfl
  case crosses =>
    intro s m p i k x y hl hk hf hlev hopen hc
    have goes := streamGo_earlyNext hk hf hlev hc
    rw [hopen, if_pos rfl] at goes
    exact ⟨_, _, (exec_next hl hk hf).trans (by rw [goes]), runs_of_program (program_setPctx (hk ▸ hf.program) s _), rfl,
      rfl, rfl, sameMem_setPctx _ _ _⟩
  case crossesFlag =>
    intro s m p i k g x y hl hk hf hlev hopen hc hg
    cases hp : predicts s y with
    | true =>
      obtain ⟨v, program, crossed, check, front, mem⟩ := streamGo_flagNext_predicts hk hf hlev hc hg hp
      exact ⟨_, v, exec_next hl hk hf, program, crossed, check, front, mem⟩
    | false =>
      obtain ⟨u, goes, frame⟩ := streamGo_flagNext_waits hk hf hlev hc hg hp
      rw [hopen, if_pos rfl] at goes
      refine ⟨_, _, (exec_next hl hk hf).trans (by rw [goes]), runs_of_program (program_setPctx (hk ▸ hf.program) u _),
        rfl, rfl, rfl, ?_⟩
      rw [frame]
      exact fun _ => ⟨rfl, rfl, rfl, rfl⟩
  case retires =>
    intro s m p k target nt c flag pred x y b hl hk hprog halone hw hy hop hgot hc hready
    have mover : k / 8 = m % 32 := by omega
    have alone : RunsAlone s k := runsAlone_of_moverPrograms (mover ▸ halone)
    have rests := streamGo_rests alone (rests_next hprog hy hop (by omega))
    rw [mover] at rests
    refine ⟨_, y.retired (c == 0) target, (exec_nextRetire hl hk).trans ?_,
      runs_of_program (program_setPctx hprog s _), rfl, rfl, rfl, rfl, ?_⟩
    · rw [rests, retireAt_next hprog alone hy hop hready]
    · rfl
  case squashes =>
    intro s m p k target nt flag pred x y f b l hl hk hprog halone hw hch hcr hy hop hgot hquiet hpred hready
    have mover : k / 8 = m % 32 := by omega
    have alone : RunsAlone s k := runsAlone_of_moverPrograms (mover ▸ halone)
    have takes : flagTakes s flag 3 = (s.flag flag).value := by simp [flagTakes]
    have quiet : BackQuiet y := quiet_of_all (by
      rw [hy, List.forall_mem_cons]
      exact ⟨⟨by simp [isWaitf, hop], .inl (by simp [itemReads, hop])⟩, hquiet⟩)
    obtain ⟨b', goes, hop'⟩ := streamGo_squashes alone hprog quiet hw hch hy hop (.inl rfl) (by rw [takes, hpred]; simp)
    rw [mover] at goes
    have squashed := squash_program hprog f b' (flagTakes s flag 3) target
    have ready : releaseReady (squash s k y f b' (flagTakes s flag 3) target)
        (pctxSrc (squash s k y f b' (flagTakes s flag 3) target) k) 1 = true := by
      rw [pctxSrc_squash hprog, releaseReady_squash hprog, hready]
    have retires := retireAt_next squashed ((alone.setPctx hprog _).of_pctxs (squash_pctxs hprog f b' _ target)) rfl hop'
      ready
    refine ⟨_, _, (exec_nextRetire hl hk).trans (by rw [goes, retires]), runs_of_program (program_setPctx squashed _ _),
      rfl, rfl, rfl, ?_, (sameMem_squash hprog f b' _ target).trans (sameMem_setPctx _ _ _)⟩
    rw [← takes]
    exact congrArg seamShift (if_pos hcr)
  case fault =>
    intro s m p k st a cva host x y b l hl hk hprog halone hy hop hgot hst hstatus
    have mover : k / 8 = m % 32 := by omega
    have alone : RunsAlone s k := runsAlone_of_moverPrograms (mover ▸ halone)
    have rests := streamGo_rests alone (rests_fault hprog hy hgot hop)
    rw [mover] at rests
    obtain ⟨done, fault, program, mem⟩ := faultTake_ends hprog hy hop hst hstatus
    exact ⟨_, (exec_pendingFaultTake hl hk).trans (by rw [rests]), done, fault, program, mem⟩
  case outside =>
    intro s m p k x y hl hk hprog halone hy hst hch hcr hpc
    have mover : k / 8 = m % 32 := by omega
    have alone : moverPrograms s (k / 8) = [(k, x)] := mover ▸ halone
    have rests := streamGo_empty (runsAlone_of_moverPrograms alone) hprog hy
    rw [mover] at rests
    obtain ⟨v, program, halted, back, mem⟩ := frontApply_bad hprog hy (s.instr y.front.pc).toNat (bareErr .faultProt)
    refine ⟨_, v, (gateIn_live hl (fun s => streamRow s m p 0x01 haltEff)).trans ?_, program, halted, back, mem⟩
    subst hk
    rw [streamRow_bad haltEff rests hprog (frontFirst_alone hprog alone hy hst hch hcr) (fetchBad_outside s x hpc)]
  case stands =>
    intro s m p k x y hl hk hprog hgo hcase
    subst hk
    refine (gateIn_live hl (fun s => streamRow s m p 0x08 (pureEff rdGo))).trans ?_
    rw [streamRow_notReady _ hgo]
    rcases hcase with full | ⟨l, b, r, hy, hne, hl, hfails, hreads, hgot, hheld, hfit⟩
    · exact frontReady_stands hprog (frontStands_writes full)
    · refine frontReady_readStops hprog ?_
      unfold frontReads
      rw [hprog]
      exact readPass_stops hprog hfails hreads hgot [] l hy hl (readItem_unfit hne hheld hfit)
        (by rw [hy, List.length_append, List.length_cons]; omega)

end Sys2Proof.Machine


/-! SUPPORT. SLOTR (R172, R187, R188): the release wakes the nodes in ENG_P, and the record of a wake may be placed in an event
ring of BANK space. -/

namespace Sys2Proof.Machine

/-- A program at instruction 0 of the store with nothing on its way. -/
def bareProgram : Stream :=
  { front := { pc := 0, prog := 0, a := [], n := [], strides := [], levels := [], guardSet := seamClosed,
               declareSet := seamClosed, unclaimed := 0 },
    fwait := none, fsince := 0, back := [], stage := [], gen := 0, check := none, crossed := false, halted := false,
    changed := [], tainted := false, kept := none, folds := [] }

/-- A program context of context 0 that runs this program. -/
def bareProgramCtx : PCtx :=
  { pctxStart 0 0 0 { desc := [], seq := 0, notBefore := true, wflag := none, polled := 0 } with stream := some bareProgram }

/-- SLOTR of ring 0 on the consumer side. -/
def slotrConsumer : Nat := 0x11 + 2 ^ 18

/-- Ring 0 of three slots: program context 0 holds a full one, and node 32 waits for a free one. -/
def ringOfNode32 : Slots := { ringEmpty with cfg := 0x301#64, heldC := 1, holders := [(0, 1, 0)], engP := [32] }

/-- After reset: context 0 bound, program context 0 before that SLOTR, the domain of "node 32" (SG0) down, line 7 routed to event
ring 0, a ring of 64 records from bank 0's first byte on. -/
def strayWakeState : State :=
  let s := (((State.reset.setCtx 0 { State.reset.ctx 0 with bound := true }).setPctx 0 bareProgramCtx).setSlotRing 0
    ringOfNode32).setDom 34 { domUp with state := .down }
  let t := { s with work := { s.work with pstore := [(0, BitVec.ofNat 64 slotrConsumer)] } }
  (t.setRg Reg.evtRoute1 0x800000).setRg (ringReg true 0 8) (2 ^ 29 + 6 * 2 ^ 24)

theorem live_strayWakeState : Live strayWakeState dFAB := by decide +kernel

theorem homesUp_strayWakeState : HomesUp strayWakeState := by
  have all : ∀ n < 32, isUp strayWakeState (dHome n) = true := by decide +kernel
  exact all

/-- The program context fetches its SLOTR. -/
theorem fetches_strayWakeState : Fetches strayWakeState 0 0 0x11 bareProgramCtx bareProgram slotrConsumer := by
  have fetched : strayWakeState.program 0 = some (bareProgramCtx, bareProgram) ∧
      moverPrograms strayWakeState 0 = [(0, bareProgramCtx)] ∧ frontStands bareProgram = false ∧
      strayWakeState.tableMark = [] ∧ fetchBad strayWakeState bareProgramCtx bareProgram.front = none ∧
      slotrConsumer = (strayWakeState.instr bareProgram.front.pc).toNat := by decide +kernel
  obtain ⟨program, alone, moves, words, good, ins⟩ := fetched
  exact ⟨program, alone, rfl, moves, rfl, rfl, rfl, words, rfl, good, ins, rfl⟩

/-- Ring 0 takes the release. -/
theorem strayWakeState_gives :
    relayDenied (strayWakeState.slotRing 0) (some (pctxDom strayWakeState bareProgramCtx)) = false ∧
    (strayWakeState.slotRing 0).oldest 1 0 = some 0 := by decide +kernel

/-- SLOTR decoded. -/
def slotrGo (_ : State) (_ : PCtx) (y : Stream) (i : Nat) : Step1 :=
  .go y.front.stepped [.slotr (bits i 6 12) (bits i 18 1) (bits i 19 3)]

theorem exec_slotr {s : State} (hl : Live s dFAB) (m p : Nat) :
    exec (.slotr m p) s = .next (streamRow s m p 0x11 (pureEff slotrGo)) :=
  gateIn_live hl (fun s => streamRow s m p 0x11 (pureEff slotrGo))

/-- The wake's record stands in bank 0 after the release: its source in byte 8. -/
theorem slotr_strayWakeState_byte :
    (streamRow strayWakeState 0 0 0x11 (pureEff slotrGo)).bankMem.read 8 = 167#8 ∧
    strayWakeState.bankMem.read 8 = 0#8 := by decide +kernel

/-- Refutes O36: its clause on SLOTR of a consumer says that no memory changes while the home nodes serve, but does not bound
the nodes in ENG_P. "Node 32" there names the domain of stack group 0, whose wake leaves a record in an event ring of BANK space.
HOME_NODE has 5 bits, so no command puts such a node there. -/
theorem not_streamSync : ¬ Obligations.StreamSync := by
  unfold Obligations.StreamSync
  intro h
  obtain ⟨-, -, gives, -⟩ := h strayWakeState 0 0 slotrConsumer 0 bareProgramCtx bareProgram live_strayWakeState rfl rfl
  obtain ⟨permits, oldest⟩ := strayWakeState_gives
  obtain ⟨t, ht, -, -, -, -, -, mem⟩ := gives 0 0 fetches_strayWakeState rfl rfl permits oldest
  obtain rfl : streamRow strayWakeState 0 0 0x11 (pureEff slotrGo) = t := by
    rw [exec_slotr live_strayWakeState] at ht
    injection ht
  obtain ⟨after, before⟩ := slotr_strayWakeState_byte
  have same := (mem homesUp_strayWakeState 8).1
  rw [after, before] at same
  exact absurd same (by decide)

end Sys2Proof.Machine


/-! SUPPORT. Slot rings, cheques and the SYNC requests that reach them (R187, R188, R195): each wakes the nodes that wait in a ring's
or a queue's node lists, and the three statements bound the wakes by the homes 0 to 31 alone, not the nodes in the lists. -/

namespace Sys2Proof.Machine

/-! ## A ring or a queue where "node 32" waits -/

/-- The die of `strayWakeState` with other slot rings and cheque queues, its clamp groups 0 to 31 released: a wake of "node 32"
starts the domain SG0, and its WAKE event is placed in the event ring in bank 0. -/
def strayWith (x : Float) : State := { strayWakeState.setRg Reg.pwrClampLo 0 with float := x }

theorem live_strayWith (x : Float) : Live (strayWith x) dFAB := live_strayWakeState

theorem homesUp_strayWith (x : Float) : HomesUp (strayWith x) := homesUp_strayWakeState

/-- A byte of bank space after a command. -/
def bankByteAfter (a : Nat) : Res → Option Byte
  | .next t => some (t.bankMem.read a)
  | _ => none

theorem strayWith_byte (x : Float) : (strayWith x).bankMem.read 8 = 0#8 := slotr_strayWakeState_byte.2

/-- A command that leaves the source of a WAKE record, the clerk's 167, in byte 8 of bank 0 has changed a memory. -/
theorem not_sameMem_of_wakeRecord {x : Float} {t : State} {o : Res} (ht : o = .next t)
    (h : bankByteAfter 8 o = some 167#8) : ¬ SameMem (strayWith x) t := by
  intro mem
  obtain ⟨bank, -, -, -⟩ := mem 8
  rw [ht] at h
  have after : t.bankMem.read 8 = 167#8 := Option.some.inj h
  rw [after, strayWith_byte] at bank
  exact absurd bank (by decide)

/-! ## Slot rings -/

/-- Ring 0 where node 32 waits for a free slot, and the release of slot 0 by its consumer awaits no read any more. -/
def releasedRing : Float := { State.reset.float with slots := [(0, { ringOfNode32 with creads := [(0, [])] })] }

theorem releasedRing_meets :
    ((strayWith releasedRing).slotRing 0).en = true ∧ ((strayWith releasedRing).slotRing 0).creads = [(0, [])] ∧
    readsDone (strayWith releasedRing) [] = true ∧ ((strayWith releasedRing).slotRing 0).cdone = [] ∧
    ((strayWith releasedRing).slotRing 0).cr = 0 ∧ 0 < ((strayWith releasedRing).slotRing 0).heldC := by decide +kernel

theorem slotConsumerReleaseDone_releasedRing_byte :
    bankByteAfter 8 (exec (.slotConsumerReleaseDone 0 0) (strayWith releasedRing)) = some 167#8 := by decide +kernel

/-- Refutes O38: its clause on a consumer's release says that no memory changes while the home nodes serve, but does not bound
the nodes in ENG_P, which the release wakes. "Node 32" there names the domain of stack group 0, whose wake leaves a record in an
event ring of BANK space. HOME_NODE has 5 bits, so no command puts such a node there. -/
theorem not_slotRings : ¬ Obligations.SlotRings := by
  unfold Obligations.SlotRings
  intro h
  obtain ⟨-, -, -, -, -, released, -⟩ := h
  obtain ⟨en, creads, returned, cdone, oldest, held⟩ := releasedRing_meets
  obtain ⟨t, ht, -, -, -, -, -, mem⟩ := released (strayWith releasedRing) 0 0 [] (by decide) (live_strayWith _) en creads
    returned cdone oldest held
  exact not_sameMem_of_wakeRecord ht slotConsumerReleaseDone_releasedRing_byte (mem (homesUp_strayWith _))

/-! ## Cheque queues -/

/-- Queue 0 enabled, where node 32 waits for a cheque. -/
def awaitedQueue : Float :=
  { State.reset.float with queues := [(0, { queueEmpty with cfg := 1#64, engT := [32] })] }

theorem chequeQueueDisable_awaitedQueue_byte :
    bankByteAfter 8 (exec (.chequeQueueDisable 0 0#64) (strayWith awaitedQueue)) = some 167#8 := by decide +kernel

/-- Refutes O39: its clause on a queue that is disabled says that no memory changes while the home nodes serve, but does not bound
the nodes in ENG_T, which are woken with FAULT_PROT. As for a slot ring, "node 32" names the domain of stack group 0, and no
command puts such a node there. -/
theorem not_cheques : ¬ Obligations.Cheques := by
  unfold Obligations.Cheques
  intro h
  obtain ⟨-, -, -, -, -, disabled, -⟩ := h
  have en : ((strayWith awaitedQueue).queue 0).en = true := by decide +kernel
  obtain ⟨t, ht, -, -, -, -, mem⟩ := disabled (strayWith awaitedQueue) 0 0#64 (by decide) (live_strayWith _) (by decide) en
  exact not_sameMem_of_wakeRecord ht chequeQueueDisable_awaitedQueue_byte (mem (homesUp_strayWith _))

/-! ## SYNC requests -/

/-- SLOT_REL of ring 0 on the consumer side, by context 0 at port 0. -/
def slotRelConsumer : PortReq :=
  { port := 0, tag := 0, ctx := 0, addr := 6 + 2 ^ 4, cnt := 0, stride := 0, dl := 0, scope := 0, vol := false, aop := 0,
    val := 0#32 }

/-- Ring 0 where node 32 waits for a free slot, and that context holds slot 0 as consumer. -/
def engineRing : Float :=
  { State.reset.float with slots := [(0, { ringOfNode32 with holders := [(holdEng 0 0, 1, 0)] })] }

/-- The request completes its handshake and passes the checks of R384. -/
theorem portReady_engineRing :
    ∃ u, PortReady (strayWith engineRing) slotRelConsumer slotRelConsumer 5 u ∧ portCtxSt u slotRelConsumer.ctx = .ok := by
  have ready : slotRelConsumer = portNorm slotRelConsumer ∧ Live (strayWith engineRing) (dHome 0) ∧
      clampOn (strayWith engineRing) 0 = false ∧ portReady (strayWith engineRing) 0 = true ∧
      ((strayWith engineRing).port 0).stands = none ∧ portCheck (strayWith engineRing) slotRelConsumer 5 = .ok := by
    decide +kernel
  obtain ⟨norm, live, clamp, takes, alone, good⟩ := ready
  exact ⟨_, ⟨_, ⟨norm, live, clamp, takes, .inl alone, rfl⟩, good, rfl⟩, by decide +kernel⟩

theorem engineRing_gives :
    (strayWith engineRing).tableMark = [] ∧ syncKind slotRelConsumer = 6 ∧ syncSide slotRelConsumer = 1 ∧
    relayDenied ((strayWith engineRing).slotRing (syncObj slotRelConsumer))
      (some (portDom (strayWith engineRing) slotRelConsumer)) = false ∧
    ((strayWith engineRing).slotRing (syncObj slotRelConsumer)).oldest (syncSide slotRelConsumer)
      (holdEng slotRelConsumer.port slotRelConsumer.ctx) = some 0 := by decide +kernel

theorem slotRel_engineRing_byte :
    bankByteAfter 8 (exec (.slotRel slotRelConsumer) (strayWith engineRing)) = some 167#8 := by decide +kernel

/-- Refutes O57: its clause on SLOT_REL says that no memory changes while the home nodes serve, but does not bound the nodes in
ENG_P, which a consumer's release wakes: the ring of O38's refutation, released here by an engine context. -/
theorem not_portSync : ¬ Obligations.PortSync := by
  unfold Obligations.PortSync
  intro h
  obtain ⟨u, ready, ctx⟩ := portReady_engineRing
  obtain ⟨words, kind, side, permits, oldest⟩ := engineRing_gives
  obtain ⟨-, -, -, releases, -⟩ := h _ u slotRelConsumer slotRelConsumer ready ctx words
  obtain ⟨t, ht, -, -, mem⟩ := releases 0 kind permits oldest (.inl side) (homesUp_strayWith _)
  exact not_sameMem_of_wakeRecord ht slotRel_engineRing_byte mem

end Sys2Proof.Machine


/-! SUPPORT. The flag store (R239, R249, R252, R257 to R266, R309): what an event adds to the output, operations and waits on
a flag that no waiter stands at or whose one waiter they satisfy, what the waiter is told, spin polls, releases and the lend
signal. -/

namespace Sys2Proof.Machine

/-! ## The output after an event (R151, R304): what stood there stands in front -/

/-- The output of s stands in front of the output of t. -/
def OutGrows (s t : State) : Prop := s.out <+: t.out

section
variable {s t u : State}

theorem outGrows_of_eq (h : t.out = s.out) : OutGrows s t := ⟨[], (List.append_nil _).trans h.symm⟩

theorem OutGrows.refl (s : State) : OutGrows s s := outGrows_of_eq rfl

theorem OutGrows.trans (h : OutGrows s t) (k : OutGrows t u) : OutGrows s u := List.IsPrefix.trans h k

end

theorem outGrows_linkOut (s : State) (p : Nat) (o : Out) : OutGrows s (linkOut s p o) := by
  rcases linkOut_cases s p o with ⟨-, sent⟩ | ⟨-, waits⟩
  · obtain ⟨-, -, -, out⟩ := linkSend_some sent
    exact ⟨_, out.symm⟩
  · exact ⟨_, waits.symm⟩

theorem bankStore_out (s : State) (b off : Nat) (data : List WByte) : (bankStore s b off data).1.out = s.out := by
  unfold bankStore
  dsimp only
  split
  · split <;> rfl
  · rfl

theorem finishHalf_out (s : State) (b : Nat) : (finishHalf s b).out = s.out := by
  unfold finishHalf
  split
  · rfl
  · split
    · rfl
    · dsimp only
      split
      · rfl
      · exact bankStore_out ..

theorem slcPassing_out (s : State) (a : Nat) : (slcPassing s a).out = s.out := by
  unfold slcPassing
  dsimp only
  split
  · rfl
  · split
    · split <;> rfl
    · rfl

theorem outGrows_recWrite (s : State) (host : Bool) (a : Nat) (data : List Byte) : OutGrows s (recWrite s host a data) := by
  unfold recWrite
  dsimp only
  split
  · exact .refl s
  · split
    · split
      · split
        · exact .refl s
        · exact outGrows_of_eq ((bankStore_out ..).trans (finishHalf_out ..))
      · split
        · exact .refl s
        · exact .refl s
        · exact .refl s
        · exact outGrows_of_eq (slcPassing_out ..)
    · split
      · exact (outGrows_of_eq (slcPassing_out { s with extMem := s.extMem.writeN a data } a)).trans (outGrows_linkOut ..)
      · exact .refl s

theorem outGrows_countRg (s : State) (o n : Nat) : OutGrows s (s.countRg o n) := outGrows_of_eq rfl

theorem outGrows_evrPlace (s : State) (e : Nat) (r : EventRec) : OutGrows s (evrPlace s e r) := by
  unfold evrPlace ringPlace
  split
  · exact (outGrows_recWrite ..).trans (outGrows_of_eq (setIrq_out ..))
  · exact outGrows_countRg ..

theorem outGrows_routeRing (s : State) (r : EventRec) : OutGrows s (routeRing s r) := by
  have ring : OutGrows s (if bit (lineRoute s r.line) 7 then evrPlace s (bits (lineRoute s r.line) 0 4) r else s) := by
    split
    · exact outGrows_evrPlace ..
    · exact .refl s
  unfold routeRing
  dsimp only
  split
  · exact ring.trans (outGrows_evrPlace ..)
  · exact ring

theorem outGrows_deliver (s : State) (r : EventRec) {put : State → EventRec → State} (h : ∀ u, OutGrows u (put u r)) :
    OutGrows s (deliver s r put) := by
  unfold deliver
  dsimp only
  split
  · exact outGrows_countRg ..
  · split
    · exact (outGrows_routeRing s r).trans (h _)
    · exact outGrows_routeRing s r

theorem outGrows_dropEvent (s : State) (line : Nat) : OutGrows s (dropEvent s line) := outGrows_countRg ..

theorem outGrows_stampEvent (s : State) (src : Nat) (ctx : Option (Nat × Nat)) (type line a0 a1 : Nat) :
    OutGrows s (stampEvent s src ctx type line a0 a1).2 := outGrows_of_eq rfl

theorem outGrows_eventBehind (s : State) (src type line a0 a1 : Nat) :
    OutGrows s (eventBehind s src type line a0 a1) := by
  have stamped := outGrows_stampEvent s src none type line a0 a1
  unfold eventBehind
  split
  · next r t h =>
    rw [h] at stamped
    exact stamped.trans (outGrows_deliver t r (fun u => outGrows_countRg ..))
  · next t h =>
    rw [h] at stamped
    exact stamped.trans (outGrows_dropEvent t line)

theorem outGrows_clerkPut (s : State) (r : EventRec) : OutGrows s (clerkPut s r) := by
  have missed := outGrows_countRg s (Reg.clerkMissed (missedCat r.type)) 1
  unfold clerkPut
  dsimp only
  split
  · exact .refl s
  · split
    · exact outGrows_of_eq rfl
    · split
      · exact missed
      · exact missed.trans ((outGrows_of_eq (setRgBit_out ..)).trans (outGrows_eventBehind ..))

theorem outGrows_event (s : State) (src : Nat) (ctx : Option (Nat × Nat)) (type line a0 a1 : Nat) :
    OutGrows s (event s src ctx type line a0 a1) := by
  have stamped := outGrows_stampEvent s src ctx type line a0 a1
  unfold event
  split
  · next t h =>
    rw [h] at stamped
    exact stamped.trans (outGrows_dropEvent t line)
  · next r t h =>
    rw [h] at stamped
    exact stamped.trans (outGrows_deliver t r (fun u => outGrows_clerkPut u r))

theorem sansEvent_sync {s t : State} (h : sansEvent t = sansEvent s) : t.sync = s.sync :=
  (congrArg (fun u : State => u.sync) h :)

theorem sansEvent_tableMark {s t : State} (h : sansEvent t = sansEvent s) : t.tableMark = s.tableMark :=
  (congrArg (fun u : State => u.tableMark) h :)

/-- A RAS_ERROR record is an event beside RAS_CAUSE. -/
theorem sansEvent_rasError (s : State) (src : Nat) (ctx : Option (Nat × Nat)) (code addr kind loc words detail : Nat) :
    sansEvent (rasError s src ctx code addr kind loc words detail) = sansEvent s := (eventFrame_event ..).2

theorem outGrows_rasError (s : State) (src : Nat) (ctx : Option (Nat × Nat)) (code addr kind loc words detail : Nat) :
    OutGrows s (rasError s src ctx code addr kind loc words detail) :=
  outGrows_event (s.setRgBit Reg.rasCause 0 true) ..

/-! ## A write to FLAGS space (R60, R252, R309) -/

/-- A domain serves on a die that no stop holds. -/
theorem Live.runs {s : State} {d : Nat} (h : Live s d) : s.obs.holds = false := h.2.1

theorem exec_flagsWrite {s : State} (h : Live s dFAB) (off src : Nat) (v : List Byte) :
    exec (.flagsWrite off v src) s = .next (flagsAccess (touch s dFAB) off v src) := by
  have gated : exec (.flagsWrite off v src) s =
      gate dFAB 7 src (.flagsWrite off v src) s (fun s => flagsAccess s off v src) := if_neg (by simp [h.runs])
  rw [gated, gate_live h]

theorem flagsAccess_past (s : State) {off : Nat} (h : 0x20000 ≤ off) (src : Nat) (v : List Byte) :
    flagsAccess s off v src = s.emit (.reply .faultProt 0#64) := if_pos h

theorem flagsAccess_misaligned (s : State) {off : Nat} {v : List Byte} (h : off < 0x20000)
    (bad : v.length ≠ 8 ∨ off % 8 ≠ 0) (src : Nat) : flagsAccess s off v src = s.emit (.reply .faultAlign 0#64) := by
  have width : widthSt off v.length 8 = .faultAlign := if_neg (by tauto)
  unfold flagsAccess
  rw [if_neg (Nat.not_le.mpr h), width]

/-- A write of a flag's word is an operation on the flag, and its answer. -/
theorem flagsAccess_word {s : State} (runs : s.obs.holds = false) {f : Nat} (hf : f < 16384) {v : List Byte}
    (hv : v.length = 8) (src : Nat) :
    flagsAccess s (8 * f) v src =
      (flagOp s f (bit (ofBytes v) 0) src none).emit (.reply (flagSt s f) 0#64) := by
  have width : widthSt (8 * f) v.length 8 = .ok := if_pos ⟨hv, Nat.mul_mod_right 8 f⟩
  have index : 8 * f / 8 = f := Nat.mul_div_cancel_left f (by decide)
  have low : bit (BitVec.ofNat 64 (ofBytes v)).toNat 0 = bit (ofBytes v) 0 := bit_mod_two_pow _ (by decide)
  unfold flagsAccess flagsWrite
  rw [if_neg (by omega), width, index, low, if_neg (by omega), runs, if_neg Bool.false_ne_true]

/-- An operation on a flag whose word is uncorrectable is counted and leaves its TABLE_UE record. -/
theorem flagOp_bad {s : State} {p : Nat} (h : tableBad s .flag p = true) (v : Bool) (src : Nat)
    (ctx : Option (Nat × Nat)) :
    flagOp s p v src ctx = rasError (countErrs s Reg.tableErrcnt 0 1) src ctx 0x06 0 3 (Tab.code .flag) 0 p := by
  have st : flagSt s p = .eccUncorr := if_pos h
  have mark : tfind s.tableMark (Tab.key .flag p) = some .ue := by simpa [tableBad] using h
  unfold flagOp flagRead tableReads
  rw [st, mark, if_pos (by decide)]

theorem flagOp_uncorrectable {s : State} {p : Nat} (h : tableBad s .flag p = true) (v : Bool) (src : Nat)
    (ctx : Option (Nat × Nat)) :
    (flagOp s p v src ctx).sync = s.sync ∧ (flagOp s p v src ctx).tableMark = s.tableMark ∧
      OutGrows s (flagOp s p v src ctx) := by
  have frame := sansEvent_rasError (countErrs s Reg.tableErrcnt 0 1) src ctx 0x06 0 3 (Tab.code .flag) 0 p
  rw [flagOp_bad h]
  exact ⟨sansEvent_sync frame, sansEvent_tableMark frame, outGrows_rasError (countErrs s Reg.tableErrcnt 0 1) ..⟩

/-! ## What leaves all but one flag as it was -/

@[simp] theorem touch_flag (s : State) (d p : Nat) : (touch s d).flag p = s.flag p := by
  unfold State.flag
  rw [touch_sync]

theorem flagSt_clean {s : State} (h : s.tableMark = []) (p : Nat) : flagSt s p = .ok := by
  simp [flagSt, tableBad, h, tfind]

theorem tableWrite_clean {s : State} (h : s.tableMark = []) (k : Tab) (e : Nat) : tableWrite s k e = s := by
  have erased : terase s.tableMark (k.key e) = s.tableMark := by
    rw [h]
    rfl
  unfold tableWrite
  rw [erased]

/-- Records aside, nothing changed but the word of flag p. -/
def FlagOnly (p : Nat) (s t : State) : Prop :=
  sansRecs t = sansRecs { s with sync := { s.sync with flags := t.sync.flags } } ∧ ∀ g, g ≠ p → t.flag g = s.flag g

section
variable {p : Nat} {s t u : State}

theorem FlagOnly.trans (h : FlagOnly p s t) (k : FlagOnly p t u) : FlagOnly p s u :=
  ⟨k.1.trans (congrArg (fun x : State => { x with sync := { x.sync with flags := u.sync.flags } }) h.1 :),
    fun g hg => (k.2 g hg).trans (h.2 g hg)⟩

theorem FlagOnly.recorded (h : FlagOnly p s t) (e : sansRecs u = sansRecs t) : FlagOnly p s u := by
  refine ⟨?_, fun g hg => (sansRecs_flag e g).trans (h.2 g hg)⟩
  rw [sansRecs_sync e]
  exact e.trans h.1

theorem FlagOnly.sync (h : FlagOnly p s t) : t.sync = { s.sync with flags := t.sync.flags } := sansRecs_sync h.1

theorem FlagOnly.waiters (h : FlagOnly p s t) : t.sync.waiters = s.sync.waiters :=
  (congrArg Sync.waiters h.sync :)

theorem FlagOnly.work (h : FlagOnly p s t) : t.work = s.work := (sansRecs_work h.1 :)

theorem FlagOnly.pctx (h : FlagOnly p s t) (k : Nat) : t.pctx k = s.pctx k := sansRecs_pctx h.1 k

theorem FlagOnly.tableMark (h : FlagOnly p s t) : t.tableMark = s.tableMark :=
  (congrArg (fun u : State => u.tableMark) h.1 :)

theorem FlagOnly.out (h : FlagOnly p s t) : t.out = s.out := (congrArg (fun u : State => u.out) h.1 :)

theorem FlagOnly.mem (h : FlagOnly p s t) : SameMem s t := fun a => sameMem_of_sansRecs h.1 a

end

theorem flagOnly_flagPut (s : State) (p : Nat) (v : Bool) (src : Nat) : FlagOnly p s (flagPut s p v src) := by
  refine ⟨?_, fun g hg => flag_flagPut_other s hg v src⟩
  unfold flagPut
  dsimp only
  split <;> rfl

theorem flagOnly_flagTaken (s : State) (p mode src : Nat) : FlagOnly p s (flagTaken s p mode src) := by
  unfold flagTaken
  split
  · exact flagOnly_flagPut ..
  · exact ⟨rfl, fun _ _ => rfl⟩

/-- The word of a flag after a change of its value (R259). -/
theorem flag_flagPut (s : State) (p : Nat) (v : Bool) (src : Nat) :
    (flagPut s p v src).flag p = if (s.flag p).value = v then s.flag p
      else { value := v, last := src % 4096, changes := ((s.flag p).changes + 1) % 2 ^ 32 } := by
  unfold flagPut
  dsimp only
  split
  · rfl
  · exact tget_tset_same ..

/-! ## Operations and waits at a flag that no waiter stands at (R257, R258) -/

section
variable {s : State} {p : Nat} (clean : s.tableMark = []) (alone : ∀ w ∈ s.sync.waiters, w.flag ≠ p) (v : Bool) (src : Nat)
  (ctx : Option (Nat × Nat))
include clean alone

theorem flagOp_alone : sansRecs (flagOp s p v src ctx) = sansRecs (flagPut s p v src) := by
  rw [sansRecs_flagOp (flagSt_clean clean p) alone, tableWrite_clean clean]

theorem flagOnly_flagOp : FlagOnly p s (flagOp s p v src ctx) :=
  (flagOnly_flagPut s p v src).recorded (flagOp_alone clean alone v src ctx)

theorem flag_flagOp : (flagOp s p v src ctx).flag p = (flagPut s p v src).flag p :=
  sansRecs_flag (flagOp_alone clean alone v src ctx) p

theorem value_flagOp : ((flagOp s p v src ctx).flag p).value = v := by
  rw [flag_flagOp clean alone]
  exact flag_flagPut_same ..

end

/-! ## The lend signal of a node whose quiescence ends (R266), and a wake for a node that is up (R388) -/

theorem lendOff_sync (s : State) (n : Nat) :
    (lendOff s n).sync = { s.sync with quietSince := (lendOff s n).sync.quietSince } := by
  unfold lendOff
  dsimp only
  split <;> rfl

theorem lendOff_work (s : State) (n : Nat) : (lendOff s n).work = s.work := by
  unfold lendOff
  dsimp only
  split <;> rfl

theorem sameMem_lendOff (s : State) (n : Nat) : SameMem s (lendOff s n) := sameMem_of_sansSend (sansSend_lendOff s n)

theorem isUp_of_doms {s t : State} (hb : t.build = s.build) (hd : t.pwr.doms = s.pwr.doms) (d : Nat) :
    isUp t d = isUp s d := by
  unfold isUp domPresent State.dom
  rw [hb, hd]

theorem isUp_sansRecs {s t : State} (h : sansRecs t = sansRecs s) (d : Nat) : isUp t d = isUp s d :=
  isUp_of_doms (congrArg (fun u : State => u.build) h :) (congrArg (fun u : State => u.pwr.doms) h :) d

theorem isUp_lendOff (s : State) (n d : Nat) : isUp (lendOff s n) d = isUp s d := by
  unfold lendOff
  dsimp only
  split <;> rfl

/-- Activity changes no domain's state. -/
theorem isUp_touch (s : State) (d e : Nat) : isUp (touch s d) e = isUp s e := by
  have state : ((touch s d).dom e).state = (s.dom e).state := by
    unfold touch
    split
    · rfl
    · by_cases h : e = d
      · rw [h, dom_set_same]
      · rw [dom_set_other _ _ _ _ h]
  unfold isUp domPresent
  rw [state, touch_build]

/-- A wake for a node that is up is queued, and its lend signal is withdrawn. -/
theorem wakePush_up {s : State} {w : NodeWake} (h : isUp s (dHome w.node) = true) :
    wakePush s w = { lendOff s w.node with sync :=
      { (lendOff s w.node).sync with wakes := (lendOff s w.node).sync.wakes ++ [w] } } := by
  have up : isUp (lendOff s w.node) (dHome w.node) = true := (isUp_lendOff ..).trans h
  have stays : wakeDom (lendOff s w.node) (dHome w.node) 2 s.srcClerk = lendOff s w.node := if_pos (by simp [up])
  unfold wakePush
  rw [stays]

/-! ## What the waiter is told (R261, R262) -/

/-- The flags and the waiters are as before. -/
def StoreKept (s t : State) : Prop := t.sync.flags = s.sync.flags ∧ t.sync.waiters = s.sync.waiters

theorem storeKept_of_sync {s t : State} (h : t.sync = s.sync) : StoreKept s t :=
  ⟨congrArg Sync.flags h, congrArg Sync.waiters h⟩

theorem StoreKept.trans {s t u : State} (h : StoreKept s t) (k : StoreKept t u) : StoreKept s u :=
  ⟨k.1.trans h.1, k.2.trans h.2⟩

theorem storeKept_lendOff (s : State) (n : Nat) : StoreKept s (lendOff s n) :=
  ⟨(congrArg Sync.flags (lendOff_sync s n) :), (congrArg Sync.waiters (lendOff_sync s n) :)⟩

theorem storeKept_setPctx (s : State) (k : Nat) (x : PCtx) : StoreKept s (s.setPctx k x) := ⟨rfl, rfl⟩

theorem storeKept_pctxTold (s : State) (k : Nat) : StoreKept s (pctxTold s k .ok) := by
  have goesOn : ∀ x, StoreKept s ((lendOff s (k / 8)).setPctx k x) := fun x =>
    (storeKept_lendOff ..).trans (storeKept_setPctx ..)
  unfold pctxTold pctxWake
  split
  · exact ⟨rfl, rfl⟩
  · split
    · rw [if_pos rfl]
      split
      · exact ⟨rfl, rfl⟩
      · dsimp only
        split <;> exact goesOn _
    · exact goesOn _

theorem storeKept_wakePush (s : State) (w : NodeWake) : StoreKept s (wakePush s w) :=
  have woken := storeKept_of_sync (accessKept_wakeDom (lendOff s w.node) (dHome w.node) 2 s.srcClerk).1.sync
  ((storeKept_lendOff s w.node).trans woken :)

theorem storeKept_tell (s : State) (who : Who) (acq : Bool) (scope : Nat) : StoreKept s (tell s who .ok acq scope) := by
  cases who with
  | pctx k => exact storeKept_pctxTold s k
  | ring r => exact ⟨rfl, rfl⟩
  | engine token port ctx node => exact storeKept_wakePush ..

/-- A waiting command is done: t is s with its wait over, the quiescence of its mover's node broken. -/
def CommandTold (k : Nat) (x : PCtx) (s t : State) : Prop :=
  t.pctx k = some { x with wait := none, done := true } ∧
  t.sync = { s.sync with quietSince := t.sync.quietSince } ∧ SameMem s t

section
variable {s : State} {k : Nat} {x : PCtx} (h : s.pctx k = some x) (hx : x.stream = none)
include h hx

theorem commandTold_pctxWake : CommandTold k x s (pctxWake s k) := by
  rw [pctxWake_done h hx]
  exact ⟨pctx_set_same .., lendOff_sync .., (sameMem_lendOff s (k / 8)).trans (sameMem_setPctx _ k _)⟩

theorem pctxTold_command : pctxTold s k .ok = pctxWake s k := by
  unfold pctxTold
  rw [h]
  dsimp only
  rw [hx]
  exact if_pos rfl

end

/-! ## A flag with the one waiter that an operation satisfies (R258, R259) -/

/-- An operation changes the flag, is recorded, and the waiters of the flag are evaluated. -/
theorem flagOp_evaluates {s : State} (clean : s.tableMark = []) (p : Nat) (v : Bool) (src : Nat)
    (ctx : Option (Nat × Nat)) : ∃ u, flagOp s p v src ctx = flagEval u p ∧ sansRecs u = sansRecs (flagPut s p v src) := by
  have read : sansRecs (tableWrite (flagRead s p src ctx) .flag p) = sansRecs s :=
    (congrArg (fun u : State => tableWrite u .flag p) (sansRecs_flagRead (flagSt_clean clean p) src ctx)).trans
      (congrArg sansRecs (tableWrite_clean clean .flag p))
  have put : sansRecs (flagPut (tableWrite (flagRead s p src ctx) .flag p) p v src) = sansRecs (flagPut s p v src) := by
    rw [sansRecs_flagPut, read, sansRecs_flagPut]
  unfold flagOp
  dsimp only
  rw [if_neg (by simp [flagSt_clean clean])]
  exact ⟨_, rfl, (sansRecs_syncRec ..).trans ((sansRecs_countEvent ..).trans put)⟩

/-- The one waiter leaves, with its record, and is told. -/
theorem satisfy_sole {s : State} {w : Waiter} (h : s.sync.waiters = [w]) :
    ∃ u, sansRecs u = sansRecs { s with sync := { s.sync with waiters := [] } } ∧
      satisfy s w = tell u w.who .ok w.acq w.scope := by
  have left : s.sync.waiters.filter (· != w) = [] := by simp [h]
  unfold satisfy
  dsimp only
  rw [left]
  exact ⟨_, sansRecs_syncRec .., rfl⟩

/-- Evaluation at a flag whose one waiter's wait holds: it is satisfied, and consumes the flag under mode 2. -/
theorem flagEval_sole {s : State} {w : Waiter} (h : s.sync.waiters = [w]) (hm : w.mode ≤ 2)
    (holds : (s.flag w.flag).value = (w.mode != 1)) :
    flagEval s w.flag = flagTaken (satisfy s w) w.flag w.mode w.src := by
  obtain ⟨u, hu, told⟩ := satisfy_sole h
  obtain ⟨flags, waiters⟩ := storeKept_tell u w.who w.acq w.scope
  have left : (satisfy s w).sync.waiters = [] := by
    rw [told, waiters, sansRecs_sync hu]
  have kept : (satisfy s w).flag w.flag = s.flag w.flag := by
    rw [told]
    unfold State.flag
    rw [flags, sansRecs_sync hu]
  have after : ∀ t : State, t.sync.waiters = [] → ∀ m,
      t.sync.waiters.filter (fun x => x.flag == w.flag && x.mode == m) = [] := fun t ht m => by rw [ht]; rfl
  have taken : (flagPut (satisfy s w) w.flag false w.src).sync.waiters = [] := (flagPut_waiters ..).trans left
  have mode : w.mode = 0 ∨ w.mode = 1 ∨ w.mode = 2 := by omega
  rcases mode with hm | hm | hm <;> rw [hm] at holds
  · simp [flagEval, flagTaken, h, hm, holds, after _ left, firstRanked, kept]
  · simp [flagEval, flagTaken, h, hm, holds]
  · simp [flagEval, flagTaken, h, hm, holds, firstRanked, flag_flagPut_same, after _ taken]

section
variable {s : State} {w : Waiter} (clean : s.tableMark = []) (sole : s.sync.waiters = [w]) (hm : w.mode ≤ 2) {v : Bool}
  (hv : v = (w.mode != 1)) (src : Nat) (ctx : Option (Nat × Nat))
include clean sole hm hv

/-- An operation that satisfies the one waiter of its flag: u is the state in which it is told. -/
theorem flagOp_sole : ∃ u,
    sansRecs u = sansRecs { s with sync := { s.sync with flags := (flagPut s w.flag v src).sync.flags, waiters := [] } } ∧
    flagOp s w.flag v src ctx = flagTaken (tell u w.who .ok w.acq w.scope) w.flag w.mode w.src := by
  obtain ⟨r, evaluates, put⟩ := flagOp_evaluates clean w.flag v src ctx
  have left : sansRecs r = sansRecs { s with sync := { s.sync with flags := (flagPut s w.flag v src).sync.flags } } :=
    put.trans (flagOnly_flagPut ..).1
  have waiters : r.sync.waiters = [w] := (congrArg Sync.waiters (sansRecs_sync left)).trans sole
  have value : (r.flag w.flag).value = (w.mode != 1) := by
    rw [sansRecs_flag put, flag_flagPut_same, hv]
  obtain ⟨u, hu, told⟩ := satisfy_sole waiters
  refine ⟨u, hu.trans ?_, ?_⟩
  · exact (congrArg (fun x : State => { x with sync := { x.sync with waiters := [] } }) left :)
  · rw [evaluates, flagEval_sole waiters hm value, told]

theorem flagOp_sole_store : (flagOp s w.flag v src ctx).sync.waiters = [] ∧
    ((flagOp s w.flag v src ctx).flag w.flag).value = (w.mode == 0) := by
  obtain ⟨u, hu, result⟩ := flagOp_sole clean sole hm hv src ctx
  obtain ⟨flags, waiters⟩ := storeKept_tell u w.who w.acq w.scope
  have value : ((tell u w.who .ok w.acq w.scope).flag w.flag).value = v := by
    have same : (tell u w.who .ok w.acq w.scope).flag w.flag = (flagPut s w.flag v src).flag w.flag := by
      unfold State.flag
      rw [flags, sansRecs_sync hu]
    rw [same, flag_flagPut_same]
  rw [result, flagTaken_waiters, flag_flagTaken_same, waiters, sansRecs_sync hu, value, hv]
  refine ⟨rfl, ?_⟩
  have mode : w.mode = 0 ∨ w.mode = 1 ∨ w.mode = 2 := by omega
  rcases mode with hm | hm | hm <;> rw [hm] <;> rfl

/-- A waiting command goes on. -/
theorem flagOp_sole_command {k : Nat} {x : PCtx} (who : w.who = .pctx k) (h : s.pctx k = some x) (hx : x.stream = none) :
    (flagOp s w.flag v src ctx).pctx k = some { x with wait := none, done := true } ∧
      SameMem s (flagOp s w.flag v src ctx) := by
  obtain ⟨u, hu, result⟩ := flagOp_sole clean sole hm hv src ctx
  have hux : u.pctx k = some x := (sansRecs_pctx hu k).trans h
  have told : tell u w.who .ok w.acq w.scope = pctxWake u k := by
    rw [who]
    exact pctxTold_command hux hx
  obtain ⟨pctx, -, mem⟩ := commandTold_pctxWake hux hx
  have before : SameMem s u := fun a => sameMem_of_sansRecs hu a
  rw [result, told]
  exact ⟨((flagOnly_flagTaken ..).pctx k).trans pctx, before.trans (mem.trans (flagOnly_flagTaken ..).mem)⟩

end

/-- A waiting engine's wake is queued for its node (R388). -/
theorem flagOp_sole_engine {s : State} {w : Waiter} (clean : s.tableMark = []) (sole : s.sync.waiters = [w])
    (hm : w.mode = 1) {token port c node : Nat} (who : w.who = .engine token port c node)
    (up : isUp s (dHome node) = true) (src : Nat) (ctx : Option (Nat × Nat)) :
    (flagOp s w.flag false src ctx).sync.wakes = s.sync.wakes ++ [
      { node := node, kind := 0, id := token, status := .ok,
        acq := if w.acq = true then some (port, w.scope) else none }] ∧
    (flagOp s w.flag false src ctx).work = s.work ∧ SameMem s (flagOp s w.flag false src ctx) := by
  obtain ⟨u, hu, result⟩ := flagOp_sole clean sole (by omega) (v := false) (by rw [hm]; rfl) src ctx
  have kept : ∀ t, flagTaken t w.flag w.mode w.src = t := fun t => if_neg (by omega)
  have told : tell u w.who .ok w.acq w.scope = wakePush u
      { node := node, kind := 0, id := token, status := .ok,
        acq := if w.acq = true then some (port, w.scope) else none } := by
    rw [who]
    simp [tell]
  have wakes : (lendOff u node).sync.wakes = s.sync.wakes :=
    (congrArg Sync.wakes (lendOff_sync u node)).trans (congrArg Sync.wakes (sansRecs_sync hu) :)
  have before : SameMem s u := fun a => sameMem_of_sansRecs hu a
  have serves : isUp u (dHome node) = true := (isUp_sansRecs hu (dHome node)).trans up
  rw [result, kept, told, wakePush_up serves]
  refine ⟨?_, (lendOff_work u node).trans (sansRecs_work hu :), before.trans (sameMem_lendOff u node)⟩
  exact congrArg (· ++ _) wakes

/-! ## Operations of one tc and writes of a lane (R249, R258) -/

/-- Two operations of one tc on a flag: the lower source's comes first. -/
theorem exec_flagOperations {s : State} (h : Live s dFAB) {f a b : Nat} (hf : f < 16384) (hab : a < b) (p q : Bool) :
    exec (.flagOperationPerform f [(b, q), (a, p)]) s =
      .next (flagOp (flagOp (touch s dFAB) f p a none) f q b none) := by
  have order : [(b, q), (a, p)].foldl (fun l o => insertOp o l) [] = [(a, p), (b, q)] := by
    simp [insertOp, hab]
  show execFlagOperationPerform f [(b, q), (a, p)] s = _
  unfold execFlagOperationPerform
  rw [gate_live h, order, if_pos hf]
  rfl

@[simp] theorem touch_laneBusy (s : State) (d lane : Nat) : laneBusy (touch s d) lane = laneBusy s lane := by
  unfold laneBusy foreignSeg
  rw [touch_mesh, touch_regu, touch_pwr_dieId]

theorem exec_remoteFlagWrite {s : State} (h : Live s dFAB) (f src lane : Nat) (v : DWord) :
    exec (.remoteFlagWrite f v src lane) s = .next (if laneBusy s lane ∨ 16384 ≤ f then touch s dFAB
      else (flagOp (touch s dFAB) f (bit v.toNat 0) src none).emit (.reply (flagSt (touch s dFAB) f) 0#64)) := by
  show execRemoteFlagWrite f v src lane s = _
  unfold execRemoteFlagWrite
  rw [gate_live h, touch_laneBusy]

/-! ## Spin polls (R264) -/

theorem exec_spinPoll {s : State} (h : Live s dFAB) (m p : Nat) :
    exec (.spinPoll m p) s = .next (spinPoll s (m * 8 + p)) := gateIn_live h (fun s => spinPoll s (m * 8 + p))

section
variable {s : State} {k f mode since : Nat} {x : PCtx} (h : s.pctx k = some x) (spins : spinWait x = some (f, mode, since))
include h spins

theorem spinPoll_unranked (rank : (firstRanked (pollRank s) (pollsDue s f)).map (·.1) ≠ some k) : spinPoll s k = s := by
  unfold spinPoll
  rw [h]
  dsimp only
  rw [spins]
  exact if_neg rank

/-- A poll that is due and first ranked, of a word without an error. -/
theorem spinPoll_ranked (clean : s.tableMark = [])
    (rank : (firstRanked (pollRank s) (pollsDue s f)).map (·.1) = some k) :
    spinPoll s k =
      if waitHolds s f mode then
        pctxTold (waitNow (s.setPctx k { x with polled := s.clk.tc }) f mode (s.src (128 + k / 8)) (dTag x.desc)) k .ok
      else s.setPctx k { x with polled := s.clk.tc } := by
  have good : flagSt (s.setPctx k { x with polled := s.clk.tc }) f = .ok := flagSt_clean clean f
  unfold spinPoll
  rw [h]
  dsimp only
  rw [spins]
  dsimp only
  rw [if_pos rank, if_neg (by simp [good])]
  rfl

end

/-- A wait that holds at a flag that no other waiter stands at changes that flag at most. -/
theorem flagOnly_waitNow {s : State} {p : Nat} (alone : ∀ w ∈ s.sync.waiters, w.flag ≠ p) (mode src : Nat)
    (ctx : Option (Nat × Nat)) : FlagOnly p s (waitNow s p mode src ctx) :=
  (flagOnly_flagTaken s p mode src).recorded (sansRecs_waitNow (fun _ => alone) src ctx)

/-- A command that spins goes on once its wait holds, and consumes its flag under mode 2. -/
theorem told_waitNow {s : State} {k p : Nat} {x : PCtx} (h : s.pctx k = some x) (hx : x.stream = none)
    (alone : ∀ w ∈ s.sync.waiters, w.flag ≠ p) (mode src : Nat) (ctx : Option (Nat × Nat)) :
    ∃ t, pctxTold (waitNow s p mode src ctx) k .ok = t ∧
      t.pctx k = some { x with wait := none, done := true } ∧ (mode = 2 → (t.flag p).value = false) ∧
      (mode ≠ 2 → t.flag p = s.flag p) ∧ SameMem s t := by
  have only := flagOnly_waitNow alone mode src ctx
  have hw : (waitNow s p mode src ctx).pctx k = some x := (only.pctx k).trans h
  obtain ⟨pctx, sync, mem⟩ := commandTold_pctxWake hw hx
  have flag : (pctxWake (waitNow s p mode src ctx) k).flag p = (flagTaken s p mode src).flag p := by
    have now : (waitNow s p mode src ctx).flag p = (flagTaken s p mode src).flag p :=
      sansRecs_flag (sansRecs_waitNow (fun _ => alone) src ctx) p
    exact (congrArg (fun y : Sync => tget flagReset y.flags p) sync).trans now
  refine ⟨_, pctxTold_command hw hx, pctx, fun h2 => ?_, fun h2 => ?_, only.mem.trans mem⟩
  · rw [flag, flag_flagTaken_same, if_pos h2]
  · rw [flag]
    unfold flagTaken
    rw [if_neg h2]

/-! ## Releases (R239) -/

/-- The release of a flag for a command takes effect once its waits are done. -/
theorem mayRelease_flag (s : State) (key : Nat) {z : Release} {f k : Nat} {set : Bool} (he : z.effect = .flag f set)
    (ho : z.owner = .pctx k) : mayRelease s key z = releaseReady s z.src z.scope := by
  obtain ⟨src, ctx, scope, effect, owner⟩ := z
  obtain rfl : effect = .flag f set := he
  obtain rfl : owner = .pctx k := ho
  unfold mayRelease
  split <;> simp_all [Owner.before]

theorem releaseClean_empty {s : State} {src : Nat} (h : dirtyRecord s (src % 256) = []) (scope : Nat) :
    releaseClean s src scope = s := by
  unfold releaseClean cleanPort
  split
  · rfl
  · rw [h]
    rfl

/-- The state without a release that waited. -/
def withoutRelease (s : State) (key : Nat) : State :=
  { s with sync := { s.sync with releases := terase s.sync.releases key } }

section
variable {s : State} {key f k : Nat} {set : Bool} {z : Release} (h : tfind s.sync.releases key = some z)
  (he : z.effect = .flag f set) (ho : z.owner = .pctx k)
include h he ho

theorem releasePerform_waits (ready : releaseReady s z.src z.scope = false) : releasePerform s key = s := by
  unfold releasePerform
  rw [h]
  dsimp only
  rw [mayRelease_flag s key he ho, ready, if_neg Bool.false_ne_true]

theorem releasePerform_flag (clean : s.tableMark = []) (record : dirtyRecord s (z.src % 256) = [])
    (ready : releaseReady s z.src z.scope = true) :
    releasePerform s key = pctxWake (flagOp (withoutRelease s key) f set z.src z.ctx) k := by
  have cleaned : releaseClean (withoutRelease s key) z.src z.scope = withoutRelease s key :=
    releaseClean_empty (s := withoutRelease s key) record _
  have good : flagSt (withoutRelease s key) f = .ok := flagSt_clean clean f
  have performs : releasePerform s key = releaseEffect (releaseClean (withoutRelease s key) z.src z.scope) z := by
    unfold releasePerform
    rw [h]
    dsimp only
    rw [mayRelease_flag s key he ho, if_pos ready]
    rfl
  rw [performs, cleaned]
  unfold releaseEffect
  rw [he]
  dsimp only
  rw [ho, good, ownerAnswer_pctx_ok]

end

/-! ## The lend signal (R265) -/

theorem exec_lendAssert {s : State} (h : Live s dFAB) {n : Nat} (hn : n < 32) :
    exec (.lendAssert n) s = .next (if nodeQuiet s n && s.rgBit Reg.syncLendCfg 31 &&
      decide (tget 0 s.sync.quietSince n + s.rgField Reg.syncLendCfg 0 16 ≤ s.now) then
        s.setRgBit Reg.syncLendStatus n true else s) := by
  show execLendAssert n s = _
  unfold execLendAssert
  rw [gateIn_live h, Nat.mod_eq_of_lt hn]

theorem exec_nodeAllWait {s : State} {n : Nat} (hn : n < 32) (h : Live s (dHome n)) (w : Bool) :
    exec (.nodeAllWait n w) s = .next (lendMark { touch s (dHome n) with sync := { s.sync with
      allWait := if w then addMem n s.sync.allWait else delMem n s.sync.allWait } } n) := by
  show execNodeAllWait n w s = _
  unfold execNodeAllWait
  rw [Nat.mod_eq_of_lt hn, gate_live h, touch_sync]

theorem mem_addMem_delMem (w : Bool) (n k : Nat) (l : List Nat) :
    (k ∈ if w then addMem n l else delMem n l) ↔ if k = n then w = true else k ∈ l := by
  cases w with
  | true =>
    unfold addMem
    by_cases hn : n ∈ l <;> by_cases hk : k = n <;> simp [hn, hk]
  | false => by_cases hk : k = n <;> simp [delMem, hk]

/-! ## The clauses at the domain FAB -/

section
variable {s : State} (live : Live s dFAB) (clean : s.tableMark = [])

include live in
theorem exec_flagsWrite_word {f : Nat} (hf : f < 16384) {v : List Byte} (hv : v.length = 8) (src : Nat) :
    exec (.flagsWrite (8 * f) v src) s = .next ((flagOp (touch s dFAB) f (bit (ofBytes v) 0) src none).emit
      (.reply (flagSt (touch s dFAB) f) 0#64)) := by
  rw [exec_flagsWrite live, flagsAccess_word (by rw [touch_obs, live.runs]) hf hv]

include clean in
theorem touch_clean : (touch s dFAB).tableMark = [] := by rw [touch_tableMark, clean]

theorem touch_alone {f : Nat} (alone : ∀ w ∈ s.sync.waiters, w.flag ≠ f) :
    ∀ w ∈ (touch s dFAB).sync.waiters, w.flag ≠ f := by rwa [touch_sync]

theorem FlagOnly.touched {p : Nat} {t : State} (h : FlagOnly p (touch s dFAB) t) :
    (∀ g, g ≠ p → t.flag g = s.flag g) ∧ t.sync.waiters = s.sync.waiters ∧ t.work = s.work ∧ t.out = s.out ∧
      SameMem s t := by
  refine ⟨fun g hg => (h.2 g hg).trans (touch_flag ..), ?_, h.work.trans (touch_work ..), h.out.trans (touch_out ..),
    (sameMem_touch s dFAB).trans h.mem⟩
  rw [h.waiters, touch_sync]

end

/-- Settles O41: a flag's word by the rules of flagOp for no waiter and for the one waiter it satisfies, the polls and the
releases by what their commands are told. -/
theorem flagStore : Obligations.FlagStore := by
  unfold Obligations.FlagStore
  refine ⟨?plain, ?command, ?engine, ?misaligned, ?past, ?bad, ?ordered, ?remote, ?busy, ?spin, ?release, ?lend, ?unquiet,
    ?allWait⟩
  case plain =>
    rintro s off f src v rfl hv hf hl clean alone
    have flag := flag_flagOp (touch_clean clean) (touch_alone alone) (bit (ofBytes v) 0) src none
    rw [flag_flagPut, touch_flag] at flag
    obtain ⟨others, waiters, work, out, mem⟩ :=
      (flagOnly_flagOp (touch_clean clean) (touch_alone alone) (bit (ofBytes v) 0) src none).touched
    refine ⟨_, exec_flagsWrite_word hl hf hv src, flag, others, waiters, work, ?_, mem⟩
    rw [flagSt_clean (touch_clean clean), out_emit, out]
  case command =>
    rintro s off f src k v w x rfl hv hf hl clean hbit sole rfl mode who hx hstream
    have sole' : (touch s dFAB).sync.waiters = [w] := by rw [touch_sync, sole]
    have le : w.mode ≤ 2 := by omega
    have holds : bit (ofBytes v) 0 = (w.mode != 1) := by rcases mode with h | h <;> rw [hbit, h] <;> rfl
    obtain ⟨left, value⟩ := flagOp_sole_store (touch_clean clean) sole' le holds src none
    obtain ⟨pctx, mem⟩ :=
      flagOp_sole_command (touch_clean clean) sole' le holds src none who ((touch_pctx ..).trans hx) hstream
    exact ⟨_, exec_flagsWrite_word hl hf hv src, left, value, pctx, (sameMem_touch s dFAB).trans mem⟩
  case engine =>
    rintro s off f src token port c node v w rfl hv hf hl clean hbit sole rfl mode who up
    have sole' : (touch s dFAB).sync.waiters = [w] := by rw [touch_sync, sole]
    obtain ⟨left, value⟩ := flagOp_sole_store (touch_clean clean) sole' (by omega) (v := false) (by rw [mode]; rfl) src none
    obtain ⟨wakes, work, mem⟩ :=
      flagOp_sole_engine (touch_clean clean) sole' mode who ((isUp_touch ..).trans up) src none
    have goes := exec_flagsWrite_word hl hf hv src
    rw [hbit] at goes
    exact ⟨_, goes, left, value.trans (by rw [mode]; rfl), wakes.trans (by rw [touch_sync]), work.trans (touch_work ..),
      (sameMem_touch s dFAB).trans mem⟩
  case misaligned =>
    intro s off src v hl hoff bad
    rw [exec_flagsWrite hl, flagsAccess_misaligned _ hoff bad]
  case past =>
    intro s off src v hl hoff
    rw [exec_flagsWrite hl, flagsAccess_past _ hoff]
  case bad =>
    rintro s off f src v rfl hv hf hl bad
    have bad' : tableBad (touch s dFAB) .flag f = true := by
      unfold tableBad
      rwa [touch_tableMark]
    obtain ⟨sync, marks, o, out⟩ := flagOp_uncorrectable bad' (bit (ofBytes v) 0) src none
    refine ⟨_, o, exec_flagsWrite_word hl hf hv src, sync.trans (touch_sync ..), ?_, marks.trans (touch_tableMark ..)⟩
    have st : flagSt (touch s dFAB) f = .eccUncorr := if_pos bad'
    rw [st, out_emit, ← out, touch_out]
  case ordered =>
    intro s f a b p q hf hl clean alone hab
    have first := flagOnly_flagOp (touch_clean clean) (touch_alone alone) p a none
    have clean' := first.tableMark.trans (touch_clean clean)
    have alone' : ∀ w ∈ (flagOp (touch s dFAB) f p a none).sync.waiters, w.flag ≠ f := by
      rw [first.waiters]
      exact touch_alone alone
    obtain ⟨others, -, work, -, mem⟩ := (first.trans (flagOnly_flagOp clean' alone' q b none)).touched
    exact ⟨_, exec_flagOperations hl hf hab p q, value_flagOp clean' alone' q b none, others, work, mem⟩
  case remote =>
    intro s f src lane v hf hl clean alone free
    obtain ⟨others, -, -, out, mem⟩ :=
      (flagOnly_flagOp (touch_clean clean) (touch_alone alone) (bit v.toNat 0) src none).touched
    refine ⟨_, (exec_remoteFlagWrite hl ..).trans (congrArg _ (if_neg ?_)),
      value_flagOp (touch_clean clean) (touch_alone alone) _ src none, others, ?_, mem⟩
    · simp [free, hf]
    · rw [flagSt_clean (touch_clean clean), out_emit, out]
  case busy =>
    intro s f src lane v hl busy
    rw [exec_remoteFlagWrite hl, if_pos (.inl busy)]
  case spin =>
    intro s m p f mode since x hl hx spins clean
    rw [exec_spinPoll hl]
    refine ⟨fun rank => by rw [spinPoll_unranked hx spins rank], fun rank => ?_⟩
    rw [spinPoll_ranked hx spins clean rank]
    refine ⟨fun holds => by rw [holds, if_neg Bool.false_ne_true], fun holds hstream alone => ?_⟩
    obtain ⟨t, told, pctx, takes, keeps, mem⟩ := told_waitNow (s := s.setPctx (m * 8 + p) { x with polled := s.clk.tc })
      (pctx_set_same ..) hstream alone mode (s.src (128 + (m * 8 + p) / 8)) (dTag x.desc)
    rw [if_pos holds, told]
    exact ⟨t, rfl, pctx, takes, keeps, (sameMem_setPctx s (m * 8 + p) _).trans mem⟩
  case release =>
    intro s key f k set z x hl clean hz he ho hx hstream alone record
    have goes : exec (.releasePerform key) s = .next (releasePerform s key) :=
      gateIn_live hl (fun s => releasePerform s key)
    refine ⟨fun ready => by rw [goes, releasePerform_waits hz he ho ready], fun ready => ?_⟩
    rw [goes, releasePerform_flag hz he ho clean record ready]
    have only := flagOnly_flagOp (s := withoutRelease s key) clean alone set z.src z.ctx
    have value := value_flagOp (s := withoutRelease s key) clean alone set z.src z.ctx
    obtain ⟨pctx, sync, mem⟩ := commandTold_pctxWake ((only.pctx k).trans hx) hstream
    refine ⟨_, rfl, ?_, ?_, pctx, fun a => (only.mem.trans mem) a⟩
    · exact (congrArg (fun y : Sync => (tget flagReset y.flags f).value) sync).trans value
    · exact (congrArg Sync.releases sync).trans (congrArg Sync.releases only.sync)
  case lend =>
    intro s n hn hl quiet on due
    refine ⟨_, (exec_lendAssert hl hn).trans (congrArg _ (if_pos (by simp [quiet, on, due]))),
      rgBit_setRgBit_same _ _ _ _ hn, regsBut_setRgBit (List.mem_singleton_self _) (regsBut_refl _ s), rfl⟩
  case unquiet =>
    intro s n hn hl quiet
    rw [exec_lendAssert hl hn, quiet]
    rfl
  case allWait =>
    intro s n w hn hl
    refine ⟨_, exec_nodeAllWait hn hl w, ?_, fun k hk => ?_, rfl, rfl⟩
    · exact (mem_addMem_delMem w n n _).trans (by rw [if_pos rfl])
    · exact (mem_addMem_delMem w n k _).trans (by rw [if_neg hk])

end Sys2Proof.Machine


/-! SUPPORT. Barrier channels (R269 to R277): what a channel's registers read as, what records and what the told units leave as
it was, then the rule of each command of a channel, then the obligation. -/

namespace Sys2Proof.Machine

/-! ## A channel's word and its entry -/

theorem bar_set_other (s : State) {c d : Nat} (x : Bar) (h : d ≠ c) : (s.setBar c x).bar d = s.bar d :=
  tget_tset_other _ _ _ _ _ _ h

theorem barEn_setCfg (s : State) (c w : Nat) : barEn (s.setRg (Reg.barCfg c) w) c = bit w 0 :=
  rgBit_setRg _ _ _ _ (by decide)

theorem barCount_setCfg (s : State) (c : Nat) {w : Nat} (h : w < 2 ^ 32) :
    barCount (s.setRg (Reg.barCfg c) w) c = bits w 1 8 + 1 := by
  unfold barCount State.rgField
  rw [rg_setRg_same, Nat.mod_eq_of_lt h]

/-- BAR_CTL is not a channel's word. -/
theorem barCfg_ne_barCtl (c : Nat) : Reg.barCfg c ≠ Reg.barCtl := by
  simp only [Reg.barCfg, Reg.barCtl]
  omega

theorem barEn_setCtl (s : State) (c w : Nat) : barEn (s.setRg Reg.barCtl w) c = barEn s c :=
  rgBit_setRg_other _ _ _ _ _ (barCfg_ne_barCtl c)

theorem barCount_setCtl (s : State) (c w : Nat) : barCount (s.setRg Reg.barCtl w) c = barCount s c :=
  congrArg (· + 1) (rgField_setRg_other _ _ _ _ _ _ (barCfg_ne_barCtl c))

/-- BAR_CTL reads as CHANNEL and FORCE of the word written, ARRIVE as 0. -/
theorem rg_setCtl (s : State) (v : Nat) : (s.setRg Reg.barCtl (v &&& 0x21F)).rg Reg.barCtl = v &&& 0x21F := by
  rw [rg_setRg_same]
  exact Nat.mod_eq_of_lt (Nat.and_lt_two_pow v (by decide))

/-- TOGGLE flips when a count reaches COUNT. -/
theorem flip_at (b : Bool) (m n : Nat) : (if m = n then !b else b) = (b != (m == n)) := by
  by_cases h : m = n
  · rw [if_pos h, beq_iff_eq.mpr h, Bool.bne_true]
  · rw [if_neg h, beq_eq_false_iff_ne.mpr h, Bool.bne_false]

/-! ## Enable and disable (R269, R274) -/

section
variable {s : State} {c v : Nat}

theorem barCfgWrite_enables (off : barEn s c = false) (set : bit v 0 = true) : barCfgWrite s c v = barEnable s c v := by
  unfold barCfgWrite
  rw [off, if_neg Bool.false_ne_true, if_pos set]

theorem barCfgWrite_disables (on : barEn s c = true) (clear : bit v 0 = false) : barCfgWrite s c v = barDisable s c v := by
  unfold barCfgWrite
  rw [if_pos on, clear, if_neg Bool.false_ne_true]

theorem barEn_barEnable (set : bit v 0 = true) : barEn (barEnable s c v) c = true :=
  (barEn_setCfg s c (v % 512)).trans ((bit_mod_two_pow v (n := 9) (by decide)).trans set)

theorem barCount_barEnable : barCount (barEnable s c v) c = bits v 1 8 + 1 := by
  have word : barCount (barEnable s c v) c = bits (v % 512) 1 8 + 1 := barCount_setCfg s c (by omega)
  rw [word]
  simp only [bits]
  omega

/-- The word of a channel that is disabled: COUNT stays. -/
def cfgEnded (s : State) (c v : Nat) : Nat := putBits (v % 512) 1 8 (s.rgField (Reg.barCfg c) 1 8)

theorem cfgEnded_lt : cfgEnded s c v < 2 ^ 32 := putBits_lt _ _ _ _ (by omega) (by decide)

theorem bit_cfgEnded (clear : bit v 0 = false) : bit (cfgEnded s c v) 0 = false := by
  have low : bit (v % 512) 0 = false := (bit_mod_two_pow v (n := 9) (by decide)).trans clear
  simp only [bit, bits, beq_eq_false_iff_ne, cfgEnded, putBits] at low ⊢
  omega

theorem bits_cfgEnded : bits (cfgEnded s c v) 1 8 = s.rgField (Reg.barCfg c) 1 8 :=
  (bits_putBits_same ..).trans (Nat.mod_eq_of_lt (bits_lt _ 1 8))

/-- A channel disabled, its arrivals not told yet. -/
def barEnded (s : State) (c v : Nat) : State :=
  (s.setRg (Reg.barCfg c) (cfgEnded s c v)).setBar c
    { s.bar c with arrived := 0, held := 0, arrivals := [], heldBy := [], quiet := .off }

theorem barEn_barEnded (clear : bit v 0 = false) : barEn (barEnded s c v) c = false :=
  (barEn_setCfg s c _).trans (bit_cfgEnded clear)

theorem barCount_barEnded : barCount (barEnded s c v) c = barCount s c :=
  (barCount_setCfg s c cfgEnded_lt).trans (congrArg (· + 1) bits_cfgEnded)

theorem pctx_barEnded (k : Nat) : (barEnded s c v).pctx k = s.pctx k := rfl

theorem bar_barEnded : (barEnded s c v).bar c =
    { s.bar c with arrived := 0, held := 0, arrivals := [], heldBy := [], quiet := .off } := bar_set_same ..

theorem sameMem_barEnded (s : State) (c v : Nat) : SameMem s (barEnded s c v) := fun _ => ⟨rfl, rfl, rfl, rfl⟩

theorem barDisable_alone (first : (s.bar c).arrivals = []) (second : (s.bar c).heldBy = []) :
    barDisable s c v = barEnded s c v := by
  unfold barDisable
  dsimp only
  rw [first, second]
  rfl

/-- The one arrival that waits is told FAULT_PROT, after MEMBER_LEFT is set. -/
theorem barDisable_sole {a : Arrival} (first : (s.bar c).arrivals = [a]) (second : (s.bar c).heldBy = []) :
    barDisable s c v = tellArrival (syncErr (barEnded s c v) 2 a.src .faultProt) a .faultProt := by
  unfold barDisable
  dsimp only
  rw [first, second]
  rfl

end

/-! ## What the records and the told units of a channel leave as it was -/

/-- The registers that the records of a release and the wakes that it sends may change. -/
def toldRegs : List Nat := [Reg.evlLost, Reg.traceDrops, Reg.syncLendStatus]

/-- The channels, every memory, the domains that are up, and the registers but `toldRegs` are as they were. -/
structure ToldKept (s t : State) : Prop where
  bars : t.sync.bars = s.sync.bars
  up : ∀ d, isUp t d = isUp s d
  regs : RegsBut toldRegs s t
  mem : SameMem s t

/-- Registers from 0x6200 on below 0x7000, those of the channels among them, are not `toldRegs`. -/
theorem notMem_toldRegs {o : Nat} (hlo : 0x6200 ≤ o) (hhi : o < 0x7000) : o ∉ toldRegs := by
  simp only [toldRegs, Reg.evlLost, Reg.traceDrops, Reg.syncLendStatus, List.mem_cons, List.not_mem_nil, or_false]
  omega

section
variable {s t u : State}

theorem ToldKept.refl (s : State) : ToldKept s s := ⟨rfl, fun _ => rfl, regsBut_refl _ s, fun _ => ⟨rfl, rfl, rfl, rfl⟩⟩

theorem ToldKept.trans (h : ToldKept s t) (k : ToldKept t u) : ToldKept s u :=
  ⟨k.bars.trans h.bars, fun d => (k.up d).trans (h.up d), regsBut_trans h.regs k.regs, h.mem.trans k.mem⟩

theorem ToldKept.bar (h : ToldKept s t) (c : Nat) : t.bar c = s.bar c :=
  congrArg (fun x : Table Bar => tget barReset x c) h.bars

theorem ToldKept.barEn (h : ToldKept s t) {c : Nat} (hc : c < 32) : barEn t c = barEn s c :=
  congrArg (bit · 0) (h.regs _ (notMem_toldRegs (by simp only [Reg.barCfg]; omega)
    (by simp only [Reg.barCfg]; omega)))

theorem ToldKept.barRelease (h : ToldKept s t) {c : Nat} (hc : c < 32) :
    t.rg64 (Reg.barRelease (2 * c)) (Reg.barRelease (2 * c + 1)) =
      s.rg64 (Reg.barRelease (2 * c)) (Reg.barRelease (2 * c + 1)) := by
  have word : ∀ i < 64, t.rg (Reg.barRelease i) = s.rg (Reg.barRelease i) := fun i hi =>
    h.regs _ (notMem_toldRegs (by simp only [Reg.barRelease]; omega) (by simp only [Reg.barRelease]; omega))
  unfold State.rg64
  rw [word _ (by omega), word _ (by omega)]

end

theorem regsBut_traceDrop {l : List Nat} (h : Reg.traceDrops ∈ l) (s : State) : RegsBut l s (traceDrop s) :=
  regsBut_of_regs (t := s.countRg Reg.traceDrops 1) rfl (regsBut_countRg h (regsBut_refl _ s))

theorem regsBut_tracePush {l : List Nat} (h : Reg.traceDrops ∈ l) (s : State) (r : TraceRec) :
    RegsBut l s (tracePush s r) := by
  have taken : RegsBut l s (takeSeq s s.srcClerk).2.2 := regsBut_refl _ s
  unfold tracePush
  dsimp only
  split
  · exact regsBut_refl _ s
  · split
    · split
      · next e => rw [e] at taken; exact regsBut_trans taken (regsBut_traceDrop h _)
      · next e => rw [e] at taken; exact taken
    · exact regsBut_traceDrop h s

theorem regsBut_traceEv {l : List Nat} (h : Reg.traceDrops ∈ l) (s : State) (src op other obj : Nat) :
    RegsBut l s (traceEv s src op other obj) := by
  have taken : RegsBut l s (takeSeq s src).2.2 := regsBut_refl _ s
  unfold traceEv
  generalize (if src / 256 = s.pwr.dieId then unitNode (src % 256) else 32) = node
  dsimp only
  split
  · split
    · exact regsBut_trans taken (regsBut_tracePush h _ _)
    · exact regsBut_trans taken (regsBut_traceDrop h _)
  · exact regsBut_refl _ s

/-- A record of a sync event changes of the registers only the counts of what was lost. -/
theorem regsBut_syncRec {l : List Nat} (hl : Reg.evlLost ∈ l) (ht : Reg.traceDrops ∈ l) (s : State) (src : Nat)
    (ctx : Option (Nat × Nat)) (obj op last : Nat) : RegsBut l s (syncRec s src ctx obj op last) := by
  have ledger : RegsBut l s (if s.rgBit Reg.evlCtl 2 then ledgerSrc s src 0x06 ctx (obj + op * 2 ^ 16) last else s) := by
    split
    · exact regsBut_ledgerSrc hl (regsBut_refl _ s) _ _ _ _ _
    · exact regsBut_refl _ s
  exact regsBut_trans ledger (regsBut_traceEv ht _ _ _ _ _)

theorem toldKept_syncRec (s : State) (src : Nat) (ctx : Option (Nat × Nat)) (obj op last : Nat) :
    ToldKept s (syncRec s src ctx obj op last) :=
  have same := sansRecs_syncRec s src ctx obj op last
  ⟨congrArg Sync.bars (sansRecs_sync same), isUp_sansRecs same, regsBut_syncRec (by decide) (by decide) _ _ _ _ _ _,
    sameMem_of_sansRecs same⟩

theorem toldKept_lendOff (s : State) (n : Nat) : ToldKept s (lendOff s n) := by
  refine ⟨(congrArg Sync.bars (lendOff_sync s n) :), isUp_lendOff s n, ?_, sameMem_lendOff s n⟩
  unfold lendOff
  dsimp only
  split
  · exact regsBut_of_regs (t := s.setRgBit Reg.syncLendStatus n false) rfl (regsBut_setRgBit (by decide) (regsBut_refl _ s))
  · exact regsBut_refl _ s

theorem toldKept_setPctx (s : State) (k : Nat) (x : PCtx) : ToldKept s (s.setPctx k x) :=
  ⟨rfl, fun _ => rfl, fun _ _ => rfl, sameMem_setPctx s k x⟩

/-- A told program context changes, and the quiescence of its mover's node is broken. -/
theorem toldKept_lendOff_setPctx (s : State) (k : Nat) (x : PCtx) : ToldKept s ((lendOff s (k / 8)).setPctx k x) :=
  (toldKept_lendOff ..).trans (toldKept_setPctx ..)

theorem toldKept_pctxTold (s : State) (k : Nat) (st : Status) : ToldKept s (pctxTold s k st) := by
  unfold pctxTold pctxWake pctxFault
  cases s.pctx k with
  | none => exact .refl s
  | some x =>
    dsimp only
    cases x.stream with
    | none => dsimp only; split <;> exact toldKept_lendOff_setPctx ..
    | some m => exact toldKept_lendOff_setPctx ..

theorem toldKept_wakePush {s : State} {w : NodeWake} (up : isUp s (dHome w.node) = true) : ToldKept s (wakePush s w) := by
  rw [wakePush_up up]
  exact (toldKept_lendOff s w.node).trans ⟨rfl, fun _ => rfl, fun _ _ => rfl, fun _ => ⟨rfl, rfl, rfl, rfl⟩⟩

/-- If the unit of an arrival is an engine, the domain of its node is up. -/
def EngineUp (s : State) (a : Arrival) : Prop :=
  ∀ token port ctx node, a.who = some (.engine token port ctx node) → isUp s (dHome node) = true

theorem ToldKept.engineUp {s t : State} (h : ToldKept s t) {a : Arrival} (up : EngineUp s a) : EngineUp t a :=
  fun token port ctx node who => (h.up _).trans (up token port ctx node who)

theorem toldKept_tellArrival {s : State} {a : Arrival} (up : EngineUp s a) (st : Status) :
    ToldKept s (tellArrival s a st) := by
  unfold tellArrival
  cases who : a.who with
  | none => exact .refl s
  | some w =>
    cases w with
    | pctx k => exact toldKept_pctxTold s k st
    | ring r => exact ⟨rfl, fun _ => rfl, fun _ _ => rfl, fun _ => ⟨rfl, rfl, rfl, rfl⟩⟩
    | engine token port ctx node => exact toldKept_wakePush (up token port ctx node who)

/-- The arrivals of a round are recorded and told, one after another. -/
theorem toldKept_tellRound (c : Nat) (l : List Arrival) {s : State} (up : ∀ a ∈ l, EngineUp s a) :
    ToldKept s (l.foldl (fun t a => tellArrival (syncRec t a.src a.ctx c 6 0) a .ok) s) := by
  induction l generalizing s with
  | nil => exact .refl s
  | cons a l ih =>
    have recorded := toldKept_syncRec s a.src a.ctx c 6 0
    have told := recorded.trans (toldKept_tellArrival (recorded.engineUp (up a (List.mem_cons_self ..))) .ok)
    exact told.trans (ih (fun b hb => told.engineUp (up b (List.mem_cons_of_mem a hb))))

/-! ## The error of a channel that is disabled (R274) -/

theorem rgBit_syncErr (s : State) {b : Nat} (hb : b < 32) (src : Nat) (st : Status) :
    (syncErr s b src st).rgBit Reg.syncErrStatus b = true :=
  (rgBit_setRg_other _ _ _ _ _ (by decide)).trans (rgBit_setRgBit_same s Reg.syncErrStatus b true hb)

theorem regsBut_syncErr (s : State) (b src : Nat) (st : Status) :
    RegsBut [Reg.syncErrStatus, Reg.syncErrLast] s (syncErr s b src st) :=
  regsBut_setRg (by decide) (regsBut_setRgBit (by decide) (regsBut_refl _ s))

theorem barEn_syncErr (s : State) (b src : Nat) (st : Status) (c : Nat) : barEn (syncErr s b src st) c = barEn s c := by
  have apart : Reg.barCfg c ∉ [Reg.syncErrStatus, Reg.syncErrLast] := by
    simp only [Reg.barCfg, Reg.syncErrStatus, Reg.syncErrLast, List.mem_cons, List.not_mem_nil, or_false]
    omega
  exact rgBit_of_regsBut (regsBut_syncErr s b src st) apart 0

theorem bar_syncErr (s : State) (b src : Nat) (st : Status) (c : Nat) : (syncErr s b src st).bar c = s.bar c := rfl

theorem pctx_syncErr (s : State) (b src : Nat) (st : Status) (k : Nat) : (syncErr s b src st).pctx k = s.pctx k := rfl

theorem sameMem_syncErr (s : State) (b src : Nat) (st : Status) : SameMem s (syncErr s b src st) :=
  fun _ => ⟨rfl, rfl, rfl, rfl⟩

/-- A waiting command, no STREAM, with no error so far is done with the error that it is told. -/
theorem doneWith_pctxTold {s : State} {k : Nat} {x : PCtx} (h : s.pctx k = some x) (hx : x.stream = none)
    (hst : x.status = none) {st : Status} (bad : stOk st = false) : DoneWith (pctxTold s k st) k st := by
  have fails : st ≠ .ok := by
    rintro rfl
    exact absurd bad (by decide)
  have status : (x.err s.clk.tc st).status = some st := by
    unfold PCtx.err
    rw [bad, if_neg Bool.false_ne_true, hst]
  have told : pctxTold s k st =
      (lendOff s (k / 8)).setPctx k { x.err s.clk.tc st with wait := none, done := true } := by
    unfold pctxTold
    rw [h]
    dsimp only
    rw [hx]
    dsimp only
    rw [if_neg fails]
    unfold pctxFault
    rw [h]
    dsimp only
    rw [hx]
  rw [told]
  exact ⟨_, pctx_set_same .., rfl, rfl, status⟩

/-! ## A release (R271, R272) -/

/-- A channel of n participants in its next round, at a time. -/
def Bar.turned (b : Bar) (n now : Nat) : Bar :=
  { b with expect := !b.expect, round := (b.round + 1) % 2 ^ 32, arrived := b.held, held := 0, arrivals := b.heldBy,
           heldBy := [], toggle := if b.held = n then !b.toggle else b.toggle, quiet := .high now, wire := true }

/-- A channel's next round has begun, and its arrivals are not told yet. -/
def barTurned (s : State) (c : Nat) : State :=
  (s.setBar c ((s.bar c).turned (barCount s c) s.now)).setRg64 (Reg.barRelease (2 * c)) (Reg.barRelease (2 * c + 1)) s.now

theorem barRelease_eq (s : State) (c : Nat) :
    barRelease s c = (s.bar c).arrivals.foldl (fun t a => tellArrival (syncRec t a.src a.ctx c 6 0) a .ok) (barTurned s c) :=
  rfl

theorem bar_barTurned (s : State) (c : Nat) : (barTurned s c).bar c = (s.bar c).turned (barCount s c) s.now :=
  bar_set_same ..

theorem sameMem_barTurned (s : State) (c : Nat) : SameMem s (barTurned s c) := fun _ => ⟨rfl, rfl, rfl, rfl⟩

/-- A LO and HI pair just written reads as the number written. -/
theorem rg64_setRg64 (s : State) {lo hi v : Nat} (h : lo ≠ hi) (hv : v < 2 ^ 64) : (s.setRg64 lo hi v).rg64 lo hi = v := by
  unfold State.rg64 State.setRg64
  rw [rg_setRg_other _ _ _ _ h, rg_setRg_same, rg_setRg_same]
  omega

theorem release_barTurned (s : State) (c : Nat) :
    (barTurned s c).rg64 (Reg.barRelease (2 * c)) (Reg.barRelease (2 * c + 1)) = s.now :=
  rg64_setRg64 _ (by simp only [Reg.barRelease]; omega) (Nat.mod_lt _ (by decide))

theorem toldKept_barRelease {s : State} {c : Nat} (up : ∀ a ∈ (s.bar c).arrivals, EngineUp s a) :
    ToldKept (barTurned s c) (barRelease s c) :=
  (barRelease_eq s c).symm ▸ toldKept_tellRound (s := barTurned s c) c (s.bar c).arrivals up

/-! ## An arrival (R270, R277) -/

section
variable {s : State} {c v : Nat}

theorem barCtlWrite_only (quiet : bit v 8 = false) : barCtlWrite s v = s.setRg Reg.barCtl (v &&& 0x21F) := by
  unfold barCtlWrite
  dsimp only
  rw [quiet, Bool.false_and, if_neg Bool.false_ne_true]

/-- FORCE holds the output of its channel true, whatever the channel does (R277). -/
theorem barOut_forced (force : bit v 9 = true) : barOut (s.setRg Reg.barCtl (v &&& 0x21F)) (bits v 0 5) = true := by
  have forced : barForced (s.setRg Reg.barCtl (v &&& 0x21F)) (bits v 0 5) = true := by
    unfold barForced State.rgBit State.rgField
    rw [rg_setCtl, bit_and_mask (by decide), bits_and_mask (by decide), force]
    simp
  unfold barOut
  rw [forced, Bool.or_true, Bool.true_or]

/-- The arrival that a write of ARRIVE counts. -/
def ctlArrival (s : State) : Arrival := { src := s.src 168, scope := 0, ctx := none, who := none }

theorem barCtlWrite_arrives (arrive : bit v 8 = true) (hv : bits v 0 5 = c) (on : barEn s c = true)
    (room : (s.bar c).arrived < barCount s c) :
    barCtlWrite s v = syncRec ((s.setRg Reg.barCtl (v &&& 0x21F)).setBar c ((s.bar c).arrive (barCount s c) (ctlArrival s)))
      (s.src 168) none c 5 0 := by
  have on' : barEn (s.setRg Reg.barCtl (v &&& 0x21F)) c = true := (barEn_setCtl ..).trans on
  have count := barCount_setCtl s c (v &&& 0x21F)
  unfold barCtlWrite
  dsimp only
  rw [hv, arrive, on', Bool.and_true, if_pos rfl, barCountArrival_room on' (by rw [count]; exact room), count]
  rfl

end

/-- A channel whose waiting arrival is taken to be counted. -/
def noneWaiting (s : State) (c : Nat) : State := s.setBar c { s.bar c with waiting := [] }

theorem barCountArrival_taken {s : State} {c : Nat} {a : Arrival} (on : barEn s c = true)
    (room : (s.bar c).arrived < barCount s c) (record : dirtyRecord s (a.src % 256) = []) :
    barCountArrival (releaseClean (noneWaiting s c) a.src a.scope) c a =
      syncRec ((noneWaiting s c).setBar c { (s.bar c).arrive (barCount s c) a with waiting := [] }) a.src a.ctx c 5 0 := by
  have entry : (noneWaiting s c).bar c = { s.bar c with waiting := [] } := bar_set_same ..
  rw [releaseClean_empty (s := noneWaiting s c) record,
    barCountArrival_room (s := noneWaiting s c) on (by rw [entry]; exact room), entry]
  rfl

/-! ## The commands of a channel -/

theorem exec_barArrive {s : State} (runs : frozen s = false) (v : Word) :
    exec (.barArrive v) s = .next (barCtlWrite s v.toNat) := gateAO_awake runs (fun s => barCtlWrite s v.toNat)

theorem exec_barForce {s : State} (runs : frozen s = false) (v : Word) :
    exec (.barForce v) s = .next (barCtlWrite s v.toNat) := gateAO_awake runs (fun s => barCtlWrite s v.toNat)

section
variable {s : State} {c : Nat} (hc : c < 32)
include hc

theorem exec_barEnable (runs : frozen s = false) {v : Word} (set : bit v.toNat 0 = true) (off : barEn s c = false) :
    exec (.barEnable c v) s = .next (barEnable s c v.toNat) := by
  change execBarEnable c v s = _
  unfold execBarEnable
  rw [gateAO_awake runs, if_pos set, Nat.mod_eq_of_lt hc, barCfgWrite_enables off set]

theorem exec_barDisable (runs : frozen s = false) {v : Word} (clear : bit v.toNat 0 = false) (on : barEn s c = true) :
    exec (.barDisable c v) s = .next (barDisable s c v.toNat) := by
  change execBarDisable c v s = _
  unfold execBarDisable
  rw [gateAO_awake runs, clear, if_neg Bool.false_ne_true, Nat.mod_eq_of_lt hc, barCfgWrite_disables on clear]

theorem exec_barrierReleaseSeen (runs : frozen s = false) (outside : (s.bar c).quiet = .off) (on : barEn s c = true)
    (full : (s.bar c).toggle = (s.bar c).expect) : exec (.barrierReleaseSeen c) s = .next (barRelease s c) := by
  change execBarrierReleaseSeen c s = _
  unfold execBarrierReleaseSeen
  rw [gateAO_awake runs, runs, if_neg Bool.false_ne_true, Nat.mod_eq_of_lt hc]
  dsimp only
  rw [if_pos outside, if_pos (by simp [on, full])]

theorem exec_quietPhaseEnd_high (runs : frozen s = false) {a : Nat} (phase : (s.bar c).quiet = .high a) :
    exec (.quietPhaseEnd c) s =
      .next (if a + 64 ≤ s.now then s.setBar c { s.bar c with quiet := .low (a + 64) } else s) := by
  change execQuietPhaseEnd c s = _
  unfold execQuietPhaseEnd
  rw [gateAO_awake runs, Nat.mod_eq_of_lt hc]
  dsimp only
  rw [phase]

theorem exec_quietPhaseEnd_low (runs : frozen s = false) {a : Nat} (phase : (s.bar c).quiet = .low a) :
    exec (.quietPhaseEnd c) s =
      .next (if a + 128 ≤ s.now then s.setBar c { s.bar c with quiet := .off, wire := false } else s) := by
  change execQuietPhaseEnd c s = _
  unfold execQuietPhaseEnd
  rw [gateAO_awake runs, Nat.mod_eq_of_lt hc]
  dsimp only
  rw [phase]

section
variable {a : Arrival} (hl : Live s dFAB) (sole : (s.bar c).waiting = [a])
include hl sole

theorem exec_barrierArrivalCount_waits (ready : releaseReady s a.src a.scope = false) :
    exec (.barrierArrivalCount c) s = .next s := by
  change execBarrierArrivalCount c s = _
  unfold execBarrierArrivalCount
  rw [gateIn_live hl, Nat.mod_eq_of_lt hc]
  dsimp only
  rw [sole, List.find?_singleton, ready, if_neg Bool.false_ne_true]

/-- The channel's one waiting arrival, its release waits done and its port's record clean, is counted in the current round. -/
theorem exec_barrierArrivalCount_counts (ready : releaseReady s a.src a.scope = true) (on : barEn s c = true)
    (room : (s.bar c).arrived < barCount s c) (record : dirtyRecord s (a.src % 256) = []) :
    exec (.barrierArrivalCount c) s = .next (syncRec
      ((noneWaiting s c).setBar c { (s.bar c).arrive (barCount s c) a with waiting := [] }) a.src a.ctx c 5 0) := by
  change execBarrierArrivalCount c s = _
  unfold execBarrierArrivalCount
  rw [gateIn_live hl, Nat.mod_eq_of_lt hc]
  dsimp only
  rw [sole, List.find?_singleton, ready, if_pos rfl]
  dsimp only
  rw [List.erase_cons_head]
  exact congrArg _ (barCountArrival_taken on room record)

end

end

/-! ## The obligation -/

/-- Settles O42, command by command: what each writes is an equation above, and what its records and the units that it tells
keep of that is `ToldKept`. -/
theorem barriers : Obligations.Barriers := by
  unfold Obligations.Barriers
  refine ⟨?enable, ?disable, ?member, ?arrive, ?force, ?count, ?release, ?quiet⟩
  case enable =>
    intro s c v hc runs set off
    have entry : (barEnable s c v.toNat).bar c = _ := bar_set_same ..
    refine ⟨_, exec_barEnable hc runs set off, barEn_barEnable set, barCount_barEnable, ?_, ?_, ?_, ?_,
      fun d hd => bar_set_other _ _ hd, regsBut_setRg (List.mem_singleton_self _) (regsBut_refl _ s), rfl⟩ <;> rw [entry]
  case disable =>
    intro s c v hc runs clear on first second
    refine ⟨barEnded s c v.toNat, (exec_barDisable hc runs clear on).trans (congrArg _ (barDisable_alone first second)),
      barEn_barEnded clear, barCount_barEnded, ?_, ?_, regsBut_setRg (List.mem_singleton_self _) (regsBut_refl _ s), rfl⟩ <;>
      rw [bar_barEnded]
  case member =>
    intro s c k v a x hc runs clear on first second who hx hstream hstatus
    have told : ∀ t, tellArrival t a .faultProt = pctxTold t k .faultProt := fun t => by
      unfold tellArrival
      rw [who]
      rfl
    have kept := toldKept_pctxTold (syncErr (barEnded s c v.toNat) 2 a.src .faultProt) k .faultProt
    refine ⟨_, (exec_barDisable hc runs clear on).trans (congrArg _ ((barDisable_sole first second).trans (told _))),
      (kept.barEn hc).trans ((barEn_syncErr ..).trans (barEn_barEnded clear)),
      doneWith_pctxTold ((pctx_syncErr ..).trans ((pctx_barEnded k).trans hx)) hstream hstatus rfl,
      (rgBit_of_regsBut kept.regs (by decide) 2).trans (rgBit_syncErr _ (by decide) _ _), ?_, ?_⟩
    · rw [kept.bar, bar_syncErr, bar_barEnded]
    · exact fun b => ((sameMem_barEnded s c v.toNat).trans ((sameMem_syncErr _ _ _ _).trans kept.mem)) b
  case arrive =>
    intro s c v hc runs arrive hv on room
    have kept := toldKept_syncRec ((s.setRg Reg.barCtl (v.toNat &&& 0x21F)).setBar c
      ((s.bar c).arrive (barCount s c) (ctlArrival s))) (s.src 168) none c 5 0
    refine ⟨_, (exec_barArrive runs v).trans (congrArg _ (barCtlWrite_arrives arrive hv on room)), ?_, ?_,
      (kept.regs _ (by decide)).trans (rg_setCtl s v.toNat), fun b => kept.mem b⟩
    · rw [kept.bar, bar_set_same, Bar.arrive]
    · rw [kept.bar, bar_set_same]
      exact flip_at ..
  case force =>
    intro s v runs quiet force
    exact ⟨_, (exec_barForce runs v).trans (congrArg _ (barCtlWrite_only quiet)), barOut_forced force,
      rg_setCtl s v.toNat, regsBut_setRg (List.mem_singleton_self _) (regsBut_refl _ s), rfl⟩
  case count =>
    intro s c a hc hl sole on room record
    refine ⟨exec_barrierArrivalCount_waits hc hl sole, fun ready => ?_⟩
    have kept := sansRecs_syncRec ((noneWaiting s c).setBar c { (s.bar c).arrive (barCount s c) a with waiting := [] })
      a.src a.ctx c 5 0
    have mem : SameMem s _ := ((sameMem_setBar s c _).trans (sameMem_setBar _ c _)).trans (sameMem_of_sansRecs kept)
    refine ⟨_, exec_barrierArrivalCount_counts hc hl sole ready on room record, ?_, ?_, ?_, (sansRecs_work kept).trans rfl,
      fun b => mem b⟩ <;> rw [sansRecs_bar kept, bar_set_same, Bar.arrive]
  case release =>
    intro s c hc runs outside on full up
    have kept := toldKept_barRelease up
    have entry := (kept.bar c).trans (bar_barTurned s c)
    refine ⟨_, exec_barrierReleaseSeen hc runs outside on full, ?_, ?_, ?_, ?_, ?_, ?_,
      (kept.barRelease hc).trans (release_barTurned s c), fun b => (sameMem_barTurned s c).trans kept.mem b⟩ <;>
      rw [entry, Bar.turned]
    exact flip_at ..
  case quiet =>
    intro s c a hc runs
    refine ⟨fun phase due => ?_, fun phase due => ?_, fun phase early => ?_⟩
    · refine ⟨_, (exec_quietPhaseEnd_high hc runs phase).trans (congrArg _ (if_pos due)), ?_, rfl⟩
      rw [bar_set_same]
    · refine ⟨_, (exec_quietPhaseEnd_low hc runs phase).trans (congrArg _ (if_pos due)), ?_, ?_, rfl⟩ <;> rw [bar_set_same]
    · rw [exec_quietPhaseEnd_high hc runs phase, if_neg (by omega)]

end Sys2Proof.Machine
